-- ==== Sys2Proof/Word.lean ====
section
/-! DEFINITION. The plainest types of the model: bytes, register words, and bit fields of a natural number
(00_scope.md, "Numbers, bits and units"; R5, R7). -/

namespace Sys2Proof

/-- One byte. -/
abbrev Byte := BitVec 8

/-- One setup register (R5). -/
abbrev Word32 := BitVec 32

/-- Bits [lo + w - 1 : lo] of `x`, bit 0 least significant (00_scope.md, notation). -/
def bits (x lo w : Nat) : Nat := (x >>> lo) % 2 ^ w

/-- Bit `n` of `x`. -/
def bit (x n : Nat) : Bool := x.testBit n

/-- `x` with bits [lo + w - 1 : lo] replaced by the low `w` bits of `v`. -/
def setBits (x lo w v : Nat) : Nat :=
  x - (bits x lo w) <<< lo + (v % 2 ^ w) <<< lo

/-- A Bool as one bit. -/
def b2n (b : Bool) : Nat := if b then 1 else 0

/-- Two's complement reading of a `w`-bit field. -/
def signed (w x : Nat) : Int := if x < 2 ^ (w - 1) then (x : Int) else (x : Int) - (2 ^ w : Nat)

/-- A signed number as a `w`-bit two's complement field. -/
def unsigned (w : Nat) (i : Int) : Nat := (i % (2 ^ w : Nat)).toNat

/-- Bytes read as one little-endian number, byte 0 least significant (R7, R383). -/
def leNat : List Byte → Nat
  | [] => 0
  | b :: bs => b.toNat + 256 * leNat bs

/-- The `n` low bytes of `x`, lowest first (R7). -/
def leBytes : Nat → Nat → List Byte
  | 0, _ => []
  | n + 1, x => BitVec.ofNat 8 x :: leBytes n (x / 256)

/-- Bytes read in network order, first byte most significant (R7). -/
def beNat (bs : List Byte) : Nat := bs.foldl (fun a b => a * 256 + b.toNat) 0

/-- The `n` low bytes of `x` in network order (R7). -/
def beBytes (n x : Nat) : List Byte := (leBytes n x).reverse

/-- Division rounded up. -/
def ceilDiv (a b : Nat) : Nat := (a + b - 1) / b

end Sys2Proof
end

