-- ==== Sys2Proof/Syntax.lean ====
section
/-! DEFINITION. The commands of the block: one constructor for each row of spec/opcode_table.json.
`dt` is the number of TIME cycles (1.25 ns, R310) that pass before the command takes effect. A command that a
command ring carries (R382) names its ring in an `Issue`; its descriptor is the one at the head of that ring. -/

namespace Sys2Proof

/-- The six modes and DIRECT (R31, R37). -/
inductive Mode where
  | fabric | twin | transport | gated | cellar | partition | direct
deriving DecidableEq, Repr

/-- How a command ring's head descriptor comes to be executed (R374): the function and local ring on which it stands,
and the payload bytes that the read of host memory returns, `none` when that read fails (R376). -/
structure Issue where
  /-- TIME cycles that pass first. -/
  dt : Nat := 0
  /-- Physical function (R362). -/
  fn : Fin 2 := 0
  /-- Local command ring number (R367). -/
  ring : Fin 64 := 0
  /-- The bytes at PAYLOAD_ADDR; not used when INLINE = 1. -/
  payload : Option (List Byte) := some []
deriving DecidableEq, Repr

/-- What the hardware finds beside a frame's bytes: error conditions of the PCS and FEC (R81), and memory errors of its
lookups (R150, R162). -/
structure RxErr where
  /-- Error or invalid control character inside the frame. -/
  pcs : Bool := false
  /-- Overlaps an uncorrected FEC codeword (R64). -/
  fec : Bool := false
  /-- Codewords uncorrected and corrected, and errored PCS blocks outside lost codewords, that this frame is the first to meet;
  corrected symbols by lane of the port (R78). -/
  uncorrCw : Nat := 0
  corrCw : Nat := 0
  errBlocks : Nat := 0
  symErrs : List Nat := []
  /-- Number of bytes of reception beyond 16,383 is not kept: the frame is a jabber (R81). -/
  jabber : Bool := false
  /-- Bank and row of a TCAM entry whose hit its shadow contradicts (R162). -/
  tcamBad : Option (Nat × Nat) := none
  /-- Versions that read uncorrectable (R150). Bit t: the version that table t of R384 gives the frame, with 1 the winner and 2 the
  search profile of KEY2; bits 9 and 10 the same two of KEY3. -/
  poison : Nat := 0
  /-- Versions of tables 3 to 7 that read corrected (R305), by the same bits. -/
  corr : Nat := 0
deriving DecidableEq, Repr

/-- How a data cell lies in the FEC codewords of its link group (R243, R246). -/
structure CellErr where
  /-- It lies in an uncorrected codeword. -/
  lost : Bool := false
  /-- Codewords uncorrected and corrected that this cell is the first to meet; corrected symbols by lane of the group (R78). -/
  uncorrCw : Nat := 0
  corrCw : Nat := 0
  symErrs : List Nat := []
deriving DecidableEq, Repr

/-- A spill of R211: the queue, and the outcome of the read of its first room: 0 good, 1 corrected, 2 uncorrectable (R305). -/
structure Spill where
  q : Fin 1048576
  out : Fin 3
deriving DecidableEq, Repr

/-- One received transport frame of an entity, demultiplexed (R100, R103, R106, R108). -/
structure XptFrame where
  /-- Line lane group 0 to 5. -/
  group : Fin 6
  /-- Layer code of R115: 1 OTU SM, 2 ODU PM line, 3 ODU PM tributary, 4 RS, 5 MS, 6 HP, 7 client. -/
  layer : Nat
  /-- Index of R115: framer lane, tributary, tributary × 256 + VC-4, or client. -/
  index : Nat
  /-- The fields over which the layer's BIP is computed, and the BIP field that the frame carries (R106). -/
  covered : List Byte := []
  bip : List Byte := []
  /-- Far-end violations and far-end defect indication carried by the frame (R107). -/
  farEnd : Nat := 0
  farDefect : Bool := false
  /-- GMP justification control bytes JC1 to JC3, when the frame carries them; the three copies of the AMP justification control
  (R100). -/
  gmpJc : List Byte := []
  ampJc : List Nat := []
  /-- H1 and H2 of a member VC-4's AU-4 pointer (R100). -/
  ptr : Nat := 0x6800
  /-- STAT of an ODU's PM overhead, or bits 6 to 8 of K2 of an STM (R108). -/
  status : Nat := 1
  /-- Skew between the interfaces of an OTUCn in ns (R91). -/
  skew : Nat := 0
  /-- Payload type and multiplex structure identifier (tributary port number of each slot), when the frame carries them (R94,
  R108). -/
  pt : Option Nat := none
  msi : Option (List Nat) := none
  /-- Multiframe indicator of a member VC-4, `none` when H4 carries none; the VC-4's payload bytes (R103). -/
  mfi : Option Nat := none
  payload : List Byte := []
  /-- 66-bit blocks recovered from a kind-1 client's payload: bits [1:0] the sync header, bit 0 first (R109). -/
  blocks : List Nat := []
  /-- Received trail trace identifier complete in this frame (R89). -/
  tti : Option Nat := none
deriving DecidableEq, Repr

/-- Every command of the block. -/
inductive Instr where
  -- host accesses and rings
  /-- R8: aligned 32-bit write at MW0 offset `off`; `hi` is the second word of a 64-bit write (R6). -/
  | registerWrite (dt : Nat) (fn : Fin 2) (off : Nat) (value : Word32) (hi : Option Word32)
  /-- R6: MW0 access of wrong size or alignment. -/
  | mw0BadAccess (dt : Nat) (fn : Fin 2) (off size : Nat) (write : Bool)
  /-- R370: write to MW2 that is no doorbell. -/
  | mw2BadWrite (dt : Nat) (fn : Fin 2) (off size : Nat)
  /-- R365. -/
  | versionOffer (dt : Nat) (fn : Fin 2) (value : Word32)
  /-- R364. -/
  | functionLevelReset (dt : Nat) (fn : Fin 2)
  /-- R364. -/
  | d3hotEntry (dt : Nat) (fn : Fin 2)
  /-- R364. -/
  | busMasterDisable (dt : Nat) (fn : Fin 2)
  /-- R369: write of `value` to CTRL of ring record `r`, with ENABLE = 1. -/
  | ringEnable (dt : Nat) (fn : Fin 2) (r : Fin 208) (value : Word32)
  /-- R369: write of `value` to CTRL of ring record `r`, with ENABLE = 0. -/
  | ringDisable (dt : Nat) (fn : Fin 2) (r : Fin 208) (value : Word32)
  /-- R410. -/
  | commandRingStopped (dt : Nat) (fn : Fin 2) (ring : Fin 64)
  /-- R370: 8-byte doorbell write; `entries` are the newly covered ring entries as the device reads them, fewer than
  the doorbell covers when the next read fails (R376). -/
  | commandDoorbell (dt : Nat) (fn : Fin 2) (ring : Fin 64) (value : BitVec 64) (entries : List (BitVec 512))
  /-- R370. -/
  | completionDoorbell (dt : Nat) (fn : Fin 2) (ring : Fin 64) (value : BitVec 64)
  /-- R370. -/
  | eventDoorbell (dt : Nat) (fn : Fin 2) (ring : Fin 16) (value : BitVec 64)
  /-- R370, R390: `entries` are the buffer descriptors newly covered. -/
  | puntDoorbell (dt : Nat) (fn : Fin 2) (ring : Fin 32) (value : BitVec 64) (entries : List (BitVec 128))
  /-- R370, R391: `entries` are the inject entries newly covered. -/
  | injectDoorbell (dt : Nat) (fn : Fin 2) (ring : Fin 32) (value : BitVec 64) (entries : List (BitVec 256))
  /-- R371. -/
  | interruptModerationExpiry (dt : Nat) (fn : Fin 2) (r : Fin 208)
  /-- R378. -/
  | progressReport (dt : Nat) (fn : Fin 2) (ring : Fin 64)
  /-- R412: write of `value` to HIF_ABORT with GO = 1. -/
  | hifAbortGo (dt : Nat) (fn : Fin 2) (value : Word32)
  -- commands of the rings (R382), security
  | nop (i : Issue)
  | abort (i : Issue)
  /-- R411: the function FUNC, INDEX named from physical function `fn` has reached its state. -/
  | abortComplete (dt : Nat) (fn : Fin 2) (func index : Nat)
  | fenceClear (i : Issue)
  | keyInstall (i : Issue)
  | keyClear (i : Issue)
  | authPolicySet (i : Issue)
  | fuseRead (i : Issue)
  /-- R393: sideband write of 1 to SEC_FUSE_CTRL.BURN. -/
  | kekBurn (dt : Nat)
  /-- R393: `verified` is the result of reading the fuses back. -/
  | fuseBurnDone (dt : Nat) (verified : Bool)
  -- modes
  /-- R33: write of `value` to MODE_APPLY. -/
  | modeApply (dt : Nat) (fn : Fin 2) (value : Word32)
  | setMode (i : Issue)
  | partAssign (i : Issue)
  /-- R36: the mode's resources carry traffic. -/
  | modeStartingDone (dt : Nat) (m : Mode)
  /-- R36: the mode's work is drained. -/
  | modeQuiescingDone (dt : Nat) (m : Mode)
  /-- R151. -/
  | partitionTransitionBegin (dt : Nat)
  -- setup through commands
  | macAddrSet (i : Issue)
  | macAddrRead (i : Issue)
  | xptOhSet (i : Issue)
  | xptOhRead (i : Issue)
  | pmRead (i : Issue)
  | parseGraphWrite (i : Issue)
  | parseGraphActivate (i : Issue)
  -- tables and epochs
  | tableWrite (i : Issue)
  /-- R161: one move of the rows of TCAM bank `bank`. -/
  | tcamRowMove (dt : Nat) (bank : Fin 12)
  | tableDelete (i : Issue)
  | tableRead (i : Issue)
  | epochCommit (i : Issue)
  /-- R143: the commit waiting on this ring takes its next step. -/
  | epochCommitResume (dt : Nat) (fn : Fin 2) (ring : Fin 64)
  /-- R143. -/
  | epochStall (dt : Nat) (fn : Fin 2) (ring : Fin 64)
  | epochDiscard (i : Issue)
  /-- R148: partition `p`. -/
  | versionReclaim (dt : Nat) (p : Fin 2)
  | tcamBankFormat (i : Issue)
  /-- R163: `corrupt` says that the row differs from its shadow. -/
  | tcamScrub (dt : Nat) (bank : Fin 12) (row : Fin 16384) (corrupt : Bool)
  -- multicast
  | mcastGroupWrite (i : Issue)
  | mcastGroupRead (i : Issue)
  | mcastMembersWrite (i : Issue)
  | mcastEsetWrite (i : Issue)
  -- buffer manager, Ledger, scheduler
  | innPoolSet (i : Issue)
  | innQueueSet (i : Issue)
  | innAudit (i : Issue)
  /-- R209: the walk of the INN_AUDIT waiting on this ring ends. -/
  | innAuditDone (dt : Nat) (fn : Fin 2) (ring : Fin 64)
  | ledgerClassSet (i : Issue)
  | ledgerPortSet (i : Issue)
  | ledgerQueueSet (i : Issue)
  /-- R262: the reduction held by queue `q` ends. -/
  | rateReductionRelease (dt : Nat) (q : Fin 1048576)
  | ledgerQueueRead (i : Issue)
  | schedNodeSet (i : Issue)
  | schedQueueSet (i : Issue)
  | policerSet (i : Issue)
  | gateListSet (i : Issue)
  /-- R288. -/
  | gateListStart (dt : Nat) (port : Fin 48)
  /-- R285. -/
  | gateEntryBoundary (dt : Nat) (port : Fin 48)
  | fabReachWrite (i : Issue)
  -- twin, memory, time, counters, power commands
  | twinClaim (i : Issue)
  | twinRelease (i : Issue)
  | twinFwdSet (i : Issue)
  | twinDigestRead (i : Issue)
  | nwLoad (i : Issue)
  | memTrain (i : Issue)
  /-- R298: training of the command on this ring ends; `margin` has bit c set when channel c fails on margin. -/
  | memTrainDone (dt : Nat) (fn : Fin 2) (ring : Fin 64) (margin : Nat)
  | timeAdjust (i : Issue)
  | tsRead (i : Issue)
  | counterRead (i : Issue)
  | counterReadClear (i : Issue)
  | counterWrite (i : Issue)
  | counterSetCfg (i : Issue)
  | perfCfg (i : Issue)
  | powerDomainOn (i : Issue)
  | powerDomainOff (i : Issue)
  | powerStatusRead (i : Issue)
  /-- R438. -/
  | domainStartingDone (dt : Nat) (d : Fin 236)
  /-- R439. -/
  | domainQuiescingDone (dt : Nat) (d : Fin 236)
  /-- R439. -/
  | domainDrainTimeout (dt : Nat) (d : Fin 236)
  -- lane groups, lanes, ports
  /-- R73: write of 1 to GROUP_CTRL.ENABLE. -/
  | groupEnable (dt : Nat) (fn : Fin 2) (g : Fin 6)
  /-- R73: write of 0 to GROUP_CTRL.ENABLE. -/
  | groupDisable (dt : Nat) (fn : Fin 2) (g : Fin 6)
  /-- R73. -/
  | groupStartingDone (dt : Nat) (g : Fin 6)
  /-- R73. -/
  | groupQuiescingDone (dt : Nat) (g : Fin 6)
  /-- R65: lanes are numbered as their power domains (R437): LN 0 to 47, FB 48 to 143, TW 144 to 151. -/
  | laneTxSettled (dt : Nat) (lane : Fin 152)
  | signalQualified (dt : Nat) (lane : Fin 152)
  | laneAdapted (dt : Nat) (lane : Fin 152)
  /-- R65: the port reaches alignment and deskew: line port 0 to 47, or 48 + j for link group j (R228). -/
  | pcsAligned (dt : Nat) (port : Fin 74)
  | lossOfSignal (dt : Nat) (lane : Fin 152)
  | lossOfLock (dt : Nat) (lane : Fin 152)
  | pcsAlignmentLost (dt : Nat) (port : Fin 74)
  /-- R63. -/
  | highSer (dt : Nat) (port : Fin 74)
  /-- R67. -/
  | lockTimeout (dt : Nat) (port : Fin 74)
  /-- R68. -/
  | retryInterval (dt : Nat) (port : Fin 74)
  /-- R76: write of `value` to LANE_PRBS of the lane. -/
  | prbsPatternSet (dt : Nat) (fn : Fin 2) (lane : Fin 48) (value : Word32)
  /-- R77. -/
  | prbsCheckerLock (dt : Nat) (lane : Fin 48)
  /-- R77: the checker meets `errors` errored bits or symbols within 128. -/
  | prbsLockLost (dt : Nat) (lane : Fin 48) (errors : Nat)
  -- the ingress side
  /-- R81: a frame delimited by a line MAC, destination address to FCS; with no bytes, an interval without a frame in which the PCS
  and FEC of line port `port` count `err` (R78). -/
  | frameReceived (dt : Nat) (port : Fin 48) (data : List Byte) (err : RxErr)
  /-- R85. -/
  | pauseResend (dt : Nat) (port : Fin 48)
  /-- R83: a MAC control frame with the 802.3 pause opcode and its quanta. -/
  | pauseReceived (dt : Nat) (port : Fin 48) (quanta : BitVec 16)
  /-- R83: a PFC frame: enable vector and eight quanta. -/
  | pfcReceived (dt : Nat) (port : Fin 48) (enable : BitVec 8) (quanta : Vector (BitVec 16) 8)
  /-- R83: the pause of `cls` elapses: `none` for 802.3 pause, `some i` for PFC priority i. -/
  | pauseExpiry (dt : Nat) (port : Fin 48) (cls : Option (Fin 8))
  /-- R259. -/
  | ledgerExtendedInterim (dt : Nat) (port : Fin 48)
  /-- R220: the frame at the head of the slice's staging buffer crosses. -/
  | stagingToLanding (dt : Nat) (slice : Fin 4)
  /-- R16: a flit fails its CRC; `resendFails` says that it is the same flit as before. -/
  | d2dFlitCrcFail (dt : Nat) (sameFlit : Bool)
  /-- R223. -/
  | switchCellTime (dt : Nat)
  /-- R196: the multicast, mirror or copy packet at the head of the first stage. -/
  | caravanFirstStage (dt : Nat)
  -- fabric
  /-- R240. -/
  | fabricCellTransmit (dt : Nat) (j : Fin 26)
  /-- R243: the bytes of a data cell received on link group j, and what its FEC reports. -/
  | dataCellReceived (dt : Nat) (j : Fin 26) (cell : List Byte) (err : CellErr)
  /-- R243. -/
  | reassemblyTimeout (dt : Nat) (j : Fin 26) (src : Fin 4096)
  /-- R232. -/
  | capCellReceived (dt : Nat) (j : Fin 26) (word : BitVec 64)
  | capCellSend (dt : Nat) (j : Fin 26)
  /-- R229: write of 1 to FAB_GROUP_CTRL[j].RENEG. -/
  | reneg (dt : Nat) (fn : Fin 2) (j : Fin 26)
  | creditSyncSend (dt : Nat) (j : Fin 26)
  | creditSyncReceived (dt : Nat) (j : Fin 26) (sentUnits returnedUnits : BitVec 32)
  | fabCreditStall (dt : Nat) (j : Fin 26)
  | keepaliveSend (dt : Nat) (j : Fin 26)
  | receiveTimeout (dt : Nat) (j : Fin 26)
  | idleEnter (dt : Nat) (j : Fin 26)
  | idleEnterReceived (dt : Nat) (j : Fin 26)
  | idleExit (dt : Nat) (j : Fin 26)
  | idleExitTimeout (dt : Nat) (j : Fin 26)
  -- the egress side
  /-- R257: the packet at the head of writer port w's buffer, or the Caravan copy in turn there. -/
  | ledgerAdmission (dt : Nat) (w : Fin 8)
  /-- R197: the packet at the head of the second stage's queue. -/
  | caravanSecondStage (dt : Nat)
  /-- R211: a queue spills sixteen tail rooms. -/
  | cellarSpill (dt : Nat) (spill : Spill)
  /-- R212: queue q pulls its oldest page. Here and below an outcome of a read is 0 good, 1 corrected, 2 uncorrectable (R305); `out` is
  that of the page (R216). -/
  | pullBack (dt : Nat) (q : Fin 1048576) (out : Fin 3)
  /-- R273; `out` is the outcome of the read of the head frame's first room (R209). -/
  | releaseOpportunity (dt : Nat) (port : Fin 48) (out : Fin 3)
  /-- R184: the released frame at the head of the port's egress slice; `outs` are the outcomes of reads of the copies of its rewrite
  version in H0 and H1 (R150, R293). -/
  | egressEdit (dt : Nat) (port : Fin 48) (outs : Fin 3 × Fin 3)
  /-- R63. -/
  | macTransmit (dt : Nat) (port : Fin 48)
  /-- R260. -/
  | downFlush (dt : Nat) (port : Fin 48)
  /-- R324: the packet at the head of queue q. -/
  | ageDiscard (dt : Nat) (q : Fin 1048576)
  /-- R190: the frame at the head of device punt ring order. -/
  | puntReservation (dt : Nat) (fn : Fin 2) (ring : Fin 32)
  /-- R192: the next entry of the inject ring; the bytes at its ADDR, `none` when the read fails (R376). -/
  | injectFrameRead (dt : Nat) (fn : Fin 2) (ring : Fin 32) (data : Option (List Byte))
  -- memories
  /-- R297: stack s ends training. -/
  | hbmTrainingDone (dt : Nat) (stack : Fin 4) (ok : Bool)
  /-- R298: the probe of channel c finds `dimms` DIMMs of `ranks` ranks, `gib` GiB each; `conforms` says that they meet R294 and
  `readable` that their serial presence data reads; `dense` that the devices are 32 Gb. -/
  | dimmProbeDone (dt : Nat) (c : Fin 8) (dimms : Fin 3) (ranks : Fin 3) (gib : Fin 129) (conforms readable dense : Bool)
  /-- R299: channel number: 0 to 7 XMA to XMH, 8 + 16 s + n for channel n of stack s. -/
  | retrainingPause (dt : Nat) (ch : Fin 72)
  /-- R299: `lowMargin` when the pause finds the margin below its limit. -/
  | retrainingPauseEnd (dt : Nat) (ch : Fin 72) (lowMargin : Bool)
  /-- R301: refresh unit: 0 to 31 the ranks 4 c + 2 DIMM + rank, 32 + 32 s + n for pseudo-channel n of stack s. -/
  | refreshDue (dt : Nat) (u : Fin 160)
  | refreshIssue (dt : Nat) (u : Fin 160)
  /-- R302: sensor 0 to 3 the stacks, 4 + 2 c + DIMM the DIMMs of channel c. -/
  | temperatureReading (dt : Nat) (sensor : Fin 20) (celsius : Int)
  | refreshBurstEnd (dt : Nat) (u : Fin 160)
  /-- R300. -/
  | powerDownEntry (dt : Nat) (u : Fin 160)
  /-- R307: outcome 0 good, 1 corrected, 2 uncorrectable, of unit u at `addr`, a location of `structure_` (R292 row). -/
  | memScrubRead (dt : Nat) (u : Fin 160) (addr structure_ : Nat) (outcome : Fin 3)
  -- time
  /-- R311: the error found, in quanta. -/
  | followerCheck (dt : Nat) (error : Int)
  | stepActivation (dt : Nat)
  | slewEnd (dt : Nat)
  /-- R316: an edge of PPS_IN, rising or falling. -/
  | ppsInEdge (dt : Nat) (falling : Bool)
  | ppsCorrectionDecision (dt : Nat)
  | ppsWindowEnd (dt : Nat)
  | holdoverExpiry (dt : Nat)
  | ppsOutPulse (dt : Nat)
  | ppsOutPulseEnd (dt : Nat)
  /-- R330: write of `value` to TIME_LATCH. -/
  | timeLatch (dt : Nat) (fn : Fin 2) (value : Word32)
  /-- R330: write of `value` to TIME_INIT_GO. -/
  | timeInitGo (dt : Nat) (fn : Fin 2) (value : Word32)
  -- transport
  | pmSecond (dt : Nat)
  | pmBinStart (dt : Nat)
  /-- R113: of group g, kind 0 15-minute or 1 24-hour. -/
  | pmBinClosed (dt : Nat) (g : Fin 6) (day : Bool)
  /-- R97: level: 0 to 47 the interface of framer lane n, 48 + 32 g + t the SDH frame of tributary t of group g; the offsets at
  which the pattern occurs in this frame period, each with its multiframe count. -/
  | frameAlignCheck (dt : Nat) (level : Fin 240) (hits : List (Nat × Nat))
  | lofDeclare (dt : Nat) (level : Fin 240)
  | lofClear (dt : Nat) (level : Fin 240)
  | transportFrameReceived (dt : Nat) (f : XptFrame)
  /-- R107: the next frame of the layer entity is sent. -/
  | transportFrameSend (dt : Nat) (g : Fin 6) (layer index : Nat)
  -- twin
  | lanternSend (dt : Nat)
  /-- R347: the 128-bit lantern of the twin link (`hb` false), or the 112-bit body of a frame on TWHB_P/N in the low bits. -/
  | lanternReceived (dt : Nat) (hb : Bool) (word : BitVec 128)
  | pathLost (dt : Nat) (hb : Bool)
  | twinPairReform (dt : Nat)
  | claimWaitEnd (dt : Nat) (p : Fin 2)
  /-- R346: the TWIN_LOCK input takes this level and holds it for 1 µs. -/
  | twinLockLevelChange (dt : Nat) (level : Bool)
  | lockGainStart (dt : Nat)
  | arbGrantDeassert (dt : Nat)
  | arbGrantAssert (dt : Nat)
  | syncSend (dt : Nat)
  /-- R335: the message's bytes, its type first. -/
  | syncReceived (dt : Nat) (msg : List Byte)
  | divergeTimeout (dt : Nat) (p : Fin 2)
  /-- R339: the frame sampled at the leader: its length and received FCS. -/
  | seqSampleSend (dt : Nat) (port : Fin 48)
  /-- R335, R339: the fields of the message. -/
  | seqSampleReceived (dt : Nat) (port : Byte) (len : BitVec 16) (fcs : BitVec 32) (seq : BitVec 40)
  | seqSampleDecide (dt : Nat) (port : Fin 48)
  /-- R355: the window of pair id, ingress port, partition. -/
  | dedupWindowAge (dt : Nat) (pairId : Fin 256) (inPort : Fin 256) (p : Fin 2)
  /-- R357: `pathOk` says that no test frame met an uncorrectable read on its way. -/
  | nightWatch (dt : Nat) (p : Fin 2) (pathOk : Bool)
  -- telemetry
  /-- R418: of the counter of SET, INSTANCE, ITEM; `outs` are the outcomes of reads of its backing copies (R422). -/
  | accumulatorFlush (dt : Nat) (set inst item : Nat) (outs : Fin 3 × Fin 3)
  /-- R426: sampling counter `ctr` of slice `slice` overflows; the sample describes a slot `skid` slots later, of category `cat`,
  holding `pp` or no packet. -/
  | perfSample (dt : Nat) (slice : Fin 8) (ctr : Fin 8) (skid : Fin 17) (cat : Fin 4) (pp : Option (BitVec 256))
  /-- R428: the cache entry at this record index; `evict` says that a full cache gives it up. -/
  | flowCacheWriteback (dt : Nat) (index : Fin 268435456) (evict : Bool)
  -- chip, power, sideband
  /-- R457: which reference clocks measure in range: SYS, PCIE, LN, FB. -/
  | clockCheck (dt : Nat) (sys pcie ln fb : Bool)
  /-- R443: the sixteen readings of each die in °C, `none` out of range. -/
  | thermalReading (dt : Nat) (f t : Vector (Option Int) 16)
  | throttleRelease (dt : Nat)
  | porstNAssert (dt : Nat)
  | porstNRelease (dt : Nat)
  | sysrstNAssert (dt : Nat)
  | sysrstNRelease (dt : Nat)
  | smbRegisterWrite (dt : Nat) (addr : Word32) (value : Word32)
  | smbSetReadAddress (dt : Nat) (addr : Word32)
  | smbReadResult (dt : Nat)
  /-- R63: remote fault begins (`true`) or stops. -/
  | remoteFaultReceived (dt : Nat) (port : Fin 48) (fault : Bool)
  /-- R241: an idle cell (kind 0), a credit cell or CR_UNITS (kind 1) or KEEPALIVE (kind 2), with the units it returns. -/
  | idleOrCreditCellReceived (dt : Nat) (j : Fin 26) (kind : Fin 3) (units : Nat)
  | busMasterEnable (dt : Nat) (fn : Fin 2)
  | configurationRequest (dt : Nat) (fn : Fin 2)
  /-- R434, R460: speed 1 Gen3, 2 Gen4, 3 Gen5; width 4, 8 or 16. -/
  | pcieLinkTrained (dt : Nat) (speed : Nat) (width : Nat)
  | pcieLinkDown (dt : Nat)
  /-- R362: a 32-bit write at MW4 offset `off` of the MSI-X table. -/
  | msixTableWrite (dt : Nat) (fn : Fin 2) (off : Fin 4096) (value : Word32)
  | sideEffectsStopped (dt : Nat) (p : Fin 2)
  | followerErrorCleared (dt : Nat)
  | sidebandReady (dt : Nat)
deriving DecidableEq, Repr

end Sys2Proof
end

