-- ==== Sys2Proof/Machine/Crypto.lean ====
section
/-! DEFINITION. The published functions that the spec names: AES-256 and its CMAC (R394, R399), the AES key wrap (R396),
SHA-256 (R350), CRC-32 of a frame (R81), CRC-32C (R133, R169), CRC-8 (R234) and CRC-16/CCITT-FALSE (R347). -/

namespace Sys2Proof.Machine

/-! ### CRC -/

/-- One bit of a reflected CRC register. -/
def crcStepR (poly c : Nat) : Nat := if c % 2 = 1 then (c / 2) ^^^ poly else c / 2

/-- `n` bits of a reflected CRC register. -/
def crcBitsR (poly : Nat) : Nat → Nat → Nat
  | 0, c => c
  | n + 1, c => crcBitsR poly n (crcStepR poly c)

/-- A reflected CRC over bytes, without its final XOR. -/
def crcR (poly init : Nat) (bs : List Byte) : Nat := bs.foldl (fun c b => crcBitsR poly 8 (c ^^^ b.toNat)) init

/-- One bit of a CRC register of `w` bits, most significant bit first. -/
def crcStepL (w poly c : Nat) : Nat :=
  if c.testBit (w - 1) then ((c * 2) % 2 ^ w) ^^^ poly else (c * 2) % 2 ^ w

def crcBitsL (w poly : Nat) : Nat → Nat → Nat
  | 0, c => c
  | n + 1, c => crcBitsL w poly n (crcStepL w poly c)

/-- A CRC of `w` bits over bytes, most significant bit first. -/
def crcL (w poly init : Nat) (bs : List Byte) : Nat :=
  bs.foldl (fun c b => crcBitsL w poly 8 (c ^^^ (b.toNat <<< (w - 8)))) init

/-- The Ethernet FCS of a frame's bytes, as a number whose lowest byte is sent first. -/
def fcs32 (bs : List Byte) : Nat := crcR 0xEDB88320 0xFFFFFFFF bs ^^^ 0xFFFFFFFF

/-- CRC-32C with a preset (R133, R169). -/
def crc32c (preset : Nat) (bs : List Byte) : Nat := crcR 0x82F63B78 preset bs ^^^ 0xFFFFFFFF

/-- CRC-8 of a cell header (R234). -/
def crc8 (bs : List Byte) : Nat := crcL 8 0x07 0 bs

/-- CRC-16/CCITT-FALSE (R347). -/
def crc16 (bs : List Byte) : Nat := crcL 16 0x1021 0xFFFF bs

/-! ### AES-256 -/

/-- Doubling in the field of AES. -/
def gfDouble (a : Nat) : Nat := if 128 ≤ a then ((a * 2) % 256) ^^^ 0x1B else a * 2

/-- Product in the field of AES, over the low `n` bits of `b`. -/
def gfMulN : Nat → Nat → Nat → Nat
  | 0, _, _ => 0
  | n + 1, a, b => (if b % 2 = 1 then a else 0) ^^^ gfMulN n (gfDouble a) (b / 2)

def gfMul (a b : Nat) : Nat := gfMulN 8 a b

/-- The inverse, a^254, with 0 for 0. -/
def gfInv (a : Nat) : Nat :=
  let a2 := gfMul a a
  let a3 := gfMul a2 a
  let a6 := gfMul a3 a3
  let a12 := gfMul a6 a6
  let a15 := gfMul a12 a3
  let a30 := gfMul a15 a15
  let a60 := gfMul a30 a30
  let a120 := gfMul a60 a60
  let a126 := gfMul a120 a6
  let a127 := gfMul a126 a
  gfMul a127 a127

/-- A byte rotated left. -/
def rotl8 (x n : Nat) : Nat := ((x <<< n) ||| (x >>> (8 - n))) % 256

def sBox (x : Nat) : Nat :=
  let b := gfInv x
  b ^^^ rotl8 b 1 ^^^ rotl8 b 2 ^^^ rotl8 b 3 ^^^ rotl8 b 4 ^^^ 0x63

def sBoxInv (x : Nat) : Nat := gfInv (rotl8 x 1 ^^^ rotl8 x 3 ^^^ rotl8 x 6 ^^^ 0x05)

def xorList (a b : List Nat) : List Nat := List.zipWith (· ^^^ ·) a b

/-- The next round words of the key schedule: `n` words more; the list is newest first. -/
def keySched : Nat → Nat → Nat → List (List Nat) → List (List Nat)
  | 0, _, _, ws => ws
  | n + 1, i, rc, ws =>
    let prev := ws.headD []
    let old := ws.getD 7 []
    let t := if i % 8 = 0 then
        xorList ((prev.drop 1 ++ prev.take 1).map sBox) [rc, 0, 0, 0]
      else if i % 8 = 4 then prev.map sBox else prev
    keySched n (i + 1) (if i % 8 = 0 then gfDouble rc else rc) (xorList old t :: ws)

/-- A list cut into pieces of `k`, `n` of them. -/
def chunks {α : Type} (k : Nat) : Nat → List α → List (List α)
  | 0, _ => []
  | n + 1, l => l.take k :: chunks k n (l.drop k)

/-- The fifteen round keys of a 32-byte key. -/
def roundKeys (key : List Nat) : List (List Nat) :=
  chunks 16 15 ((keySched 52 8 1 (chunks 4 8 key).reverse).reverse.flatten)

def shiftRows (st : List Nat) : List Nat := (List.range 16).map fun i => st.getD ((i + 4 * (i % 4)) % 16) 0
def shiftRowsInv (st : List Nat) : List Nat := (List.range 16).map fun i => st.getD ((i + 12 * (i % 4)) % 16) 0

/-- One output byte of a column, with the row of the mixing matrix rotated to place `r`. -/
def mixByte (m : List Nat) (col : List Nat) (r : Nat) : Nat :=
  gfMul (m.getD ((4 - r) % 4) 0) (col.getD 0 0) ^^^ gfMul (m.getD ((5 - r) % 4) 0) (col.getD 1 0)
    ^^^ gfMul (m.getD ((6 - r) % 4) 0) (col.getD 2 0) ^^^ gfMul (m.getD ((7 - r) % 4) 0) (col.getD 3 0)

def mixCols (m : List Nat) (st : List Nat) : List Nat :=
  ((chunks 4 4 st).map fun c => (List.range 4).map (mixByte m c)).flatten

/-- Rounds over the remaining round keys; the last has no column mixing. -/
def aesRounds : List (List Nat) → List Nat → List Nat
  | [], st => st
  | [k], st => xorList (shiftRows (st.map sBox)) k
  | k :: ks, st => aesRounds ks (xorList (mixCols [2, 3, 1, 1] (shiftRows (st.map sBox))) k)

def aesEncNat (key block : List Nat) : List Nat :=
  match roundKeys key with
  | [] => block
  | k :: ks => aesRounds ks (xorList block k)

/-- Inverse rounds over the round keys, last first. -/
def aesRoundsInv : List (List Nat) → List Nat → List Nat
  | [], st => st
  | [k], st => xorList ((shiftRowsInv st).map sBoxInv) k
  | k :: ks, st => aesRoundsInv ks (mixCols [14, 11, 13, 9] (xorList ((shiftRowsInv st).map sBoxInv) k))

def aesDecNat (key block : List Nat) : List Nat :=
  match (roundKeys key).reverse with
  | [] => block
  | k :: ks => aesRoundsInv ks (xorList block k)

def natBytes (bs : List Byte) : List Nat := bs.map (·.toNat)
def byteList (ns : List Nat) : List Byte := ns.map (BitVec.ofNat 8)

/-- AES-256 of one 16-byte block. -/
def aesEnc (key block : List Byte) : List Byte := byteList (aesEncNat (natBytes key) (natBytes block))
def aesDec (key block : List Byte) : List Byte := byteList (aesDecNat (natBytes key) (natBytes block))

/-! ### CMAC (RFC 4493) -/

def zero16 : List Byte := List.replicate 16 0

def xorBytes (a b : List Byte) : List Byte := List.zipWith (· ^^^ ·) a b

/-- Doubling in the field of CMAC. -/
def cmacDouble (b : List Byte) : List Byte :=
  let x := beNat b
  beBytes 16 (if x.testBit 127 then ((x * 2) % 2 ^ 128) ^^^ 0x87 else x * 2)

/-- CBC over the blocks of a message whose last block has been masked. -/
def cbcMac (key : List Byte) : List (List Byte) → List Byte → List Byte
  | [], c => c
  | b :: bs, c => cbcMac key bs (aesEnc key (xorBytes c b))

/-- AES-256-CMAC of a message. -/
def cmac (key msg : List Byte) : List Byte :=
  let k1 := cmacDouble (aesEnc key zero16)
  let n := max 1 (ceilDiv msg.length 16)
  let bs := chunks 16 n msg
  let last := bs.getLastD []
  let last' := if last.length = 16 then xorBytes last k1
    else xorBytes (last ++ (0x80 : Byte) :: List.replicate (15 - last.length) 0) (cmacDouble k1)
  cbcMac key (bs.dropLast ++ [last']) zero16

/-! ### Key wrap (RFC 3394) -/

/-- One inverse step: A, the remaining blocks and the step number. -/
def unwrapStep (kek : List Byte) (n t : Nat) (st : List Byte × List (List Byte)) : List Byte × List (List Byte) :=
  let i := (t - 1) % n
  let a := xorBytes st.1 (beBytes 8 t)
  let b := aesDec kek (a ++ st.2.getD i [])
  (b.take 8, st.2.set i (b.drop 8))

def unwrapSteps (kek : List Byte) (n : Nat) : Nat → List Byte × List (List Byte) → List Byte × List (List Byte)
  | 0, st => st
  | t + 1, st => unwrapSteps kek n t (unwrapStep kek n (t + 1) st)

/-- Unwrap 40 bytes to a 32-byte key; `none` when the integrity check fails (R396). -/
def keyUnwrap (kek wrapped : List Byte) : Option (List Byte) :=
  let r := unwrapSteps kek 4 24 (wrapped.take 8, chunks 8 4 (wrapped.drop 8))
  if r.1 = List.replicate 8 (0xA6 : Byte) then some r.2.flatten else none

/-! ### SHA-256 -/

def shaK0 : List Nat := [0x428a2f98, 0x71374491, 0xb5c0fbcf, 0xe9b5dba5, 0x3956c25b, 0x59f111f1, 0x923f82a4, 0xab1c5ed5]
def shaK1 : List Nat := [0xd807aa98, 0x12835b01, 0x243185be, 0x550c7dc3, 0x72be5d74, 0x80deb1fe, 0x9bdc06a7, 0xc19bf174]
def shaK2 : List Nat := [0xe49b69c1, 0xefbe4786, 0x0fc19dc6, 0x240ca1cc, 0x2de92c6f, 0x4a7484aa, 0x5cb0a9dc, 0x76f988da]
def shaK3 : List Nat := [0x983e5152, 0xa831c66d, 0xb00327c8, 0xbf597fc7, 0xc6e00bf3, 0xd5a79147, 0x06ca6351, 0x14292967]
def shaK4 : List Nat := [0x27b70a85, 0x2e1b2138, 0x4d2c6dfc, 0x53380d13, 0x650a7354, 0x766a0abb, 0x81c2c92e, 0x92722c85]
def shaK5 : List Nat := [0xa2bfe8a1, 0xa81a664b, 0xc24b8b70, 0xc76c51a3, 0xd192e819, 0xd6990624, 0xf40e3585, 0x106aa070]
def shaK6 : List Nat := [0x19a4c116, 0x1e376c08, 0x2748774c, 0x34b0bcb5, 0x391c0cb3, 0x4ed8aa4a, 0x5b9cca4f, 0x682e6ff3]
def shaK7 : List Nat := [0x748f82ee, 0x78a5636f, 0x84c87814, 0x8cc70208, 0x90befffa, 0xa4506ceb, 0xbef9a3f7, 0xc67178f2]

def shaK : List Nat := shaK0 ++ shaK1 ++ shaK2 ++ shaK3 ++ shaK4 ++ shaK5 ++ shaK6 ++ shaK7

def shaInit : List Nat := [0x6a09e667, 0xbb67ae85, 0x3c6ef372, 0xa54ff53a, 0x510e527f, 0x9b05688c, 0x1f83d9ab, 0x5be0cd19]

def rotr32 (x n : Nat) : Nat := ((x >>> n) ||| (x <<< (32 - n))) % 2 ^ 32

/-- The message schedule: `n` words more; the list is newest first. -/
def shaSched : Nat → List Nat → List Nat
  | 0, ws => ws
  | n + 1, ws =>
    let w2 := ws.getD 1 0
    let w7 := ws.getD 6 0
    let w15 := ws.getD 14 0
    let w16 := ws.getD 15 0
    let s0 := rotr32 w15 7 ^^^ rotr32 w15 18 ^^^ (w15 >>> 3)
    let s1 := rotr32 w2 17 ^^^ rotr32 w2 19 ^^^ (w2 >>> 10)
    shaSched n ((w16 + s0 + w7 + s1) % 2 ^ 32 :: ws)

/-- One round on the eight working words. -/
def shaRound (v : List Nat) (kw : Nat) : List Nat :=
  let a := v.getD 0 0
  let b := v.getD 1 0
  let c := v.getD 2 0
  let d := v.getD 3 0
  let e := v.getD 4 0
  let f := v.getD 5 0
  let g := v.getD 6 0
  let h := v.getD 7 0
  let s1 := rotr32 e 6 ^^^ rotr32 e 11 ^^^ rotr32 e 25
  let ch := (e &&& f) ^^^ ((0xFFFFFFFF ^^^ e) &&& g)
  let t1 := h + s1 + ch + kw
  let s0 := rotr32 a 2 ^^^ rotr32 a 13 ^^^ rotr32 a 22
  let mj := (a &&& b) ^^^ (a &&& c) ^^^ (b &&& c)
  [(t1 + s0 + mj) % 2 ^ 32, a, b, c, (d + t1) % 2 ^ 32, e, f, g]

def shaBlock (hs : List Nat) (block : List Byte) : List Nat :=
  let w := (shaSched 48 ((chunks 4 16 block).map beNat).reverse).reverse
  let v := (List.zipWith (fun k x => (k + x) % 2 ^ 32) shaK w).foldl shaRound hs
  List.zipWith (fun x y => (x + y) % 2 ^ 32) hs v

/-- SHA-256 of a byte string, 32 bytes. -/
def sha256 (msg : List Byte) : List Byte :=
  let pad := (119 - msg.length % 64) % 64
  let m := msg ++ (0x80 : Byte) :: List.replicate pad 0 ++ beBytes 8 (msg.length * 8)
  ((chunks 64 (m.length / 64) m).foldl shaBlock shaInit).flatMap (beBytes 4)

end Sys2Proof.Machine
end

