-- ==== Sys2Proof/Config.lean ====
section
/-! DEFINITION. What one part has fused or draws at random, and the values that the spec leaves open. Each is a constant
without a body, so that nothing can be proved from a value of it. -/

namespace Sys2Proof.Config

/-- SEC_SERIAL, fused (R415). -/
opaque serial : BitVec 64

/-- SEC_NONCE drawn at the n-th reset from the hardware random source (R400). -/
opaque nonce : Nat → BitVec 64

/-- Which free room an allocation receives: R205 fixes how many, never which (DESIGN CHOICE, log 8). -/
opaque freeRoom : Nat → Nat

/-- Which free page a spill receives (R211 does not say; log 8). -/
opaque freePage : Nat → Nat

/-- The hash that decides whether a discarded frame is captured (R427 names its inputs and its probability, not the
function; log 9): sequence, timestamp quanta, RATE_LOG2. -/
opaque captureHash : Nat → Nat → Nat → Bool

/-- How many Caravan copies the device has descriptors for (R257; the spec gives the 10 GiB of R292 for chain records and packet
descriptors together and no number; log 52). -/
opaque copyDescriptors : Nat

/-- First page of a DDR-5 channel's spill area: R210 gives the sizes of the regions and not their order in a channel (log 116). -/
opaque spillBase : Nat → Nat

/-- Places of the two copies of a statistics word: R292 fixes the stack pair and that the channels differ (log 117). -/
opaque statPlace : Nat → Nat → Nat

/-- Bits that the FEC, pads and idle of the line leave open are no state here; the residual value that a value the spec
never states takes (log 11). -/
opaque openValue : Nat → Nat

/-- The byte string of one element of a configuration digest (R350): of its code, its index or key and its content. R350 gives
the order of the three and not the widths of the second and third (log 14). -/
opaque digestBytes : Nat → Nat → List Nat → List Byte

end Sys2Proof.Config
end

