-- ==== Sys2Proof/Machine/State.lean ====
section
/-! DEFINITION. The state of the block: every register, queue, buffer, counter, mode and pin of the spec, as plain data;
the reasons a step can stop; the state after reset. Tables with an index are `NMap`s: sorted lists of the entries that
differ from the table's reset entry. -/

namespace Sys2Proof.Machine

/-- A table by natural key: keys strictly rising, no entry equal to the table's default. -/
abbrev NMap (α : Type) := List (Nat × α)

/-- The reasons for which a step would stop with a fault. No meaning of this model raises one: every row of the table
has its effect, or leaves the state as the spec says (safe). -/
inductive Fault where
  /-- Reserved for a broken invariant of the model; raised by nothing. -/
  | internal
deriving DecidableEq, Repr

/-- The reasons for which a command would be turned down. -/
inductive Refusal where
  /-- No meaning yet; raised by an arm of `exec` only. Safe. -/
  | notModelled (mnemonic : String)
deriving DecidableEq, Repr

/-! ### Packets -/

/-- The passport (R28), one field each. -/
structure Passport where
  version : Nat := 1
  kind : Nat := 0
  epoch : Nat := 0
  colour : Nat := 0
  de : Bool := false
  ecn : Nat := 0
  tc : Nat := 0
  dclass : Nat := 0
  queue : Nat := 0
  /-- Kind other than multicast: port [7:0], endpoint [19:8]; multicast: group (R28). -/
  dest : Nat := 0
  length : Nat := 0
  inPort : Nat := 0
  pairId : Nat := 0
  claim : Nat := 0
  seq : Nat := 0
  hash : Nat := 0
  tns : Nat := 0
  tsec : Nat := 0
  edit : Nat := 0
deriving DecidableEq, Repr

/-- The ingress sideband (R180). -/
structure Sideband where
  polEn : Bool := false
  policer : Nat := 0
  mirrorEn : Bool := false
  mirrorSession : Nat := 0
  copy : Bool := false
  puntCode : Nat := 0
deriving DecidableEq, Repr

/-- How a packet leaves its input of the switch core: by its passport, to the endpoint of a first-stage copy (R196), to the Byway punt
output with a reason and a code (R185, R186), or to the twin transmit output (R356). -/
inductive Via where
  | passport
  | endpoint (ep : Nat)
  | host (reason code : Nat)
  | twin
deriving DecidableEq, Repr

/-- What the ACT registers held when the packet entered the parser (R200): the three words of its mirror session, and
ACT_PUNT_MAP of MIRROR and of ACTION_COPY. -/
structure Acts where
  mir0 : Nat := 0
  mir1 : Nat := 0
  mir2 : Nat := 0
  mapMirror : Nat := 0
  mapCopy : Nat := 0
deriving DecidableEq, Repr

/-- A packet on its way: passport, frame bytes with FCS, sideband, the partition that owns it and its epoch's commit index. -/
structure Pkt where
  pp : Passport := {}
  data : List Byte := []
  sb : Sideband := {}
  /-- Commit index of the epoch that it holds a reference to (R145). -/
  ep : Nat := 0
  /-- Partition whose epoch it is (R50). -/
  part : Nat := 0
  /-- Device time of arrival at the ingress device in quanta, when this device stamped it. -/
  arrived : Nat := 0
  /-- A multicast copy of Caravan's second stage (R197). -/
  mcopy : Bool := false
  /-- The frame has no L2 header: it was decapsulated to L3 (R181). -/
  noL2 : Bool := false
  /-- Offset and version of the IP header on which the editor acts (R179, R184). -/
  ip : Option (Nat × Nat) := none
  /-- Link group and credit units of its cells, while it is in a reassembly buffer (R241). -/
  rxLink : Nat := 0
  rxUnits : Nat := 0
  /-- It came over an FB link group. -/
  viaFb : Bool := false
  /-- Modes that were ON when its first byte entered the parser, by their places (R40). -/
  modes : Nat := 0
  acts : Acts := {}
  via : Via := .passport
  /-- It waits in its input for Caravan's first stage (R196). -/
  first : Bool := false
  /-- Copies and their source at one input hold its space once; 0 for a packet on its own (R220). -/
  grp : Nat := 0
deriving DecidableEq, Repr

/-! ### Host interface -/

/-- State of a ring (R368). -/
inductive RingSt where
  | disabled | running | fenced | stopping
deriving DecidableEq, Repr

/-- A fetched command descriptor (R372) with its authentication extension (R373). -/
structure Desc where
  raw : BitVec 512
  ext : Option (BitVec 512) := none
deriving DecidableEq, Repr

/-- A completion entry (R379), with the response that was written at RESP_ADDR before it (R374, R376). -/
structure Comp where
  seq : Nat
  status : Nat
  authed : Bool
  opcode : Nat
  cookie : Nat
  detail : Nat := 0
  result : Nat := 0
  timeS : Nat := 0
  timeNs : Nat := 0
  phase : Nat := 1
  respAddr : Nat := 0
  resp : List Byte := []
deriving DecidableEq, Repr

/-- An event record (R386). -/
structure Evt where
  kind : Nat := 1
  source : Nat := 0
  event : Nat := 0
  st : Bool := true
  fatal : Bool := false
  phase : Nat := 1
  timeS : Nat := 0
  timeNs : Nat := 0
  timeFrac : Nat := 0
  inst : Nat := 0
  payload : Nat := 0
deriving DecidableEq, Repr

/-- What a command in execution waits for (each in its owning chapter). -/
inductive Wait where
  /-- SET_MODE or PART_ASSIGN behind another transition (R38); `part` tells PART_ASSIGN. -/
  | modeTurn (part : Bool) (word : Nat)
  /-- SET_MODE until its modes are in their states (R37). -/
  | modeDone
  /-- POWER_DOMAIN_ON or OFF of KIND, INDEX, until the transition with this number has ended (R413, R441). -/
  | power (kind index turn : Nat)
  /-- GATE_LIST_SET behind the port's pending list (R288). -/
  | gateTurn (port : Nat)
  /-- GATE_LIST_SET until its list starts (R263, R288). -/
  | gateStart (port : Nat)
  /-- A command that passes R261 once held capacity is free (R262). -/
  | capacity
  /-- EPOCH_COMMIT: claimed commit index, if any; cycle at which it began to wait for the limit; EPOCH_STALL raised (R143). -/
  | commit (claim : Option Nat) (order : Nat) (since : Option Nat) (stalled : Bool)
  /-- MEM_TRAIN of these channels (R298). -/
  | memTrain (mask : Nat)
  /-- INN_AUDIT (R209). -/
  | audit
  /-- MCAST_GROUP_WRITE until the replications of the old entry end: those of these chains (R195). -/
  | mcast (group old : Nat) (chains : List Nat)
  /-- TIME_ADJUST until its step activates (R315). -/
  | timeStep
  /-- TWIN_CLAIM until side effects start (R348). -/
  | twinClaim
  /-- TWIN_RELEASE until side effects stop (R344). -/
  | twinRelease
  /-- ABORT of FUNC, INDEX (R411). -/
  | abort (func index : Nat)
  /-- TABLE_WRITE until its rows have moved, with the epoch in which it stages and its place among commands that began (R143, R161). -/
  | tcamMove (bank epoch order : Nat)
  /-- EPOCH_DISCARD until the writes that began before it have completed (R149). -/
  | discard (order : Nat)
  /-- DUPLICATE until the original completes (R402). -/
  | duplicate (slot counter tag : Nat)
deriving DecidableEq, Repr

/-- A command in execution that has not completed (R374). -/
structure Running where
  desc : Desc
  seq : Nat
  authed : Bool := false
  /-- Replay-window entry that takes the final status: slot, counter, tag (R402). -/
  slot : Option (Nat × Nat × Nat) := none
  /-- The payload, for a command that starts again when its wait ends. -/
  payload : Nat := 0
  payloadLen : Nat := 0
  wait : Wait
  /-- Entries of the batch already carried out, and their responses (R377). -/
  doneEntries : Nat := 0
  resp : List Byte := []
deriving DecidableEq, Repr

/-- One ring of a function: the record of R368 and what the device keeps for the ring. -/
structure Ring where
  base : BitVec 64 := 0
  intEn : Bool := false
  log2 : Nat := 6
  bufCode : Nat := 0
  vector : Nat := 0
  modUs : Nat := 0
  st : RingSt := .disabled
  err : Nat := 0
  devIndex : Nat := 0
  hostIndex : Nat := 0
  progSeq : Nat := 0
  progStatus : Nat := 0
  progTick : Nat := 0
  /-- Command rings: descriptors covered by a doorbell and not begun. -/
  fetched : List Desc := []
  /-- An authenticated descriptor whose extension no doorbell has covered yet (R373). -/
  partialDesc : Option (BitVec 512) := none
  running : Option Running := none
  lastSeq : Option Nat := none
  accepted : Nat := 0
  /-- Outcomes of the last 1,024 accepted commands, newest first: SEQ, status, DETAIL, RESULT (R375). -/
  history : List (Nat × Nat × Nat × Nat) := []
  /-- A failed descriptor read has stopped the ring's fetching (R376). -/
  fetchStop : Bool := false
  fenceSeq : Nat := 0
  fenceStatus : Nat := 0
  /-- Commands completed ABORTED by the abort in progress (R411). -/
  abortCount : Nat := 0
  /-- Completion rings: entries written and not consumed, oldest first; and completions held (R379). -/
  comps : List Comp := []
  held : List Comp := []
  /-- Event rings: entries written and not consumed; records held; first discarded record and the count (R388). -/
  evts : List Evt := []
  heldEvts : List Evt := []
  discard : Option (Evt × Nat) := none
  /-- This ring's failure has been raised and its marker not yet written (R389). -/
  ringFail : Bool := false
  /-- Cycle of the first entry not yet signalled (R371). -/
  unsignalled : Option Nat := none
  /-- Punt rings: addresses of posted buffers, oldest first; descriptors written back, with the bytes (R390). -/
  posted : List (BitVec 64) := []
  puntOut : List (Nat × List Byte) := []
  dropsBefore : Nat := 0
  shortSince : Nat := 0
  shortLast : Option Nat := none
  /-- Inject rings: covered entries not yet read; entries written back, with STATUS and DONE (R391). -/
  injects : List (BitVec 256) := []
  injectOut : List (BitVec 256) := []
deriving DecidableEq, Repr

/-- One MSI-X table entry (R362). -/
structure Msix where
  addr : BitVec 64 := 0
  data : BitVec 32 := 0
  masked : Bool := true
  pending : Bool := false
  /-- Messages sent, an output of the block. -/
  sent : Nat := 0
deriving DecidableEq, Repr

/-- One physical function (R362 to R365, R388, R389). -/
structure Func where
  offer : Nat := 0
  chosen : Nat := 0
  busMaster : Bool := false
  fatalVec : Nat := 0
  evtRoute : NMap Nat := []
  rings : NMap Ring := []
  msix : NMap Msix := []
  /-- HIF_ABORT_STATUS and the abort in progress (R412). -/
  abortBusy : Option (Nat × Nat) := none
  abortStatus : Nat := 0
  abortCount : Nat := 0
deriving DecidableEq, Repr

/-- An abort in progress: function that named it, FUNC, INDEX, commands completed ABORTED so far (R411). -/
structure AbortOp where
  fn : Nat
  func : Nat
  index : Nat
  count : Nat := 0
deriving DecidableEq, Repr

/-- The identity values of a function's configuration space (R454). -/
structure CfgId where
  vendor : Nat := 0x1F3A
  device : Nat := 0x4880
  revision : Nat := 0x10
  classCode : Nat := 0x028000
  subsysVendor : Nat := 0
  subsysId : Nat := 0
  multiFunction : Bool := true
deriving DecidableEq, Repr

/-- The host interface and the PCIe link. -/
structure HostIf where
  fns : NMap Func := []
  aborts : List AbortOp := []
  linkUp : Bool := false
  speed : Nat := 0
  width : Nat := 0
  /-- SMB_SUBSYS has reached configuration space (R461). -/
  subsysTaken : Bool := false
  /-- The value of SMB_SUBSYS that configuration space holds (R454, R461). -/
  subsys : Nat := 0
  /-- Identity that the last configuration request found, an output of the block (R454). -/
  cfgOut : CfgId := {}
deriving DecidableEq, Repr

/-! ### Security -/

/-- One entry of a slot's replay window (R402): `done` when the command has completed. -/
structure WinEntry where
  counter : Nat
  tag : Nat
  status : Nat := 0
  result : Nat := 0
  done : Bool := false
deriving DecidableEq, Repr

/-- One key slot (R395). -/
structure Slot where
  key : Option (List Byte) := none
  last : Nat := 0
  window : List WinEntry := []
deriving DecidableEq, Repr

/-- SEC block: 0 BLANK, 1 BURNING, 2 BURNT, 3 FAILED (R415). -/
structure Sec where
  kek : List Byte := []
  fuseState : Nat := 0
  kekData : NMap (BitVec 32) := []
  nonce : BitVec 64 := Config.nonce 0
  slots : NMap Slot := []
  commitAuthA : Bool := false
  commitAuthB : Bool := false
  burnStart : Nat := 0
deriving DecidableEq, Repr

/-! ### Modes, power, chip -/

/-- The four states of every switchable function (R36, R73, R438). -/
inductive OnOff where
  | off | starting | on | quiescing
deriving DecidableEq, Repr

/-- One mode's state and the cycle of its last change (R36). -/
structure ModeSt where
  st : OnOff := .off
  since : Nat := 0
deriving DecidableEq, Repr

/-- The mode machinery (R31 to R40). -/
structure Modes where
  states : NMap ModeSt := []
  applied : Bool := false
  lastStatus : Nat := 0
  /-- The mode word in force. -/
  word : Nat := 0
  /-- The lane split in force: B_GROUPS. -/
  split : Nat := 0x38
  /-- Transitions still to run: mode and direction, in R37's order; the first is in progress. -/
  plan : List (Mode × Bool) := []
  /-- The ring whose SET_MODE owns the plan; none for MODE_APPLY or an aborted ring. -/
  owner : Option (Nat × Nat) := none
  /-- A PARTITION transition waits for R151. -/
  partWait : Bool := false
  /-- A MODE_APPLY waits for a SET_MODE in progress (R38). -/
  applyWait : Bool := false
  /-- Device time at which the word in force passed its checks (R45). -/
  passedAt : Nat := 0
  /-- Some queue held a cellar page as CELLAR's transition entered QUIESCING (R39). -/
  pageDrain : Bool := false
deriving DecidableEq, Repr

/-- One power domain, or lane group (R413, R438). -/
structure Domain where
  st : OnOff := .off
  /-- Enables (`true`) and disables still to take effect, in order (R413). -/
  todo : List Bool := []
  /-- Transitions begun since the reset. -/
  turn : Nat := 0
  dropped : Nat := 0
  /-- Cycle at which QUIESCING began. -/
  since : Nat := 0
deriving DecidableEq, Repr

/-- Thermal control (R443, R444): 0 NORMAL, 1 THROTTLE, 2 SHUTDOWN. -/
structure Thermal where
  st : Nat := 0
  tempF : Int := 0
  tempT : Int := 0
  /-- Consecutive out-of-range readings per sensor, 3 excludes it. -/
  bad : NMap Nat := []
  excluded : NMap Bool := []
  warned : Bool := false
  /-- Cycle of the last reading of 95 °C or more. -/
  hotAt : Nat := 0
  /-- Every sensor of a die is excluded: THROTTLE until PORST_N. -/
  stuck : Bool := false
  /-- Cycle of the last reading (R443). -/
  readAt : Nat := 0
deriving DecidableEq, Repr

/-- Chip, pins, sideband and power. -/
structure Chip where
  /-- STEPPING: 1 on B0, 0 on A0 (R3). -/
  stepping : Nat := 1
  porst : Bool := true
  sysrst : Bool := true
  d2dFails : Nat := 0
  d2dDown : Bool := false
  sysOk : Bool := false
  pcieOk : Bool := false
  lnOk : Bool := false
  fbOk : Bool := false
  domains : NMap Domain := []
  groups : NMap Domain := []
  thermal : Thermal := {}
  /-- Sideband: answering, read address, status of the last transaction (R458). -/
  sbReady : Bool := false
  sbAddr : Option (BitVec 32) := none
  sbStatus : Option Nat := none
  /-- Bytes that the last 0xA2 returned: status, data. -/
  sbOut : Nat × BitVec 32 := (0, 0)
  /-- Data that the last refused or carried-out MW0 read returned. -/
  mw0Read : BitVec 32 := 0
  /-- Cycle of the last clock measurement (R457). -/
  clkAt : Nat := 0
  /-- MODE_STATUS as it stood at SHUTDOWN (R446, R459). -/
  shutModes : Nat := 0
  /-- Resets seen, for the nonce. -/
  resets : Nat := 0
deriving DecidableEq, Repr

/-! ### Lanes, ports, MAC -/

/-- Line lane states (R65). -/
inductive LaneSt where
  | off | txOn | rxSignal | rxAdapt | rxLock | pcsUp | prbs
deriving DecidableEq, Repr

/-- LANE_CFG and LANE_TXEQ of a line lane as they act, taken over at the group's STARTING (R73, R74): LOOPBACK 0 none, 1 near-end, 2
far-end; `main` is reduced to fit. -/
structure Drive where
  txInvert : Bool := false
  rxInvert : Bool := false
  loopback : Nat := 0
  pre : Nat := 4
  main : Nat := 0x34
  post : Nat := 7
deriving DecidableEq, Repr

/-- A pause or PFC frame that the MAC sent (R85): PFC or 802.3 pause, the enable vector of a PFC frame, the quanta of its classes. -/
structure PauseFrame where
  pfc : Bool
  enable : Nat
  quanta : Nat
deriving DecidableEq, Repr

/-- One SerDes lane (R65, R74); lanes are numbered as their domains. -/
structure Lane where
  st : LaneSt := .off
  noPartner : Bool := false
  noLock : Bool := false
  rate : Nat := 0
  typ : Nat := 0
  prbsLock : Bool := false
  attempts : Nat := 0
  /-- Cycle of entry into the state. -/
  since : Nat := 0
  drive : Drive := {}
deriving DecidableEq, Repr

/-- One port: line ports 0 to 47; 48 + j the lanes of link group j (R228). -/
structure Port where
  /-- Port type code in use, after ladder steps; 0 no port. -/
  typ : Nat := 0
  /-- The attempt in progress began at this cycle (R67). -/
  attempt : Option Nat := none
  /-- Some lane has reached RX_ADAPT during it. -/
  adapted : Bool := false
  /-- The last attempt failed at this cycle (R68). -/
  failedAt : Option Nat := none
  /-- Consecutive NO_LOCK failures at the current type (R70). -/
  noLockRun : Nat := 0
  blocked : Bool := false
  remoteFault : Bool := false
  /-- Cycle and device time at which the port left PCS_UP, R260; none while up or never up. -/
  downAt : Option (Nat × Nat) := none
  /-- T_frame when it left (R260), in quanta. -/
  downFrame : Nat := 0
  /-- MAX_FRAME in force since the group's STARTING (R86). -/
  maxFrame : Nat := 0x2400
  /-- Pauses received: key 8 the 802.3 pause, i the PFC priority; cycles at which it takes effect and ends (R83). -/
  pauses : NMap (Nat × Nat) := []
  /-- Start in device time of the HONOR interval reported for each pause (R84), by the same keys. -/
  honorFrom : NMap Nat := []
  /-- Cycle of the last interim LEDGER_EXTENDED of each pause; key 9 the down interval (R259). -/
  interimAt : NMap Nat := []
  /-- A pause with quanta 0xFFFF is out since this cycle (R85). -/
  xoffSent : Option Nat := none
  /-- Last pause or PFC frame sent, an output of the block (R85). -/
  pauseOut : Option PauseFrame := none
  /-- Frames sent under near-end loopback that the port has not yet received, oldest first (R74). -/
  looped : List (List Byte) := []
  /-- Sequence counter, 40 bits (R337). -/
  seq : Nat := 0
  /-- 0 SEARCH, 1 CONFIRM, 2 ALIGNED, with the difference of CONFIRM (R338, R339). -/
  seqSt : Nat := 0
  seqD : Nat := 0
  /-- Frames of the last 256 µs: length, FCS, number, cycle (R339). -/
  seqHist : List (Nat × Nat × Nat × Nat) := []
  /-- Samples to decide: length, FCS, SEQ, cycle of receipt. -/
  samples : List (Nat × Nat × Nat × Nat) := []
  /-- Cycle of the last sample sent as leader (R339). -/
  sampleAt : Nat := 0
deriving DecidableEq, Repr

/-! ### Transport -/

/-- One alignment level (R97 to R99): candidates hold offset, count and last multiframe count. -/
structure Align where
  inFrame : Bool := false
  cands : List (Nat × Nat × Nat) := []
  locked : Nat := 0
  lastMf : Nat := 0
  misses : Nat := 0
  lof : Bool := false
  /-- Cycle of entry into SEARCH or IN_FRAME. -/
  since : Nat := 0
deriving DecidableEq, Repr

/-- A performance bin record's counts (R115). -/
structure Bin where
  start : Nat := 0
  day : Bool := false
  suspect : Bool := false
  unaligned : Bool := false
  ended : Bool := false
  final : Bool := false
  /-- End of the bin in seconds, known when the record closes or a backward STEP holds it open. -/
  endS : Nat := 0
  /-- A backward STEP found the record open: it ends at `endS` (R114). -/
  rewound : Bool := false
  neBbe : Nat := 0
  neEs : Nat := 0
  neSes : Nat := 0
  neUas : Nat := 0
  feBbe : Nat := 0
  feEs : Nat := 0
  feSes : Nat := 0
  feUas : Nat := 0
  pjePos : Nat := 0
  pjeNeg : Nat := 0
deriving DecidableEq, Repr

/-- A value that is accepted once enough frames in a row have carried it: last value, its run, and the accepted value (G.798, G.783). -/
structure Accept where
  val : Nat := 0
  run : Nat := 0
  acc : Nat := 0
deriving DecidableEq, Repr

/-- The AU-4 pointer interpreter of a member VC-4 (R100): state 0 normal, 1 AIS, 2 LOP; the pointer value in force; frames since it
last moved; runs of invalid pointers, of new data flags and of AIS; and the new value that a run of pointers proposes. -/
structure Ptr where
  st : Nat := 0
  val : Nat := 0
  since : Nat := 3
  inv : Nat := 0
  ndf : Nat := 0
  ais : Nat := 0
  fresh : Nat × Nat := (0, 0)
deriving DecidableEq, Repr

/-- A second that is not yet decided to be available or not (R111): errored blocks, severe, and the starts of the 15-minute and
24-hour records to which it belongs. -/
structure PendSec where
  errs : Nat
  ses : Bool
  at15 : Nat
  at24 : Nat
deriving DecidableEq, Repr

/-- The frame of an entity that was sent last, an output of the block (R89, R101, R107, R110). -/
structure XptOut where
  /-- Trail trace identifier; TCM, GCC, APS/PCC and DCC fields, sent as 0. -/
  tti : Nat := 0
  tcm : Nat := 0
  gcc : Nat := 0
  aps : Nat := 0
  dcc : Nat := 0
  /-- STAT of an ODU: 1 normal, 6 OCI; payload type; signal label of a VC-4, 0 unequipped. -/
  stat : Nat := 0
  pt : Nat := 0
  label : Nat := 0
  /-- Multiplex structure identifier: each slot allocated or not, with its tributary port number. -/
  msi : List (Bool × Nat) := []
  /-- Justification: GMP control bytes of Cm, AMP control; AU-4 pointer word; multiframe indicator. -/
  gmpJc : List Byte := []
  ampJc : Nat := 0
  ptr : Nat := 0
  mfi : Nat := 0
  /-- Payload bytes of a member VC-4 or of a kind-2 client's concatenated container; 66-bit blocks of a kind-1 client. -/
  payload : List Byte := []
  blocks : List Nat := []
deriving DecidableEq, Repr

/-- One monitored transport entity (R106 to R115). -/
structure XEnt where
  /-- Defect bits in force: 0 OTUCn skew, 1 AIS, OCI or LCK, 2 LOP, 3 PLM, 4 loss of multiframe indicator alignment, 5 delineation
  lost, 6 differential delay, 7 multiplex structure identifier mismatch. -/
  defects : Nat := 0
  cm : Nat := 0
  /-- AMP justification control in force (R100). -/
  amp : Nat := 0
  /-- Parities computed over received frames, to be compared with fields that later frames carry, oldest first (R106). -/
  parity : List (List Byte) := []
  /-- STAT, or bits 6 to 8 of K2; received payload type (256 none yet); received far-end defect indication. -/
  status : Accept := {}
  pt : Accept := { acc := 256 }
  far : Accept := {}
  ptr : Ptr := {}
  /-- Multiframe indicator received last, and that it followed the one before (R103). -/
  mfi : Option (Nat × Bool) := none
  /-- Frames of a member VC-4 in its delay buffer, oldest first: multiframe indicator, cycle of arrival, payload (R103, R104). -/
  delayed : List (Nat × Nat × List Byte) := []
  /-- Transmit buffer fill: what has come in and not been taken by Cm, in parts of the rate's denominator (R101). -/
  txFill : Nat := 0
  txCm : Nat := 0
  out : XptOut := {}
  /-- Violations of received frames whose far-end field has not been sent, oldest first (R107). -/
  beiPending : List Nat := []
  /-- This second's errored blocks, near and far, and far-end defect (R111). -/
  secNe : Nat := 0
  secFe : Nat := 0
  secFeDef : Bool := false
  secPos : Nat := 0
  secNeg : Nat := 0
  /-- Frames of this second; a defect has been present in it. -/
  secFrames : Nat := 0
  secDef : Bool := false
  /-- Seconds not yet decided, oldest first; and unavailability, near and far. -/
  nePend : List PendSec := []
  fePend : List PendSec := []
  neUn : Bool := false
  feUn : Bool := false
  cur15 : Option Bin := none
  cur24 : Option Bin := none
  /-- Closed records, newest first (R115). -/
  hist15 : List Bin := []
  hist24 : List Bin := []
  ttiSent : Nat := 0
  ttiRecv : Nat := 0
  /-- Frames sent, and the last far-end fields sent: BEI, BDI (R107). -/
  sent : Nat := 0
  lastBei : Nat := 0
  lastBdi : Bool := false
deriving DecidableEq, Repr

/-- GFP-F delineation of a client (R109): 0 HUNT, 1 PRESYNC, 2 SYNC; bytes not yet delineated; the payload descrambler's last 43
bits. -/
structure Gfp where
  st : Nat := 0
  buf : List Byte := []
  scr : Nat := 0
deriving DecidableEq, Repr

/-- Block lock and frame recovery of a 100GbE client (R109): lock; run of good sync headers; blocks and bad headers of the window; the
frame being received, with whether an error lies in it. -/
structure Pcs where
  lock : Bool := false
  run : Nat := 0
  seen : Nat := 0
  bad : Nat := 0
  part : Option (List Byte × Bool) := none
deriving DecidableEq, Repr

/-- A framer client (R93, R109, R110): frames that the MAC has handed over and none of whose bytes has been sent; bytes or blocks of
the frame begun; bits of capacity below a block; transmit scrambler; delineation; frames recovered and not yet received by the MAC,
with whether a PCS error lies in them. -/
structure Client where
  txFrames : List (List Byte) := []
  txBytes : List Byte := []
  txBlocks : List Nat := []
  txBits : Nat := 0
  txScr : Nat := 0
  gfp : Gfp := {}
  pcs : Pcs := {}
  rxFrames : List (List Byte × Bool) := []
deriving DecidableEq, Repr

/-- The framer. -/
structure Xpt where
  levels : NMap Align := []
  ents : NMap XEnt := []
  /-- MAP_ERR of each group (R96). -/
  mapErr : NMap Nat := []
  /-- The client port is up: no defect on its path. -/
  clientUp : NMap Bool := []
  /-- Clients by port number. -/
  clients : NMap Client := []
  /-- Last second evaluated (R111). -/
  pmSec : Nat := 0
deriving DecidableEq, Repr

/-! ### Forwarding tables -/

/-- One version of a table entry (R140); epochs are commit indices. -/
structure Ver where
  birth : Nat
  death : Option Nat := none
  data : Nat := 0
  poisoned : Bool := false
deriving DecidableEq, Repr

/-- Epoch state of a partition (R141 to R151): epochs are counted by commit index. -/
structure Epochs where
  /-- Commit index of the current epoch. -/
  cur : Nat := 0
  /-- Commit index that has number `base`. -/
  origin : Nat := 0
  base : Nat := 0
  /-- Numbers that packets of the commit index before `origin` may still hold (R151). -/
  aliases : List Nat := []
  /-- Commit indices at which such a number was passed over. -/
  skips : List Nat := []
  /-- References held per commit index (R145). -/
  refs : NMap Nat := []
  /-- Oldest live commit index up to which versions have been freed (R148). -/
  reclaimed : Nat := 0
  /-- Order number of the next commit, waiting write or discard that begins. -/
  nextOrder : Nat := 0
deriving DecidableEq, Repr

/-- The lookup island. -/
structure Lookup where
  /-- Versions of each entry, oldest first, keyed by `tableKey`. -/
  tabs : NMap (List Ver) := []
  /-- Width code of each TCAM bank (R152). -/
  bankWidth : NMap Nat := []
  /-- Occupied slots of each bank, lowest first: slot (row divided by the entry's rows), entry key, birth (R160). -/
  bankRows : NMap (List (Nat × Nat × Nat)) := []
  /-- Prefilter maps of R158: 256 bits by bank, block of 512 rows and key byte, at (bank * 32 + block) * 128 + byte. -/
  blockMaps : NMap Nat := []
  /-- Exact-match bucket occupancy by bucket index, H0 then H1, and the stash (R169, R170). -/
  buckets : NMap Nat := []
  stash : Nat := 0
  /-- Where each exact-match version lies: key, birth, and 0 bucket A, 1 bucket B, 2 stash, 3 elsewhere (log 10). -/
  emPlace : List (Nat × Nat × Nat) := []
  epA : Epochs := {}
  epB : Epochs := { base := 0x800 }
deriving DecidableEq, Repr

/-- The parser's two graph banks (R117). -/
structure Parse where
  /-- Entries by bank, table and index. -/
  graph : NMap Nat := []
  activeA : Nat := 0
  activeB : Nat := 0
deriving DecidableEq, Repr

/-! ### Byway, Caravan -/

/-- A frame in the punt store (R189) with what its punt record carries (R191). -/
structure Punt where
  pkt : Pkt := {}
  reason : Nat := 0
  code : Nat := 0
  err : Nat := 0
  node : Nat := 0
  visit : Nat := 0
  off : Nat := 0
deriving DecidableEq, Repr

/-- The slow path: the punt store in order, each frame with its function and local ring. -/
structure Byway where
  store : List (Nat × Nat × Punt) := []
deriving DecidableEq, Repr

/-- Multicast tables and stages (R194 to R199). -/
structure Caravan where
  groups : NMap Nat := []
  esets : NMap Nat := []
  members : NMap Nat := []
  /-- Inputs of the switch core that hold a packet for the first stage, in order of arrival. -/
  first : List Nat := []
  /-- Number of the next source with its copies. -/
  nextGrp : Nat := 1
  /-- Packets awaiting the second stage, with the writer port that delivered them (R199). -/
  second : List (Nat × Pkt) := []
  /-- Copies to offer: writer port, chain, group, copy's packet. -/
  copies : List (Nat × Nat × Nat × Pkt) := []
deriving DecidableEq, Repr

/-! ### Switch core and fabric -/

/-- A packet part of whose cells have crossed the crossbar (R222): input point, output point, cells left, packet. -/
structure Xfer where
  inp : Nat
  out : Nat
  cells : Nat
  pkt : Pkt
deriving DecidableEq, Repr

/-- Staging, landing, crossbar and output buffers (R218 to R225). -/
structure Switch where
  /-- Split port's steering buffer toward each slice (R59): half-bytes that it holds, half-bytes of other ports' frames that the
  slice has still to take, and the cycle to which both have drained. -/
  steer : NMap (Nat × Nat × Nat) := []
  staging : NMap (List Pkt) := []
  /-- Packets at each input: 0 to 3 landing buffers, 4 + j fabric receive, 28 twin receive, 29 inject. -/
  inputs : NMap (List Pkt) := []
  /-- Partly crossed packets, by input point * 64 + output point. -/
  xfers : NMap Xfer := []
  grantPtr : NMap Nat := []
  acceptPtr : NMap Nat := []
  /-- Packets in each output buffer: 0 to 23 fabric, 24 to 31 writer ports, 32 twin, 33 punt. -/
  outputs : NMap (List Pkt) := []
deriving DecidableEq, Repr

/-- Link states (R229). -/
inductive LinkSt where
  | down | cap | noCommon | up
deriving DecidableEq, Repr

/-- A reassembly context (R243): bytes so far, header fields of the first cell, cycle of the last cell. -/
structure Reasm where
  bytes : List Byte := []
  hdr : Nat := 0
  /-- Credit units of its cells (R241). -/
  units : Nat := 0
  last : Nat := 0
deriving DecidableEq, Repr

/-- One link group (R229 to R246). -/
structure Link where
  st : LinkSt := .down
  version : Nat := 0
  cause : Nat := 0
  /-- Last capability word received in CAP and how many times in a row (R232). -/
  capWord : Nat := 0
  capRun : Nat := 0
  /-- Word with which the link was decided. -/
  word : Nat := 0
  /-- ENDPOINT of the word with which the link came UP under DIRECT: the direct peer's (R41). -/
  peer : Option Nat := none
  changed : Nat := 0
  changedRun : Nat := 0
  credit : Nat := 0
  peerCredits : Nat := 0
  sentUnits : Nat := 0
  unitsRecv : Nat := 0
  returnsRecv : Nat := 0
  returnedUnits : Nat := 0
  /-- Units freed and not yet returned in a cell (R241). -/
  toReturn : Nat := 0
  stalled : Bool := false
  /-- Cycle since which waiting data lacks credit (R242). -/
  shortSince : Option Nat := none
  lastGood : Nat := 0
  /-- Cycles of the last cell sent other than idle, of the last CREDIT_SYNC and CAP. -/
  lastSent : Nat := 0
  lastSync : Nat := 0
  lastCap : Option Nat := none
  txIdle : Bool := false
  rxIdle : Bool := false
  /-- Packet whose cells are being sent, and its payload bytes left to send (R240). -/
  sending : Option (Pkt × List Byte) := none
  ctxs : NMap Reasm := []
  /-- Last cell sent, an output of the block. -/
  lastCell : List Byte := []
deriving DecidableEq, Repr

/-- The fabric interface. -/
structure Fabric where
  links : NMap Link := []
  reach : NMap Nat := []
deriving DecidableEq, Repr

/-! ### Buffer manager, Ledger, scheduler -/

/-- A room's link entry (R203), with STATE as `used`: a room never written is not listed. -/
structure Room where
  next : Nat := 0
  used : Bool := true
  owner : Nat := 0
deriving DecidableEq, Repr

/-- A chain record (R203): its rooms are found through the link table from `head`. -/
structure Chain where
  pool : Nat := 0
  count : Nat := 0
  head : Nat := 0
  share : Nat := 1
  /-- Rooms whose read has been uncorrectable (R306). -/
  bad : List Nat := []
deriving DecidableEq, Repr

/-- A pool (R204). -/
structure Pool where
  rooms : Nat := 0
  reserve : Nat := 0x1000
  used : Nat := 0
  /-- Millisecond bookkeeping of INN_POOL_EMPTY (R227). -/
  emptyMs : Option Nat := none
  emptyCount : Nat := 0
deriving DecidableEq, Repr

/-- The Innkeeper. -/
structure Inn where
  rooms : NMap Room := []
  chains : NMap Chain := []
  nextChain : Nat := 1
  pools : NMap Pool := []
  /-- Cellar pages in use, with their owning queue (R216). -/
  pages : NMap Nat := []
  /-- Quarantined rooms, each with the pool that it counts against (R209). -/
  quarantined : List (Nat × Nat) := []
  /-- Retired rooms, each with the pool that it counts against, and retired pages (R306). -/
  retiredRooms : List (Nat × Nat) := []
  retiredPages : List Nat := []
  retireFull : NMap Bool := []
  cellarFull : NMap Bool := []
  /-- Room and page data found uncorrectable and not yet read. -/
  poisonRooms : List Nat := []
  poisonPages : List Nat := []
  /-- INN_ROOMS.TOTAL (R226). -/
  roomsTotal : Nat := 0
  /-- Pages of the spill area on each channel while CELLAR is ON (R210, R295). -/
  spillRows : NMap Nat := []
  /-- Channel that last received a page of each partition, and the queue that last spilled (R214, R296). -/
  pageChan : NMap Nat := []
  spillTurn : NMap Nat := []
  /-- Traffic of the last 10 µs: cycle, partition, kind (0 cellar writes, 1 pulls, 2 the H2 capture ring), bits (R214, R427). -/
  traffic : List (Nat × Nat × Nat × Nat) := []
  /-- Region sizes in force since CELLAR's STARTING (R210): CAPTURE_GIB, FLOW_EN. -/
  captureGib : Nat := 0
  flowEn : Bool := false
deriving DecidableEq, Repr

/-- A packet in a queue: its chain, bound in quanta of device time when promised, admission time (R255, R324). -/
structure QPkt where
  pkt : Pkt
  chain : Nat := 0
  /-- t_dep as extended; none for no promise. -/
  bound : Option Nat := none
  admitted : Nat := 0
  poisoned : Bool := false
  /-- Its bound was computed under a gate list that a pending raising change replaces (R263). -/
  oldList : Bool := false
  /-- It has been held at least once under R285; it has been found in C when selected (R213). -/
  gateHeld : Bool := false
  pullLate : Bool := false
deriving DecidableEq, Repr

/-- One queue: buffer record (R217), Ledger record (R268), scheduling record (R279), horizon and tags. -/
structure Queue where
  pool : Nat := 0
  spillEn : Bool := false
  spillPages : Nat := 0x4000
  pullAhead : Nat := 0x10
  markKib : Nat := 0xFFFFFF
  dclass : Nat := 0xF
  refuse : Bool := false
  gRate : Nat := 0
  spillQ : Nat := 0
  qlimit : Nat := 0xFFFFFF
  parent : Nat := 0
  enable : Bool := false
  prio : Nat := 0
  tc : Nat := 0
  weight : Nat := 1
  excessEn : Bool := true
  shRate : Nat := 0
  shBurst : Nat := 0x4000
  shOver : Int := 0
  /-- Tokens in 1/1,024 byte and the cycle to which they have accrued (R277). -/
  tokens : Int := 0x4000 * 1024
  tokAt : Nat := 0
  tokRem : Nat := 0
  deficit : Int := 0
  /-- Horizon F_q in quanta of device time (R255). -/
  horizon : Nat := 0
  /-- Packets accepted and not yet departed: their bounds (R269); identified by admission order. -/
  pkts : List QPkt := []
  outstanding : Nat := 0
  /-- Old rate and F_0 of each reduction that may still hold it (R262). -/
  held : List (Nat × Nat) := []
  /-- Scheduler tags in quanta of open time (R274). -/
  vs : Nat := 0
  vf : Nat := 0
  /-- Cellar pages of segment C, oldest first, each with the rooms' worth of data that it holds; and the rooms of segment T
  behind them (R211). -/
  cpages : List (Nat × Nat) := []
  tRooms : Nat := 0
  /-- A pull waits for rooms and has been counted (R205). -/
  pullStalled : Bool := false
  /-- Pages that wait for a free page and have been counted in CELLAR_FULL (R214). -/
  blocked : Nat := 0
deriving DecidableEq, Repr

/-- A port root or scheduler node (R278). -/
structure Node where
  parent : Nat := 0
  enable : Bool := false
  prio : Nat := 0
  weight : Nat := 1
  gRate : Nat := 0
  shRate : Nat := 0
  shBurst : Nat := 0x4000
  shOver : Int := 0
  tokens : Int := 0x4000 * 1024
  tokAt : Nat := 0
  tokRem : Nat := 0
  deficit : Int := 0
  /-- Round pointer per band: child (R276). -/
  rr : NMap Nat := []
deriving DecidableEq, Repr

/-- A gate list (R286): cycle, guard, base in ns; entries of gates and interval. -/
structure GateList where
  cycle : Nat
  guard : Nat
  baseNs : Nat
  entries : List (Nat × Nat)
deriving DecidableEq, Repr

/-- A gate-list change that has passed its checks (R263, R288): the new list, none for a removal; whether it raises c_port or
T_gate + T_guard; the latest bound under the old list, in device time; and, once it has replaced the old list, its start. -/
structure GateChange where
  new : Option GateList
  raising : Bool
  /-- Device time at which the checks passed; the latest bound that a raising change waits for. -/
  passed : Nat
  bound : Nat
  start : Option Nat := none
deriving DecidableEq, Repr

/-- Gate state of a port (R285 to R289). -/
structure Gate where
  cur : Option GateList := none
  pending : Option GateChange := none
  /-- The current list starts at this device time; all gates open until then (R45). -/
  startsAt : Nat := 0
  suspended : Bool := false
  /-- Entry in force at the last entry boundary. -/
  entry : Nat := 0
deriving DecidableEq, Repr

/-- A released frame on its way to the line: packet, bound, queue, wire limit. -/
structure Rel where
  pkt : Pkt
  bound : Option Nat := none
  /-- As in QPkt. -/
  oldList : Bool := false
  queue : Nat := 0
  /-- The frame without FCS, once edited, and the TS_OP to carry out as it leaves (R325, R326). -/
  edited : List Byte := []
  tsOp : Nat := 0
deriving DecidableEq, Repr

/-- Egress state of a port: release clock, open-time clock V, released and edited frames (R273, R274). -/
structure Egress where
  oPort : Int := 20
  downHold : Nat := 0
  /-- Next release opportunity, in quanta of elapsed time. -/
  nextRel : Nat := 0
  vclock : Nat := 0
  /-- TIME cycle and device time to which V has been counted. -/
  vAt : Nat := 0
  vDev : Nat := 0
  released : List Rel := []
  edited : List Rel := []
  /-- Last frame handed to the line, an output of the block. -/
  lastTx : List Byte := []
deriving DecidableEq, Repr

/-- A policer (R283); tokens in 1/1,024 byte. -/
structure Policer where
  mode : Nat := 0
  yellowAct : Bool := false
  redAct : Bool := false
  overhead : Int := 0
  cir : Nat := 0
  pir : Nat := 0
  cbs : Nat := 0
  ebs : Nat := 0
  tc : Nat := 0
  te : Nat := 0
  /-- Cycle to which tokens have accrued, and the fractions that no whole 1/1,024 byte holds. -/
  at_ : Nat := 0
  remC : Nat := 0
  remP : Nat := 0
deriving DecidableEq, Repr

/-- The traffic manager. -/
structure Tm where
  queues : NMap Queue := []
  /-- Key level * 2^17 + index, level 0 to 3. -/
  nodes : NMap Node := []
  gates : NMap Gate := []
  egress : NMap Egress := []
  policers : NMap Policer := []
  /-- D(k) in ns, key partition * 16 + k; and HBM time by partition. -/
  deadlines : NMap Nat := []
  hbmTime : NMap Nat := []
  /-- TIME cycle of the last evaluation or change; the evaluations in it as TMC cycle, writer port and queue; and the first TMC
  cycle in it whose evaluations see every change (R256). -/
  evalCyc : Nat := 0
  evals : List (Nat × Nat × Nat) := []
  evalFrom : Nat := 0
deriving DecidableEq, Repr

/-! ### Memories -/

/-- One DDR-5 channel (R298, R308): 0 EMPTY, 1 UNTRAINED, 2 TRAINING, 3 TRAINED, 4 FAILED. -/
structure Xm where
  st : Nat := 0
  dimms : Nat := 0
  ranks : Nat := 0
  /-- Trained capacity, and the capacity of each DIMM, in GiB. -/
  gib : Nat := 0
  dimmGib : Nat := 0
  conforms : Bool := true
  readable : Bool := true
  dense : Bool := false
  cause : Nat := 0
  /-- MAP in force since the last MEM_TRAIN (R296, R308). -/
  map : Nat := 2
  probed : Bool := false
deriving DecidableEq, Repr

/-- One HBM stack: 1 UNTRAINED, 2 TRAINING, 3 TRAINED, 4 FAILED. -/
structure Hbm where
  st : Nat := 1
  /-- It is in the training that follows a reset (R297, R440). -/
  boot : Bool := false
  /-- Reading deferred by R302. -/
  deferred : Option Int := none
deriving DecidableEq, Repr

/-- One refresh unit (R301 to R304). -/
structure Refresh where
  debt : Nat := 0
  /-- Cycle of the last due point. -/
  dueAt : Nat := 0
  hot : Bool := false
  coolPending : Bool := false
  /-- Refreshes of the burst in progress, and due points during it. -/
  burst : Nat := 0
  burstDue : Nat := 0
  /-- Cycle at which the burst began. -/
  burstAt : Nat := 0
  powerDown : Bool := false
  lastAccess : Nat := 0
deriving DecidableEq, Repr

/-- The scrub pass of one unit (R307): its start, and the reads made in it. -/
structure Scrub where
  start : Nat := 0
  reads : Nat := 0
deriving DecidableEq, Repr

/-- The memory controllers. -/
structure Mem where
  xm : NMap Xm := []
  hbm : NMap Hbm := []
  units : NMap Refresh := []
  /-- Channels in a retraining pause, with its start cycle (R299). -/
  pauses : NMap Nat := []
  /-- Cycle of each channel's last pause start. -/
  lastPause : NMap Nat := []
  /-- Last start of a pause or burst on H2 or H3 (R299, R304). -/
  lastBuf : Option Nat := none
  /-- Latest reading of each sensor, and the number of the reading period in which it was taken (R302). -/
  temps : NMap Int := []
  readAt : NMap Nat := []
  /-- Uncorrectable errors counted since the reset (R357). -/
  ueTotal : Nat := 0
  /-- Data marked poisoned for its next consumer: structure and index (R305). -/
  poison : List (Nat × Nat) := []
  /-- Scrub pass of each unit, and the cycle of each channel's last scrub read (R307). -/
  scrubs : NMap Scrub := []
  scrubAt : NMap Nat := []
deriving DecidableEq, Repr

/-! ### Time -/

/-- A decided STEP (R313): cause; relative amount, or absolute time in quanta; the ring of TIME_ADJUST. -/
structure StepOp where
  cause : Nat
  rel : Int := 0
  abs_ : Option Nat := none
  actAt : Nat
  owner : Option (Nat × Nat) := none
deriving DecidableEq, Repr

/-- A transmit-timestamp queue (R327, R329): entries as 128-bit numbers, oldest first; the run of lost frames:
port, tag, number. -/
structure TsQueue where
  entries : List Nat := []
  lost : Option (Nat × Nat × Nat) := none
deriving DecidableEq, Repr

/-- Device time (R310 to R331). -/
structure Time where
  /-- Master counter in units of 2^-32 ns. -/
  master : Nat := 0
  /-- TIME cycles since the reset, which no STEP changes. -/
  cyc : Nat := 0
  freqPpb : Int := 0
  /-- Slew in progress: ppb and the cycle of its end. -/
  slew : Option (Int × Nat) := none
  /-- Follower error in quanta and the TIME_FOLLOWER_ERR condition (R311). -/
  follErr : Int := 0
  /-- Cycle of the check that found it. -/
  follAt : Nat := 0
  follSet : Bool := false
  steps : List StepOp := []
  /-- Last 16 steps, and one more to tell a longer span: device time before the step, and the signed change (R325). -/
  stepLog : List (Nat × Int) := []
  /-- 0 UNALIGNED, 1 ALIGNED, 2 HOLDOVER (R319). -/
  align : Nat := 0
  good : Nat := 0
  badRun : Nat := 0
  missed : Nat := 0
  lastEdge : Option Nat := none
  /-- Second boundary whose capture window has had its edge (R317). -/
  winCaptured : Option Nat := none
  /-- Second boundary of the window that has been judged last. -/
  winDone : Nat := 0
  holdAt : Nat := 0
  ppsOffset : Int := 0
  /-- A correction to decide: offset in ns, and the stamp of its edge in quanta of master time (R318). -/
  corr : Option (Int × Nat) := none
  ppsOut : Bool := false
  /-- Cycle at which the pulse in progress ends (R320). -/
  ppsOutAt : Nat := 0
  /-- Second boundary that PPS_OUT has last pulsed for. -/
  ppsOutSec : Nat := 0
  snap : Nat := 0
  tsq : NMap TsQueue := []
deriving DecidableEq, Repr

/-! ### Twin -/

/-- Dedup window (R355): highest number, marks of H - 4095 to H as bits (bit i is H - i), last acceptance. -/
structure Window where
  h : Nat
  marks : Nat
  last : Nat
deriving DecidableEq, Repr

/-- One lantern path (R347). -/
structure Path where
  up : Bool := false
  lastGood : Nat := 0
  count : Option Nat := none
  /-- Cycle since which good lanterns have kept arriving. -/
  since : Nat := 0
deriving DecidableEq, Repr

/-- The claim of one partition (R344): number, side effects in progress, cycle of the end of the wait, stop in progress. -/
structure Claim where
  num : Nat := 0
  active : Bool := false
  waitEnd : Option Nat := none
  /-- Side effects are to stop; 1 released, 2 lost, 3 grant lost, 4 lock. -/
  stopping : Nat := 0
  /-- An automatic takeover waits for ARB_GRANT (R349). -/
  waitGrant : Bool := false
  diverged : Bool := false
  /-- Cycle since which the digests have differed (R351). -/
  diffSince : Option Nat := none
  health : Nat := 0
  failed : Nat := 0
  peerClaim : Nat := 0
  peerDigest : Nat := 0
  /-- Cycle of the last night-watch run, and the errors that had been counted then (R357). -/
  nwAt : Nat := 0
  ueSeen : Nat := 0
deriving DecidableEq, Repr

/-- Twin protection (R332 to R360): pair state 0 ALONE, 1 FORMING, 2 PAIRED, 3 PEER_FAILED. -/
structure Twin where
  pair : Nat := 0
  tw : Path := {}
  hb : Path := {}
  a : Claim := {}
  b : Claim := {}
  lock : Bool := false
  /-- Cycle at which the unit that gains the lock starts its side effects (R346). -/
  lockGain : Option Nat := none
  grant : Bool := false
  arbClaim : Bool := false
  lanternCount : Nat := 0
  /-- Cycles of the last lantern and the last SYNC sent. -/
  lanternAt : Nat := 0
  syncAt : Nat := 0
  /-- TWIN_CONFIG_BAD stands (R332). -/
  configBad : Bool := false
  peerUnit : Nat := 0
  peerHealth : Nat := 0
  peerAligned : Nat := 0
  peerRan : Nat := 0x0E
  peerUarno : Nat := 0
  peerTimeState : Nat := 0
  versionRaised : Bool := false
  /-- T1 of the last SYNC sent, and ECHO fields for the next. -/
  lastT1 : Nat := 0
  echoT1 : Nat := 0
  echoT2 : Nat := 0
  offset : Int := 0
  alarm : Bool := false
  alarmGood : Nat := 0
  windows : NMap Window := []
  fwdMask : Nat := 0
  /-- Night-watch test frames: port, expected FCS, bytes (R357). -/
  tests : List (Nat × Nat × List Byte) := []
  /-- Last lantern and messages sent, outputs of the block. -/
  lastLantern : Nat := 0
  lastTwhb : Nat := 0
  lastSync : List Byte := []
  lastSample : List Byte := []
deriving DecidableEq, Repr

/-! ### Telemetry -/

/-- A counter (R418 to R422): backing word, accumulator, LOST, saturation event spent. -/
structure Ctr where
  backing : Nat := 0
  acc : Nat := 0
  lost : Bool := false
  spent : Bool := false
deriving DecidableEq, Repr

/-- A programmable performance counter (R425). -/
structure Perf where
  value : Nat := 0
  event : Nat := 0
  enable : Bool := false
  sampleEn : Bool := false
  period : Nat := 0
  /-- Overflows whose sample has not been taken (R426). -/
  due : Nat := 0
  /-- TMC cycle of the last load, for event 0x46. -/
  loadedAt : Nat := 0
deriving DecidableEq, Repr

/-- A flow-state record (R428); times in quanta. -/
structure Flow where
  hash : Nat := 0
  port : Nat := 0
  inUse : Bool := false
  poison : Bool := false
  tcpFlags : Nat := 0
  first : Nat := 0
  last : Nat := 0
  packets : Nat := 0
  bytes : Nat := 0
  queue : Nat := 0
  endpoint : Nat := 0
deriving DecidableEq, Repr

/-- Counters, performance counters, capture ring, flow-state records. -/
structure Tele where
  ctrs : NMap Ctr := []
  /-- Sets in SATURATE mode: key set * 2 + partition (R420). -/
  saturate : NMap Bool := []
  perf : NMap Perf := []
  /-- Cycle of the last sample per slice (R426). -/
  sampleAt : NMap Nat := []
  /-- Slots of each slice classified so far, counted from the reset (R423). -/
  slotDone : NMap Nat := []
  /-- Capture records by index per partition, 256 bytes each as a number; records written (R427). -/
  capture : NMap Nat := []
  captureWritten : NMap Nat := []
  flows : NMap Flow := []
  /-- Cached updates, with the cycle of their first (R428). -/
  flowCache : NMap (Nat × Flow) := []
deriving DecidableEq, Repr

/-- What happened to the W1C bits of registers in the present cycle (R9). -/
structure Latch where
  /-- Bits that the device has set last, by register address, with the cycle. -/
  setAt : NMap (Nat × Nat) := []
  /-- The last fatal cause that found VALID set: cycle, SMB_FATAL, SMB_FATAL_S and SMB_FATAL_NS as it would have latched
  them (R461). -/
  late : Option (Nat × Nat × Nat × Nat) := none
deriving DecidableEq, Repr

/-- The whole block. -/
structure State where
  /-- Commands waiting, first in, first out. -/
  pending : List Instr := []
  /-- The model's own counter that picks each free value (log 7). -/
  freeCtr : Nat := 0
  /-- Stored fields of the setup registers, by register address (plus function * 2^32 where each function has its own);
  a register that is not listed holds its reset value. -/
  regs : NMap (BitVec 32) := []
  latch : Latch := {}
  time : Time := {}
  host : HostIf := {}
  sec : Sec := {}
  modes : Modes := {}
  chip : Chip := {}
  lanes : NMap Lane := []
  ports : NMap Port := []
  /-- MAC address entries: key port * 16 + entry; valid addresses (R79). -/
  macs : NMap Nat := []
  xpt : Xpt := {}
  lookup : Lookup := {}
  parse : Parse := {}
  byway : Byway := {}
  caravan : Caravan := {}
  switch : Switch := {}
  fabric : Fabric := {}
  inn : Inn := {}
  tm : Tm := {}
  mem : Mem := {}
  twin : Twin := {}
  tele : Tele := {}
deriving DecidableEq, Repr

/-- The sixteen HBM channel-group domains after a reset: STARTING at once (R440). -/
def resetDomains : NMap Domain :=
  (List.range 16).map fun i => (184 + i, { st := .starting })

/-- The four stacks after a reset: in training (R297). -/
def resetHbm : NMap Hbm := (List.range 4).map fun s => (s, { st := 2, boot := true })

/-- Pool 0 holds every room after a reset (R204). -/
def resetPools : NMap Pool := [(0, { rooms := 0x14000000 })]

/-- The machine right after PORST_N is released: every field at its reset value, the stacks in training (R297, R435, R440). -/
def State.reset : State :=
  { chip := { domains := resetDomains }
    mem := { hbm := resetHbm }
    inn := { pools := resetPools } }

end Sys2Proof.Machine
end

