-- ==== Sys2Proof/Machine/RegMap.lean ====
section
/-! DEFINITION. Where each stored setup register lies, its reset value and its writable bits (R5, R8, R9, R450 to R452). Rows
follow the register tables of the chapters; a register whose fields are all RO, WO or of another structure of the state has
no row here. -/

namespace Sys2Proof.Machine

/-- A family of stored registers: base, two index dimensions (stride, count), reset value, RW bits, W1C bits. -/
structure RegRow where
  base : Nat
  stride : Nat := 4
  count : Nat := 1
  stride2 : Nat := 0
  count2 : Nat := 1
  reset : Nat := 0
  rw : Nat := 0
  w1c : Nat := 0
deriving DecidableEq, Repr

/-- R32, R457: CHIP and MODE. -/
def regRowsChip : List RegRow :=
  [ { base := 0x00100004, w1c := 0xF00 }
  , { base := 0x00100040, rw := 0x3F013F }
  , { base := 0x0010004C, reset := 0x38, rw := 0x3F } ]

/-- R74, R86. -/
def regRowsLine : List RegRow :=
  [ { base := 0x00200000, stride := 0x40, count := 48, reset := 0x200, rw := 0xFFF }
  , { base := 0x00200008, stride := 0x40, count := 48, rw := 0xFF }
  , { base := 0x0020000C, stride := 0x40, count := 48, reset := 0x073404, rw := 0x1F3F0F }
  , { base := 0x00201000, stride := 0x10, count := 6, reset := 0x88888888, rw := 0xFFFFFFFF }
  , { base := 0x00201004, stride := 0x10, count := 6, rw := 1 }
  , { base := 0x00201008, stride := 0x10, count := 6, w1c := 0x100 }
  , { base := 0x00201100, reset := 0x03E801F4, rw := 0xFFFFFFFF }
  , { base := 0x00400000, stride := 0x20, count := 48, reset := 0xA400, rw := 0xFFFFF }
  , { base := 0x00400004, stride := 0x20, count := 48, reset := 0x000800C0, rw := 0xFFFFFFFF }
  , { base := 0x00400008, stride := 0x20, count := 48, reset := 0x00FAC688, rw := 0xFFFFFF } ]

/-- R94. -/
def regRowsXpt : List RegRow :=
  [ { base := 0x00500000, stride := 0x10, count := 48, rw := 0x3F }
  , { base := 0x00501000, stride := 0x10, count := 6, reset := 3, rw := 0xF }
  , { base := 0x00502000, rw := 0x1FFFF }
  , { base := 0x00504000, stride := 0x200, count := 6, stride2 := 8, count2 := 32, rw := 0xFFFFF }
  , { base := 0x00504004, stride := 0x200, count := 6, stride2 := 8, count2 := 32, rw := 0x7F }
  , { base := 0x00505000, stride := 0x100, count := 6, stride2 := 0x20, count2 := 8, reset := 0x10000, rw := 0x7FFFFF } ]
    ++ (List.range 6).map fun g =>
      { base := 0x00506000 + 0x400 * g, stride := 0x40, count := 8, stride2 := 4, count2 := 16, rw := 0x1FFF }

/-- R137, R175, R200. -/
def regRowsForward : List RegRow :=
  [ { base := 0x00800000, stride := 0x10, count := 48, rw := 0x0FFF7FFF }
  , { base := 0x00801000, rw := 0xFFFFFFFF }
  , { base := 0x00A00010, reset := 0x101, rw := 0x10F }
  , { base := 0x00C00000, stride := 0x10, count := 48, reset := 0x10, rw := 0x1F }
  , { base := 0x00C00004, stride := 0x10, count := 48, reset := 0x76543210, rw := 0xFFFFFFFF }
  , { base := 0x00C01000, stride := 0x10, count := 16, rw := 0xFFFFF3 }
  , { base := 0x00C01004, stride := 0x10, count := 16, rw := 0xFFFFF }
  , { base := 0x00C01008, stride := 0x10, count := 16, rw := 0xFFFFFFFF }
  , { base := 0x00C02000, stride := 4, count := 16, rw := 0xFFFFFFFF } ]

/-- R226, R245. -/
def regRowsCore : List RegRow :=
  [ { base := 0x01000008, rw := 0xFF }
  , { base := 0x01C00000, reset := 0x10, rw := 0x1F }
  , { base := 0x01C00004, reset := 0x40080, rw := 0x1FFFFF }
  , { base := 0x01C00100, stride := 4, count := 48, reset := 0x200, rw := 0xFFF }
  , { base := 0x01C01000, reset := 0xA7000, rw := 0xFFFF7FFF }
  , { base := 0x01C01100, stride := 0x10, count := 26, reset := 4, rw := 0xFF07 }
  , { base := 0x01C02000, stride := 8, count := 48, rw := 0xFFFFF }
  , { base := 0x01C02004, stride := 8, count := 48, rw := 0xFFFFFF } ]

/-- R308, R330. -/
def regRowsMem : List RegRow :=
  [ { base := 0x02000000, stride := 0x20, count := 8, reset := 0x04000012, rw := 0xFFFF0013 }
  , { base := 0x02000100, stride := 0x20, count := 4, reset := 0x04000001, rw := 0xFFFF0001 }
  , { base := 0x02000200, reset := 0x10064, rw := 0x103FF }
  , { base := 0x02000204, reset := 0x118, rw := 0x11F }
  , { base := 0x02800000, reset := 0x10, rw := 0x1F }
  , { base := 0x02800004, reset := 0x3E8, rw := 0x7FFFFFF }
  , { base := 0x02800008, reset := 0x3C010064, rw := 0xFFFFFFFF }
  , { base := 0x0280000C, reset := 0xC350, rw := 0x3FFFF }
  , { base := 0x02800010, reset := 0x64, rw := 0xFFFF01FF }
  , { base := 0x02800040, rw := 0xFFFFFFFF }
  , { base := 0x02800044, rw := 0xFFFF }
  , { base := 0x02800048, rw := 0xFFFFFFFF }
  , { base := 0x02800100, stride := 8, count := 48, rw := 0xFFFFFFFF } ]

/-- R358, R430, R447, R460. -/
def regRowsMgmt : List RegRow :=
  [ { base := 0x02C00000, rw := 0xFFFF1F }
  , { base := 0x02C00004, reset := 0x640A0064, rw := 0xFFFFFFFF }
  , { base := 0x02C00008, rw := 0xFFF }
  , { base := 0x03000000, rw := 0x801FFFFF }
  , { base := 0x0300000C, reset := 0x3E8, rw := 0xFFFF }
  , { base := 0x03400000, reset := 0x5F, rw := 0xFF }
  , { base := 0x03400008, reset := 1, w1c := 3 }
  , { base := 0x0340000C, reset := 1, rw := 1 }
  , { base := 0x03C00004, w1c := 0x80000000 }
  , { base := 0x03C00008 }
  , { base := 0x03C0000C }
  , { base := 0x03C00010, rw := 0xFFFFFFFF } ]

/-- Every stored register family. -/
def regRows : List RegRow :=
  regRowsChip ++ regRowsLine ++ regRowsXpt ++ regRowsForward ++ regRowsCore ++ regRowsMem ++ regRowsMgmt

/-- Does address `a` lie in the family, and at which indices? -/
def RegRow.index (r : RegRow) (a : Nat) : Option (Nat × Nat) :=
  if a < r.base then none else
  let i := (a - r.base) / r.stride
  let rest := (a - r.base) % r.stride
  let j := if r.stride2 = 0 then 0 else rest / r.stride2
  let rest2 := if r.stride2 = 0 then rest else rest % r.stride2
  if i < r.count ∧ j < r.count2 ∧ rest2 = 0 then some (i, j) else none

/-- The family that holds register address `a`. -/
def regRow (a : Nat) : Option RegRow := regRows.find? fun r => (r.index a).isSome

/-- Reset value of the stored bits at `a`; 0 where no register is stored (R452). -/
def regReset (a : Nat) : Nat := ((regRow a).map (·.reset)).getD 0

/-- What a write of `v` leaves of old value `old`: RW bits taken, W1C bits cleared by ones, others kept (R8, R9). -/
def RegRow.merge (r : RegRow) (old v : BitVec 32) : BitVec 32 :=
  let rw : BitVec 32 := BitVec.ofNat 32 r.rw
  let wc : BitVec 32 := BitVec.ofNat 32 r.w1c
  (old &&& ~~~rw &&& ~~~(wc &&& v)) ||| (v &&& rw)

end Sys2Proof.Machine
end

