-- ==== Sys2Proof/Machine/Ops.lean ====
section
/-! DEFINITION. The operations that every command is written with: sparse tables, device time, stored registers, the
accessors of the state's parts, and who owns what under PARTITION (R48, R49). -/

namespace Sys2Proof.Machine

/-! ### Sparse tables -/

/-- The entry at key `k`, when one is listed. -/
def NMap.find? {α : Type} : NMap α → Nat → Option α
  | [], _ => none
  | (j, v) :: t, k => if j = k then some v else NMap.find? t k

/-- The value at key `k`; `d` is what an unlisted key holds. -/
def NMap.get {α : Type} (m : NMap α) (d : α) (k : Nat) : α := (m.find? k).getD d

/-- The table without key `k`. -/
def NMap.del {α : Type} : NMap α → Nat → NMap α
  | [], _ => []
  | (j, v) :: t, k => if j = k then NMap.del t k else (j, v) :: NMap.del t k

/-- The table with `v` at key `k`, keys rising. -/
def NMap.ins {α : Type} : NMap α → Nat → α → NMap α
  | [], k, v => [(k, v)]
  | (j, w) :: t, k, v =>
    if k < j then (k, v) :: (j, w) :: t else if j = k then (k, v) :: t else (j, w) :: NMap.ins t k v

/-- Write `v` at `k`; writing what an unlisted key holds removes the entry, so that equal tables are equal data. -/
def NMap.put {α : Type} [DecidableEq α] (m : NMap α) (d : α) (k : Nat) (v : α) : NMap α :=
  if v = d then m.del k else m.ins k v

/-- Change the value at `k`. -/
def NMap.upd {α : Type} [DecidableEq α] (m : NMap α) (d : α) (k : Nat) (f : α → α) : NMap α :=
  m.put d k (f (m.get d k))

/-- Keys rising strictly from above `lo`, and no entry at the default. -/
def NMap.wfFrom {α : Type} [DecidableEq α] (d : α) : Option Nat → NMap α → Bool
  | _, [] => true
  | lo, (j, v) :: t => (lo.all (· < j)) && decide (v ≠ d) && NMap.wfFrom d (some j) t

/-- The canonical form of a table. -/
def NMap.wf {α : Type} [DecidableEq α] (d : α) (m : NMap α) : Bool := NMap.wfFrom d none m

/-! ### Device time (R11, R310) -/

/-- Quanta of 1/65,536 ns in a nanosecond and in a second (R11). -/
def qNs : Nat := 65536
def qSec : Nat := 65536 * 1000000000

/-- Seconds, nanoseconds and fraction fields of a device time in quanta. -/
def secOf (q : Nat) : Nat := q / qSec
def nsOf (q : Nat) : Nat := q % qSec / qNs
def fracOf (q : Nat) : Nat := q % qNs

/-- A device time from its three fields. -/
def mkTime (sec ns frac : Nat) : Nat := sec * qSec + ns * qNs + frac

/-- TIME cycles of 1.25 ns in one µs, ms and s. -/
def cycUs : Nat := 800
def cycMs : Nat := 800000
def cycSec : Nat := 800000000

/-- Increment of the master counter in one TIME cycle, in 2^-32 ns, at an offset in ppb (R310; log 12). -/
def tickInc (ppb : Int) : Nat := (5368709120 + 5368709120 * ppb / 1000000000).toNat

/-- Where the master counter wraps: the seconds field has 48 bits (R11). -/
def masterMod : Nat := 2 ^ 48 * 1000000000 * 2 ^ 32

/-- The counter after `n` more TIME cycles; a slew counts up to its end (R310, R314). -/
def Time.run (t : Time) (n : Nat) : Time :=
  let sl := match t.slew with
    | none => (0, 0)
    | some (ppb, e) => (ppb, min n (e - t.cyc))
  { t with
    cyc := t.cyc + n
    master := (t.master + sl.2 * tickInc (t.freqPpb + sl.1) + (n - sl.2) * tickInc t.freqPpb) % masterMod }

/-- `n` TIME cycles pass (R310). -/
def State.pass (s : State) (n : Nat) : State := { s with time := s.time.run n }

/-- Device time in quanta, truncated from the master counter (R310, R11). -/
def State.now (s : State) : Nat := s.time.master / 65536

/-- Elapsed TIME cycles since the reset, which no STEP changes. -/
def State.cyc (s : State) : Nat := s.time.cyc

/-- Elapsed time in quanta. -/
def State.elapsedQ (s : State) : Nat := s.time.cyc * 81920

/-! ### Stored registers -/

/-- The stored bits of the register at address `a`. -/
def State.reg (s : State) (a : Nat) : Nat := (s.regs.get (BitVec.ofNat 32 (regReset a)) a).toNat

/-- A field of the register at `a`. -/
def State.regF (s : State) (a lo w : Nat) : Nat := bits (s.reg a) lo w

/-- Set the stored bits of the register at `a`. -/
def State.setReg (s : State) (a v : Nat) : State :=
  { s with regs := s.regs.put (BitVec.ofNat 32 (regReset a)) a (BitVec.ofNat 32 v) }

/-- Bits of the register at `a` that the device has set in this cycle (R9). -/
def State.freshBits (s : State) (a : Nat) : Nat :=
  let m := s.latch.setAt.get (0, 0) a
  if m.1 = s.cyc then m.2 else 0

/-- The device has set bits `m` of the register at `a` in this cycle (R9). -/
def State.markSet (s : State) (a m : Nat) : State :=
  { s with latch := { s.latch with setAt := s.latch.setAt.put (0, 0) a (s.cyc, s.freshBits a ||| m) } }

/-- Set bits of a register: the device sets a W1C or status bit (R9). -/
def State.orReg (s : State) (a m : Nat) : State := (s.setReg a (s.reg a ||| m)).markSet a m

/-- Store the written fields of a register as its access types say (R8); a W1C bit that the device has set in the same cycle stays
set (R9); nothing is stored at another address. -/
def State.storeReg (s : State) (a : Nat) (v : BitVec 32) : State :=
  match regRow a with
  | none => s
  | some r => s.setReg a ((r.merge (BitVec.ofNat 32 (s.reg a)) v).toNat ||| (s.reg a &&& r.w1c &&& s.freshBits a))

/-! ### Free values -/

/-- The number under which the next free value is drawn (log 7). -/
def State.drawn (s : State) : State := { s with freeCtr := s.freeCtr + 1 }

/-! ### Parts of the state -/

/-- Place of a mode in the tables; DIRECT stands for the FB lanes under DIRECT. -/
def Mode.ix : Mode → Nat
  | .fabric => 0 | .twin => 1 | .transport => 2 | .gated => 3 | .cellar => 4 | .partition => 5 | .direct => 6

/-- State of a mode (R36). -/
def State.mode (s : State) (m : Mode) : ModeSt := s.modes.states.get {} (Mode.ix m)

/-- Is the mode ON? -/
def State.isOn (s : State) (m : Mode) : Bool := (s.mode m).st == .on

/-- The modes that are ON, by their places: what a packet that enters now keeps to (R40). -/
def State.modesOn (s : State) : Nat :=
  [Mode.fabric, .twin, .transport, .gated, .cellar, .partition, .direct].foldl (fun n m => if s.isOn m then n + 2 ^ Mode.ix m else n) 0

/-- Change a mode's state. -/
def State.updMode (s : State) (m : Mode) (f : ModeSt → ModeSt) : State :=
  { s with modes := { s.modes with states := s.modes.states.upd {} (Mode.ix m) f } }

def State.func (s : State) (fn : Nat) : Func := s.host.fns.get {} fn
def State.updFunc (s : State) (fn : Nat) (f : Func → Func) : State :=
  { s with host := { s.host with fns := s.host.fns.upd {} fn f } }
/-- Ring record `r` of a function (R367, R368). -/
def State.ring (s : State) (fn r : Nat) : Ring := (s.func fn).rings.get {} r
def State.updRing (s : State) (fn r : Nat) (f : Ring → Ring) : State :=
  s.updFunc fn fun p => { p with rings := p.rings.upd {} r f }
def State.domain (s : State) (d : Nat) : Domain := s.chip.domains.get {} d
def State.updDomain (s : State) (d : Nat) (f : Domain → Domain) : State :=
  { s with chip := { s.chip with domains := s.chip.domains.upd {} d f } }
def State.group (s : State) (g : Nat) : Domain := s.chip.groups.get {} g
def State.updGroup (s : State) (g : Nat) (f : Domain → Domain) : State :=
  { s with chip := { s.chip with groups := s.chip.groups.upd {} g f } }
def State.lane (s : State) (n : Nat) : Lane := s.lanes.get {} n
def State.updLane (s : State) (n : Nat) (f : Lane → Lane) : State := { s with lanes := s.lanes.upd {} n f }
def State.port (s : State) (p : Nat) : Port := s.ports.get {} p
def State.updPort (s : State) (p : Nat) (f : Port → Port) : State := { s with ports := s.ports.upd {} p f }
def State.level (s : State) (n : Nat) : Align := s.xpt.levels.get {} n
def State.updLevel (s : State) (n : Nat) (f : Align → Align) : State :=
  { s with xpt := { s.xpt with levels := s.xpt.levels.upd {} n f } }
def State.ent (s : State) (e : Nat) : XEnt := s.xpt.ents.get {} e
def State.updEnt (s : State) (e : Nat) (f : XEnt → XEnt) : State :=
  { s with xpt := { s.xpt with ents := s.xpt.ents.upd {} e f } }
def State.client (s : State) (p : Nat) : Client := s.xpt.clients.get {} p
def State.updClient (s : State) (p : Nat) (f : Client → Client) : State :=
  { s with xpt := { s.xpt with clients := s.xpt.clients.upd {} p f } }
def State.link (s : State) (j : Nat) : Link := s.fabric.links.get {} j
def State.updLink (s : State) (j : Nat) (f : Link → Link) : State :=
  { s with fabric := { s.fabric with links := s.fabric.links.upd {} j f } }
def State.queue (s : State) (q : Nat) : Queue := s.tm.queues.get {} q
def State.updQueue (s : State) (q : Nat) (f : Queue → Queue) : State :=
  { s with tm := { s.tm with queues := s.tm.queues.upd {} q f } }
def State.node (s : State) (k : Nat) : Node := s.tm.nodes.get {} k
def State.updNode (s : State) (k : Nat) (f : Node → Node) : State :=
  { s with tm := { s.tm with nodes := s.tm.nodes.upd {} k f } }
def State.gate (s : State) (p : Nat) : Gate := s.tm.gates.get {} p
def State.updGate (s : State) (p : Nat) (f : Gate → Gate) : State :=
  { s with tm := { s.tm with gates := s.tm.gates.upd {} p f } }
def State.egress (s : State) (p : Nat) : Egress := s.tm.egress.get {} p
def State.updEgress (s : State) (p : Nat) (f : Egress → Egress) : State :=
  { s with tm := { s.tm with egress := s.tm.egress.upd {} p f } }
def State.policer (s : State) (i : Nat) : Policer := s.tm.policers.get {} i
def State.updPolicer (s : State) (i : Nat) (f : Policer → Policer) : State :=
  { s with tm := { s.tm with policers := s.tm.policers.upd {} i f } }
def State.pool (s : State) (p : Nat) : Pool := s.inn.pools.get {} p
def State.updPool (s : State) (p : Nat) (f : Pool → Pool) : State :=
  { s with inn := { s.inn with pools := s.inn.pools.upd {} p f } }
def State.xm (s : State) (c : Nat) : Xm := s.mem.xm.get {} c
def State.updXm (s : State) (c : Nat) (f : Xm → Xm) : State :=
  { s with mem := { s.mem with xm := s.mem.xm.upd {} c f } }
def State.stack (s : State) (k : Nat) : Hbm := s.mem.hbm.get {} k
def State.updStack (s : State) (k : Nat) (f : Hbm → Hbm) : State :=
  { s with mem := { s.mem with hbm := s.mem.hbm.upd {} k f } }
def State.unit (s : State) (u : Nat) : Refresh := s.mem.units.get {} u
def State.updUnit (s : State) (u : Nat) (f : Refresh → Refresh) : State :=
  { s with mem := { s.mem with units := s.mem.units.upd {} u f } }
def State.slot (s : State) (k : Nat) : Slot := s.sec.slots.get {} k
def State.updSlot (s : State) (k : Nat) (f : Slot → Slot) : State :=
  { s with sec := { s.sec with slots := s.sec.slots.upd {} k f } }
/-- The claim of partition 0 A (or the device) or 1 B (R344). -/
def State.claim (s : State) (p : Nat) : Claim := if p = 0 then s.twin.a else s.twin.b
def State.updClaim (s : State) (p : Nat) (f : Claim → Claim) : State :=
  if p = 0 then { s with twin := { s.twin with a := f s.twin.a } }
  else { s with twin := { s.twin with b := f s.twin.b } }
def State.epochs (s : State) (p : Nat) : Epochs := if p = 0 then s.lookup.epA else s.lookup.epB
def State.updEpochs (s : State) (p : Nat) (f : Epochs → Epochs) : State :=
  if p = 0 then { s with lookup := { s.lookup with epA := f s.lookup.epA } }
  else { s with lookup := { s.lookup with epB := f s.lookup.epB } }
def State.stagingOf (s : State) (k : Nat) : List Pkt := s.switch.staging.get [] k
def State.updStaging (s : State) (k : Nat) (f : List Pkt → List Pkt) : State :=
  { s with switch := { s.switch with staging := s.switch.staging.upd [] k f } }
def State.inputOf (s : State) (k : Nat) : List Pkt := s.switch.inputs.get [] k
def State.updInput (s : State) (k : Nat) (f : List Pkt → List Pkt) : State :=
  { s with switch := { s.switch with inputs := s.switch.inputs.upd [] k f } }
def State.outputOf (s : State) (k : Nat) : List Pkt := s.switch.outputs.get [] k
def State.updOutput (s : State) (k : Nat) (f : List Pkt → List Pkt) : State :=
  { s with switch := { s.switch with outputs := s.switch.outputs.upd [] k f } }

/-! ### Ownership (R48, R49) -/

/-- PARTITION is ON. -/
def State.partOn (s : State) : Bool := s.isOn .partition

/-- The partition as which a function acts: A, or the device, unless PARTITION is ON. -/
def State.partOf (s : State) (fn : Nat) : Nat := if s.partOn then fn else 0

/-- Partition of a line lane group under the split in force. -/
def State.groupPart (s : State) (g : Nat) : Nat := if s.partOn && bit s.modes.split g then 1 else 0

/-- Partition of a line port: that of its lane group. -/
def State.portPart (s : State) (p : Nat) : Nat := s.groupPart (p / 8)

/-- Partition of a resource of which B owns the indices from `half` up. -/
def State.halfPart (s : State) (half i : Nat) : Nat := if s.partOn && half ≤ i then 1 else 0

/-- Partition of a queue or multicast group. -/
def State.queuePart (s : State) (q : Nat) : Nat := s.halfPart 0x80000 q

/-- Does the unit take the partition's side effects: the claim's holder, or TWIN not ON yet (R341)? -/
def State.holds (s : State) (p : Nat) : Bool :=
  (s.mode .twin).st == .off || (s.mode .twin).st == .starting || (s.claim p).active

/-- Epoch number of a commit index (R141, R151): counted from the base modulo 4,096, or within the 2,048 numbers that a partition
owns, less the numbers that were passed over. -/
def State.epochNum (s : State) (p ix : Nat) : Nat :=
  let e := s.epochs p
  e.base + (ix - e.origin + (e.skips.filter (· ≤ ix)).length) % (if s.partOn then 2048 else 4096)

end Sys2Proof.Machine
end

