-- ==== Sys2Proof/Machine/Flags.lean ====
section
/-! DEFINITION. What the block tells the host unasked: counters (R417 to R422), MSI-X messages (R362, R371), event
records and their overflow markers (R386 to R389), the fatal latch (R461), and completion entries (R379). -/

namespace Sys2Proof.Machine

/-! ### Counters -/

/-- A counter by set, kind and item (R417). -/
structure CtrName where
  set : Nat
  kind : Nat
  item : Nat
deriving DecidableEq, Repr

/-- Key of a counter in the state: INSTANCE is kind and index (R417). -/
def ctrKey (set inst item : Nat) : Nat := (set * 0x10000000 + inst) * 256 + item

/-- INSTANCE of an entity's index under a kind. -/
def CtrName.inst (c : CtrName) (ix : Nat) : Nat := c.kind * 0x1000000 + ix

/-- What an INSTANCE index counts: it fixes how many there are and who owns them (R417, R48). -/
inductive Entity where
  | lane | port | port74 | queue | policer | part | routeClass | reasonPart | pairPart | puntRing | injectRing
  | eventRing | cmdRing | slot | pool | output | linkGroup | single | profile | mcGroup | slice | tile | xptGmp | xptTrib
  | xptVc4 | xptClient | pseudoChan | xmRank | memChan | tsQueue
deriving DecidableEq, Repr

/-- Number of instances of an entity kind. -/
def Entity.count : Entity → Nat
  | .lane => 152 | .port => 48 | .port74 => 74 | .queue => 0x100000 | .policer => 0x200000 | .part => 2
  | .routeClass => 512 | .reasonPart => 272 | .pairPart => 512 | .puntRing => 32 | .injectRing => 32
  | .eventRing => 16 | .cmdRing => 64 | .slot => 8 | .pool => 32 | .output => 32 | .linkGroup => 26
  | .single => 1 | .profile => 16 | .mcGroup => 0x100000 | .slice => 8 | .tile => 16 | .xptGmp => 240 | .xptTrib => 192
  | .xptVc4 => 49152 | .xptClient => 48 | .pseudoChan => 128 | .xmRank => 32 | .memChan => 72 | .tsQueue => 4

/-- Entity kinds of each set in the order of their definition, with the number of items of each (R417 and the rules it
names). -/
def ctrKinds : Nat → List (Entity × Nat)
  | 0x01 => [(.port, 19)]
  | 0x02 => [(.lane, 3), (.port74, 3)]
  | 0x03 => [(.xptGmp, 1), (.xptTrib, 1), (.xptVc4, 3), (.xptClient, 3)]
  | 0x04 => [(.port, 16)]
  | 0x05 => [(.profile, 2), (.part, 4)]
  | 0x06 => [(.port, 5)]
  | 0x07 => [(.routeClass, 2)]
  | 0x08 => [(.port, 4)]
  | 0x09 => [(.reasonPart, 5)]
  | 0x0A => [(.puntRing, 3)]
  | 0x0B => [(.injectRing, 2)]
  | 0x0C => [(.mcGroup, 6)]
  | 0x0D => [(.part, 1)]
  | 0x0E => [(.pool, 2), (.part, 6), (.port, 4), (.single, 4), (.output, 1)]
  | 0x0F => [(.linkGroup, 6)]
  | 0x10 => [(.queue, 6), (.port, 6)]
  | 0x11 => [(.queue, 3), (.part, 3), (.port, 2)]
  | 0x12 => [(.policer, 6)]
  | 0x13 => [(.pseudoChan, 3), (.xmRank, 3), (.memChan, 1), (.part, 2)]
  | 0x14 => [(.single, 1), (.tsQueue, 1), (.port, 2)]
  | 0x15 => [(.pairPart, 2), (.port, 1), (.single, 3), (.injectRing, 1), (.part, 1)]
  | 0x16 => [(.eventRing, 1), (.cmdRing, 2), (.single, 1)]
  | 0x17 => [(.slot, 4)]
  | 0x30 => [(.slice, 13)]
  | 0x31 => [(.tile, 4)]
  | 0x32 => [(.slice, 1), (.part, 3)]
  | _ => []

/-- Partition that owns an instance; shared instances belong to A (R417, R48, R49). -/
def State.entityPart (s : State) (e : Entity) (ix : Nat) : Nat :=
  if !s.partOn then 0 else
  match e with
  | .lane => if ix < 48 then s.portPart ix else 0
  | .port74 => if ix < 48 then s.portPart ix else 0
  | .port => s.portPart ix
  | .queue => s.halfPart 0x80000 ix
  | .mcGroup => s.halfPart 0x80000 ix
  | .policer => s.halfPart 0x100000 ix
  | .part => ix
  | .routeClass => ix / 256
  | .reasonPart => ix / 256
  | .pairPart => ix / 256
  | .puntRing => s.halfPart 16 ix
  | .injectRing => s.halfPart 16 ix
  | .eventRing => s.halfPart 8 ix
  | .cmdRing => s.halfPart 32 ix
  | .slot => s.halfPart 4 ix
  | .pool => s.halfPart 16 ix
  | .profile => s.halfPart 8 ix
  | .tile => s.halfPart 8 ix
  | .xptGmp => s.groupPart (ix / 40)
  | .xptTrib => s.groupPart (ix / 32)
  | .xptVc4 => s.groupPart (ix / 8192)
  | .xptClient => s.groupPart (ix / 8)
  | .xmRank => if 16 ≤ ix then 1 else 0
  | .memChan => if 4 ≤ ix ∧ ix < 8 then 1 else 0
  | _ => 0

/-- Both partitions use the instance: it belongs to A, and B may read it (R49, R417). -/
def entityShared (e : Entity) (ix : Nat) : Bool :=
  match e with
  | .lane => decide (48 ≤ ix)
  | .port74 => decide (48 ≤ ix)
  | .output => true
  | .linkGroup => true
  | .single => true
  | .slice => true
  | .tsQueue => true
  | .pseudoChan => true
  | .memChan => decide (8 ≤ ix)
  | _ => false

/-- Entity kind and item count of a set's INSTANCE, when the kind exists. -/
def ctrKind (set inst : Nat) : Option (Entity × Nat) := (ctrKinds set)[inst / 0x1000000]?

/-- Partition of a counter (R417). -/
def State.ctrPart (s : State) (set inst : Nat) : Nat :=
  match ctrKind set inst with
  | some (e, _) => s.entityPart e (inst % 0x1000000)
  | none => 0

/-- Counters of 32 bits that saturate and hold no backing (R417, R418, R420). -/
def ctr32 (set inst : Nat) : Bool := set == 2 || set == 3 || (set == 0x16 && inst / 0x1000000 == 2)

/-- Largest value of a 64-bit and of a 32-bit counter. -/
def max64 : Nat := 2 ^ 64 - 1
def max32 : Nat := 2 ^ 32 - 1

/-- Value that a read returns (R419). -/
def Ctr.value (c : Ctr) (sat : Bool) : Nat := if sat then min (c.backing + c.acc) max64 else (c.backing + c.acc) % 2 ^ 64

/-- The accumulator adds itself to the backing word; `true` when COUNTER_SATURATED is to be raised (R418, R420). -/
def Ctr.flush (c : Ctr) (sat : Bool) : Ctr × Bool :=
  if sat && decide (max64 < c.backing + c.acc) then ({ c with backing := max64, acc := 0, spent := true }, !c.spent)
  else ({ c with backing := (c.backing + c.acc) % 2 ^ 64, acc := 0 }, false)

/-- `n` increments of a 64-bit counter: a flush when the accumulator reaches 2^23 (R418). -/
def Ctr.add (c : Ctr) (sat : Bool) (n : Nat) : Ctr × Bool :=
  let c := { c with acc := c.acc + n }
  if 0x800000 ≤ c.acc then c.flush sat else (c, false)

/-- `n` increments of a 32-bit saturating counter (R420). -/
def Ctr.add32 (c : Ctr) (n : Nat) : Ctr := { c with backing := min (c.backing + n) max32 }

/-- Is the set in SATURATE mode for the partition (R420)? -/
def State.satMode (s : State) (set p : Nat) : Bool := s.tele.saturate.get false (set * 2 + p)

def State.ctr (s : State) (set inst item : Nat) : Ctr := s.tele.ctrs.get {} (ctrKey set inst item)
def State.setCtr (s : State) (set inst item : Nat) (c : Ctr) : State :=
  { s with tele := { s.tele with ctrs := s.tele.ctrs.put {} (ctrKey set inst item) c } }

/-- Increments without an event. -/
def State.bumpQuiet (s : State) (set inst item n : Nat) : State × Bool :=
  if ctr32 set inst then (s.setCtr set inst item ((s.ctr set inst item).add32 n), false)
  else
    let r := (s.ctr set inst item).add (s.satMode set (s.ctrPart set inst)) n
    (s.setCtr set inst item r.1, r.2)

/-! ### MSI-X and the fatal latch -/

/-- One MSI-X message of a function: a masked vector, or one that the link cannot carry, stays pending (R362, R364, R371). -/
def State.sendVector (s : State) (fn v : Nat) : State :=
  s.updFunc fn fun p =>
    { p with msix := p.msix.upd {} v fun m =>
        if m.masked || !p.busMaster || !s.host.linkUp then { m with pending := true } else { m with sent := m.sent + 1 } }

/-- Signal a new entry of a completion or event ring (R371). -/
def State.signalRing (s : State) (fn r : Nat) : State :=
  let g := s.ring fn r
  if !g.intEn then s
  else if s.partOn && decide (128 ≤ g.vector) then s.updRing fn r fun g => { g with err := 4 }
  else if g.modUs = 0 then s.sendVector fn g.vector
  else s.updRing fn r fun g => { g with unsignalled := some (g.unsignalled.getD s.cyc) }

/-- SMB_FATAL, SMB_FATAL_S and SMB_FATAL_NS take these values (R461). -/
def State.setFatal (s : State) (w sec ns : Nat) : State :=
  (((s.setReg 0x03C00004 w).setReg 0x03C00008 sec).setReg 0x03C0000C ns).markSet 0x03C00004 0x80000000

/-- Latch SMB_FATAL at the first cause while VALID is 0; a later cause is remembered for the case that VALID is cleared in its own
cycle (R461). -/
def State.latchFatal (s : State) (src code : Nat) (ringFail : Bool) : State :=
  let w := 0x80000000 + b2n ringFail * 0x40000000 + code * 256 + src
  if bit (s.reg 0x03C00004) 31 then
    { s with latch := { s.latch with late := some (s.cyc, w, secOf s.now % 2 ^ 32, nsOf s.now) } }
  else s.setFatal w (secOf s.now % 2 ^ 32) (nsOf s.now)

/-- VALID has been written: a cause of this very cycle is latched (R461). -/
def State.relatch (s : State) : State :=
  match s.latch.late with
  | none => s
  | some (c, w, sec, ns) => if c = s.cyc ∧ !bit (s.reg 0x03C00004) 31 then s.setFatal w sec ns else s

/-- FATAL_VEC of PF0, and of PF1 while PARTITION is ON (R389). -/
def State.raiseFatalVec (s : State) : State :=
  let s := s.sendVector 0 (s.func 0).fatalVec
  if s.partOn then s.sendVector 1 (s.func 1).fatalVec else s

/-! ### Event rings -/

/-- Entries of a device-written ring that the host has not consumed. -/
def Ring.unconsumed (g : Ring) : Nat := (g.devIndex + 2 ^ 32 - g.hostIndex) % 2 ^ 32

/-- The ring has a free entry. -/
def Ring.hasRoom (g : Ring) : Bool := decide (g.unconsumed < 2 ^ g.log2)

/-- PHASE of the entry about to be written (R371). -/
def Ring.phase (g : Ring) : Nat := 1 - (g.devIndex / 2 ^ g.log2) % 2

/-- The device may write host memory for the function (R364). -/
def State.canWrite (s : State) (fn : Nat) : Bool := (s.func fn).busMaster && s.host.linkUp

/-- Index of local event ring `n` among the ring records. -/
def evtRing (n : Nat) : Nat := 128 + n

/-- Write one record at DEV_INDEX and signal it. -/
def State.writeEvt (s : State) (fn r : Nat) (e : Evt) : State :=
  (s.updRing fn r fun g =>
    { g with evts := g.evts ++ [{ e with phase := g.phase }], devIndex := (g.devIndex + 1) % 2 ^ 32 }).signalRing fn r

/-- A record that no entry takes: it joins the ring's overflow marker; the first loss of a RUNNING ring raises FATAL_VEC
(R388, R389). -/
def State.dropEvt (s : State) (fn r : Nat) (e : Evt) : State :=
  let g := s.ring fn r
  let s := s.updRing fn r fun g =>
    { g with discard := some (match g.discard with | none => (e, 1) | some (f, n) => (f, n + 1)) }
  if g.st == .running && !g.ringFail then
    ((s.updRing fn r fun g => { g with ringFail := true }).latchFatal 0 0 true).raiseFatalVec
  else s

/-- Offer a record to an event ring; `true` when it is discarded (R388). -/
def State.pushEvt (s : State) (fn r : Nat) (e : Evt) : State × Bool :=
  let g := s.ring fn r
  if g.st != .running || !(s.func fn).busMaster then (s.dropEvt fn r e, true)
  else if g.discard.isNone && g.heldEvts.isEmpty && g.hasRoom && s.canWrite fn then (s.writeEvt fn r e, false)
  else if g.discard.isNone && decide (g.heldEvts.length < 256) then
    (s.updRing fn r fun g => { g with heldEvts := g.heldEvts ++ [e] }, false)
  else (s.dropEvt fn r e, true)

/-- The overflow marker of a run of discarded records (R388). -/
def markerOf (e : Evt) (n : Nat) : Evt := { e with kind := 3, inst := 0, payload := n % 2 ^ 32, st := true, fatal := false }

/-- Write one held record, or the overflow marker once none is held. -/
def State.drainEvt1 (s : State) (fn r : Nat) : State :=
  let g := s.ring fn r
  if g.st == .running && g.hasRoom && s.canWrite fn then
    match g.heldEvts, g.discard with
    | e :: t, _ => (s.updRing fn r fun g => { g with heldEvts := t }).writeEvt fn r e
    | [], some (e, n) =>
      (s.updRing fn r fun g => { g with discard := none, ringFail := false }).writeEvt fn r (markerOf e n)
    | [], none => s
  else s

/-- Write held records and the marker as entries are free: at most 256 and one. -/
def State.drainEvts (s : State) (fn r : Nat) : Nat → State
  | 0 => s
  | n + 1 => (s.drainEvt1 fn r).drainEvts fn r n

/-- A named event: source block and code (R387, R416, R431, R448). -/
structure EvName where
  src : Nat
  code : Nat
  fatal : Bool := false
deriving DecidableEq, Repr

/-- The record of an event that occurs now (R386). -/
def State.evtOf (s : State) (e : EvName) (inst payload : Nat) (st : Bool) : Evt :=
  { kind := 1, source := e.src, event := e.code, st := st, fatal := e.fatal, timeS := secOf s.now % 2 ^ 48,
    timeNs := nsOf s.now, timeFrac := fracOf s.now, inst := inst % 2 ^ 32, payload := payload % 2 ^ 320 }

/-- The event ring of partition `p` that the source's HIF_EVT_ROUTE names: function and ring record (R388). -/
def State.routeOf (s : State) (p src : Nat) : Nat × Nat :=
  let fn := if s.partOn then p else 0
  (fn, evtRing ((s.func fn).evtRoute.get 0 src))

/-- Device number of a function's event ring (R367). -/
def evtRingIx (fn r : Nat) : Nat := (r - 128) + 8 * fn

/-- Send a record to the ring of its source and partition; a discard counts in EVT_DISCARD. -/
def State.sendEvt (s : State) (p : Nat) (e : Evt) : State × Bool :=
  let rt := s.routeOf p e.source
  let r := s.pushEvt rt.1 rt.2 e
  if r.2 then r.1.bumpQuiet 0x16 (evtRingIx rt.1 rt.2) 0 1 else (r.1, false)

def evCounterSaturated : EvName := ⟨0x30, 1, false⟩
def evCounterLost : EvName := ⟨0x30, 2, false⟩

/-- COUNTER_SATURATED of a counter (R420, R431). -/
def State.raiseSaturated (s : State) (set inst item : Nat) : State :=
  (s.sendEvt (s.ctrPart set inst) (s.evtOf evCounterSaturated set (inst % 2 ^ 32 + item * 2 ^ 32) true)).1

/-- Raise an event on the ring of partition `p` (R386 to R389); a fatal one also latches and raises FATAL_VEC. -/
def State.raiseSt (s : State) (p : Nat) (e : EvName) (inst payload : Nat) (st : Bool) : State :=
  let s := if e.fatal && st then (s.latchFatal e.src e.code false).raiseFatalVec else s
  let rt := s.routeOf p e.src
  let r := s.sendEvt p (s.evtOf e inst payload st)
  if r.2 then r.1.raiseSaturated 0x16 (evtRingIx rt.1 rt.2) 0 else r.1

/-- Raise an event with STATE 1. -/
def State.raise (s : State) (p : Nat) (e : EvName) (inst : Nat := 0) (payload : Nat := 0) : State :=
  s.raiseSt p e inst payload true

/-- `n` increments of a counter (R418, R420). -/
def State.bump (s : State) (c : CtrName) (ix : Nat) (n : Nat := 1) : State :=
  let r := s.bumpQuiet c.set (c.inst ix) c.item n
  if r.2 then r.1.raiseSaturated c.set (c.inst ix) c.item else r.1

/-- `n` increments; none leaves the counter as it is. -/
def State.bumpNz (s : State) (c : CtrName) (ix n : Nat) : State := if n = 0 then s else s.bump c ix n

/-- A packet and byte pair: items `c.item` and the next (R417). -/
def State.bumpPair (s : State) (c : CtrName) (ix bytes : Nat) : State :=
  (s.bump c ix 1).bump { c with item := c.item + 1 } ix bytes

/-! ### Completion rings -/

/-- Record index of completion ring `n`. -/
def compRing (n : Nat) : Nat := 64 + n

/-- Write a completion entry (R371, R379). -/
def State.writeComp (s : State) (fn n : Nat) (c : Comp) : State :=
  (s.updRing fn (compRing n) fun g =>
    { g with comps := g.comps ++ [{ c with phase := g.phase }], devIndex := (g.devIndex + 1) % 2 ^ 32 }).signalRing
    fn (compRing n)

/-- A completion: written when the ring has a free entry and nothing is held before it, held otherwise (R379, R364). -/
def State.pushComp (s : State) (fn n : Nat) (c : Comp) : State :=
  let g := s.ring fn (compRing n)
  if g.st == .running && g.held.isEmpty && g.hasRoom && s.canWrite fn then s.writeComp fn n c
  else s.updRing fn (compRing n) fun g => { g with held := g.held ++ [c] }

/-- Write held completions while entries are free. -/
def State.drainComps (s : State) (fn n : Nat) : Nat → State
  | 0 => s
  | k + 1 =>
    let g := s.ring fn (compRing n)
    if g.st == .running && g.hasRoom && s.canWrite fn then
      match g.held with
      | [] => s
      | c :: t => ((s.updRing fn (compRing n) fun g => { g with held := t }).writeComp fn n c).drainComps fn n k
    else s

/-! ### Host memory (R7) -/

/-- The 32 bytes of a completion entry in host memory, little-endian (R379). -/
def Comp.bytes (c : Comp) : List Byte :=
  leBytes 32 (c.seq % 2 ^ 16 + c.status % 2 ^ 8 * 2 ^ 16 + b2n c.authed * 2 ^ 24 + c.phase % 2 * 2 ^ 31 + c.opcode % 2 ^ 16 * 2 ^ 32
    + c.cookie % 2 ^ 32 * 2 ^ 64 + c.detail % 2 ^ 32 * 2 ^ 96 + c.result % 2 ^ 64 * 2 ^ 128 + c.timeNs % 2 ^ 32 * 2 ^ 192
    + c.timeS % 2 ^ 32 * 2 ^ 224)

/-- The 64 bytes of an event record in host memory, little-endian (R386). -/
def Evt.bytes (e : Evt) : List Byte :=
  leBytes 64 (e.kind % 2 ^ 8 + e.source % 2 ^ 8 * 2 ^ 8 + e.event % 2 ^ 16 * 2 ^ 16 + b2n e.st * 2 ^ 32 + b2n e.fatal * 2 ^ 33
    + e.phase % 2 * 2 ^ 63 + e.timeS % 2 ^ 48 * 2 ^ 64 + e.timeNs % 2 ^ 32 * 2 ^ 112 + e.timeFrac % 2 ^ 16 * 2 ^ 144
    + e.inst % 2 ^ 32 * 2 ^ 160 + e.payload % 2 ^ 320 * 2 ^ 192)

/-- Place entries of `size` bytes in host memory, the last of them just before DEV_INDEX: address and bytes of each. -/
def Ring.place (g : Ring) (size : Nat) (l : List (List Byte)) : List (Nat × List Byte) :=
  l.zipIdx.map fun (b, i) => (g.base.toNat + size * ((g.devIndex + 2 ^ 32 - l.length + i) % 2 ^ g.log2), b)

/-- What the device has written to a completion, event or inject ring in host memory and the host has not consumed. -/
def Ring.image (g : Ring) : List (Nat × List Byte) :=
  g.place 32 (g.comps.map Comp.bytes) ++ g.place 64 (g.evts.map Evt.bytes) ++ g.place 32 (g.injectOut.map fun e => leBytes 32 e.toNat)

/-! ### Names of the events (R387, R416, R448) -/

def evHifBadAccess : EvName := ⟨0x00, 1, false⟩
def evRingDoorbellBad : EvName := ⟨0x00, 2, false⟩
def evRingHostErr : EvName := ⟨0x00, 3, false⟩
def evRingFenced : EvName := ⟨0x00, 4, false⟩
def evRingUnfenced : EvName := ⟨0x00, 5, false⟩
def evAbortDone : EvName := ⟨0x00, 6, false⟩
def evD2dDown : EvName := ⟨0x01, 1, true⟩
def evLinkUp : EvName := ⟨0x02, 1, false⟩
def evLinkDown : EvName := ⟨0x02, 2, false⟩
def evLaneNoPartner : EvName := ⟨0x02, 3, false⟩
def evLaneNoLock : EvName := ⟨0x02, 4, false⟩
def evLanePartnerLost : EvName := ⟨0x02, 5, false⟩
def evLaneLadderStep : EvName := ⟨0x02, 6, false⟩
def evLaneLadderBlocked : EvName := ⟨0x02, 7, false⟩
def evPrbsLockLost : EvName := ⟨0x02, 8, false⟩
def evXptOof : EvName := ⟨0x05, 1, false⟩
def evXptLof : EvName := ⟨0x05, 2, false⟩
def evXptLol : EvName := ⟨0x05, 3, false⟩
def evXptServer : EvName := ⟨0x05, 4, false⟩
def evXptLop : EvName := ⟨0x05, 5, false⟩
def evXptPlm : EvName := ⟨0x05, 6, false⟩
def evXptLoa : EvName := ⟨0x05, 7, false⟩
def evXptLfd : EvName := ⟨0x05, 8, false⟩
def evPmBinClosed : EvName := ⟨0x05, 9, false⟩
def evEpochStall : EvName := ⟨0x0A, 1, false⟩
def evTcamRepair : EvName := ⟨0x0A, 2, false⟩
def evTablePoisoned : EvName := ⟨0x0A, 3, false⟩
def evEmStashHigh : EvName := ⟨0x0A, 4, false⟩
def evBywayRingShort : EvName := ⟨0x0C, 1, false⟩
def evInnFreeTwice : EvName := ⟨0x10, 1, false⟩
def evInnFreeNotOwner : EvName := ⟨0x10, 2, false⟩
def evInnPoolEmpty : EvName := ⟨0x10, 3, false⟩
def evInnCellarFull : EvName := ⟨0x10, 4, false⟩
def evLedgerExtended : EvName := ⟨0x14, 1, false⟩
def evLedgerLate : EvName := ⟨0x14, 2, false⟩
def evGateListStarted : EvName := ⟨0x14, 3, false⟩
def evGateListSuspended : EvName := ⟨0x14, 4, false⟩
def evFabLinkUp : EvName := ⟨0x1C, 1, false⟩
def evFabLinkDown : EvName := ⟨0x1C, 2, false⟩
def evFabNoCommon : EvName := ⟨0x1C, 3, false⟩
def evFabCreditStall : EvName := ⟨0x1C, 4, false⟩
def evMemStackFail : EvName := ⟨0x20, 1, true⟩
def evMemTrainFail : EvName := ⟨0x20, 2, false⟩
def evMemRetrainWarn : EvName := ⟨0x20, 3, false⟩
def evMemTempHot : EvName := ⟨0x20, 4, false⟩
def evMemTempNormal : EvName := ⟨0x20, 5, false⟩
def evMemUe : EvName := ⟨0x20, 6, false⟩
def evMemRoomRetired : EvName := ⟨0x20, 7, false⟩
def evMemRetireFull : EvName := ⟨0x20, 8, false⟩
def evTimeStepped : EvName := ⟨0x28, 1, false⟩
def evTimePpsCaptured : EvName := ⟨0x28, 2, false⟩
def evTimeAligned : EvName := ⟨0x28, 3, false⟩
def evTimeUnaligned : EvName := ⟨0x28, 4, false⟩
def evTimeHoldover : EvName := ⟨0x28, 5, false⟩
def evTimeFollowerErr : EvName := ⟨0x28, 6, false⟩
def evTsQueueHigh : EvName := ⟨0x28, 7, false⟩
def evTwinConfigBad : EvName := ⟨0x2C, 1, false⟩
def evTwinPairUp : EvName := ⟨0x2C, 2, false⟩
def evTwinPathLost : EvName := ⟨0x2C, 3, false⟩
def evTwinPathRestored : EvName := ⟨0x2C, 4, false⟩
def evTwinPeerFailed : EvName := ⟨0x2C, 5, false⟩
def evTwinClaimTaken : EvName := ⟨0x2C, 6, false⟩
def evTwinClaimLost : EvName := ⟨0x2C, 7, false⟩
def evTwinGrantLost : EvName := ⟨0x2C, 8, false⟩
def evTwinLockChange : EvName := ⟨0x2C, 9, false⟩
def evTwinDiverged : EvName := ⟨0x2C, 10, false⟩
def evTwinConverged : EvName := ⟨0x2C, 11, false⟩
def evTwinVersion : EvName := ⟨0x2C, 12, false⟩
def evTwinTimeAlarm : EvName := ⟨0x2C, 13, false⟩
def evTwinSeqSearch : EvName := ⟨0x2C, 14, false⟩
def evTwinSeqAligned : EvName := ⟨0x2C, 15, false⟩
def evNwFail : EvName := ⟨0x2C, 16, false⟩
def evPwrDomainDrained : EvName := ⟨0x34, 1, false⟩
def evThermWarn : EvName := ⟨0x34, 2, false⟩
def evThermThrottle : EvName := ⟨0x34, 3, false⟩
def evThermShutdown : EvName := ⟨0x34, 4, true⟩
def evThermSensorFail : EvName := ⟨0x34, 5, false⟩
def evAuthRejected : EvName := ⟨0x38, 1, false⟩
def evKeyInstalled : EvName := ⟨0x38, 2, false⟩
def evKeyCleared : EvName := ⟨0x38, 3, false⟩
def evFuseBurnt : EvName := ⟨0x38, 4, false⟩

end Sys2Proof.Machine
end

