-- ==== Sys2Proof/Machine/Operands.lean ====
section
/-! DEFINITION. Operand forms: the command descriptor and its extension (R372, R373), payload fields (R383, R384), status
codes (R380), the passport's bits (R28), and the numbers that name transport entities (R115). -/

namespace Sys2Proof.Machine

/-! ### Status codes (R380) -/

def stOk : Nat := 0x00
def stDuplicate : Nat := 0x01
def stSkipped : Nat := 0x02
def stAborted : Nat := 0x03
def stAuthFail : Nat := 0x04
def stReplay : Nat := 0x05
def stOvercommit : Nat := 0x06
def stBadArg : Nat := 0x07
def stNoSpace : Nat := 0x08
def stVersion : Nat := 0x09
def stProtected : Nat := 0x0A
def stMemErr : Nat := 0x0B
def stTimeout : Nat := 0x0C
def stWaiting : Nat := 0x0D
def stNotClaimed : Nat := 0x0E
def stFenced : Nat := 0x0F

/-! ### Descriptors (R372, R373) -/

def Desc.f (d : Desc) (lo w : Nat) : Nat := bits d.raw.toNat lo w
def Desc.opcode (d : Desc) : Nat := d.f 0 16
def Desc.auth (d : Desc) : Bool := bit d.raw.toNat 16
def Desc.ordered (d : Desc) : Bool := bit d.raw.toNat 17
def Desc.inline (d : Desc) : Bool := bit d.raw.toNat 18
def Desc.seq (d : Desc) : Nat := d.f 32 16
def Desc.count (d : Desc) : Nat := d.f 48 16
def Desc.payloadAddr (d : Desc) : Nat := d.f 64 64
def Desc.payloadLen (d : Desc) : Nat := d.f 128 32
def Desc.cookie (d : Desc) : Nat := d.f 160 32
def Desc.respAddr (d : Desc) : Nat := d.f 192 64
def Desc.respLen (d : Desc) : Nat := d.f 256 32
def Desc.arg (d : Desc) : Nat := d.f 288 32
def Desc.inlineData (d : Desc) : Nat := d.f 320 192

/-- Entries of the command: COUNT 0 and 1 both mean one. -/
def Desc.entries (d : Desc) : Nat := if d.count ≤ 1 then 1 else d.count

def Desc.extF (d : Desc) (lo w : Nat) : Nat := bits (d.ext.getD 0).toNat lo w
def Desc.keySlot (d : Desc) : Nat := d.extF 0 3
def Desc.counter (d : Desc) : Nat := d.extF 64 64
def Desc.tag (d : Desc) : Nat := d.extF 128 128

/-- Fields of R372 and R373 that must be 0, addresses that must be aligned, and lengths. `reads` says that the opcode has a
response (R376). -/
def Desc.formatOk (d : Desc) : Bool :=
  d.f 19 13 == 0 && d.arg == 0
    && (if d.inline then decide (d.payloadLen ≤ 24) && d.payloadAddr == 0
          && d.inlineData < 2 ^ (8 * d.payloadLen)
        else d.inlineData == 0 && (d.payloadLen != 0 || d.payloadAddr == 0))
    && d.payloadAddr % 8 == 0 && decide (d.payloadLen ≤ 1048576) && d.respAddr % 8 == 0
    && (!d.auth || (d.extF 3 61 == 0 && d.extF 256 256 == 0))

/-- Payload of the command as a number, from the descriptor or from the bytes that the host's memory returns; `none` when the
read of host memory fails (R376). -/
def Desc.payload (d : Desc) (mem : Option (List Byte)) : Option Nat :=
  if d.inline then some d.inlineData
  else if d.payloadLen = 0 then some 0
  else match mem with
    | none => none
    | some bs => if bs.length = d.payloadLen then some (leNat bs) else none

/-- Length rounded up to whole 8-byte words (R383). -/
def pad8 (n : Nat) : Nat := (n + 7) / 8 * 8

/-! ### Passport (R28) -/

/-- The 256 bits of a passport. -/
def Passport.encode (p : Passport) : Nat :=
  p.version % 16 + (p.kind % 16) <<< 4 + (p.epoch % 4096) <<< 8 + (p.colour % 4) <<< 20 + (b2n p.de) <<< 22
    + (p.ecn % 4) <<< 23 + (p.tc % 8) <<< 25 + (p.dclass % 16) <<< 28 + (p.queue % 2 ^ 20) <<< 32
    + (p.dest % 2 ^ 20) <<< 52 + (p.length % 2 ^ 16) <<< 72 + (p.inPort % 256) <<< 88 + (p.pairId % 256) <<< 96
    + (p.claim % 256) <<< 104 + (p.seq % 2 ^ 40) <<< 112 + (p.hash % 2 ^ 32) <<< 152 + (p.tns % 2 ^ 32) <<< 184
    + (p.tsec % 256) <<< 216 + (p.edit % 2 ^ 24) <<< 224

/-- The fields of 256 passport bits; reserved bits are dropped (R29). -/
def Passport.decode (x : Nat) : Passport :=
  { version := bits x 0 4, kind := bits x 4 4, epoch := bits x 8 12, colour := bits x 20 2, de := bit x 22
    ecn := bits x 23 2, tc := bits x 25 3, dclass := bits x 28 4, queue := bits x 32 20, dest := bits x 52 20
    length := bits x 72 16, inPort := bits x 88 8, pairId := bits x 96 8, claim := bits x 104 8, seq := bits x 112 40
    hash := bits x 152 32, tns := bits x 184 32, tsec := bits x 216 8, edit := bits x 224 24 }

/-- Destination port and endpoint of a passport whose kind is not multicast. -/
def Passport.port (p : Passport) : Nat := p.dest % 256
def Passport.endpoint (p : Passport) : Nat := p.dest / 256

/-- A destination from endpoint and port. -/
def mkDest (endpoint port : Nat) : Nat := endpoint % 4096 * 256 + port % 256

/-- Passport kinds (R28). -/
def kindUnicast : Nat := 0
def kindMulticast : Nat := 1
def kindPunt : Nat := 2
def kindInject : Nat := 3
def kindMirror : Nat := 4

/-- Version 1 and a kind that is not reserved (R29). -/
def Passport.good (p : Passport) : Bool := p.version == 1 && decide (p.kind ≤ 4)

/-! ### Bytes of a frame -/

/-- Byte `i` of a list, 0 beyond its end. -/
def byteAt (bs : List Byte) (i : Nat) : Nat := (bs.getD i 0).toNat

/-- 16 bits in network order at byte `i`. -/
def be16 (bs : List Byte) (i : Nat) : Nat := byteAt bs i * 256 + byteAt bs (i + 1)

/-- `n` bytes from byte `i`. -/
def slice (bs : List Byte) (i n : Nat) : List Byte := (bs.drop i).take n

/-- Overwrite bytes from byte `i`. -/
def patch (bs : List Byte) (i : Nat) (new : List Byte) : List Byte :=
  bs.take i ++ new ++ bs.drop (i + new.length)

/-! ### Transport entities (R115, R385) -/

/-- ENTITY: group [2:0], layer [6:3], index [19:7]. -/
def mkEnt (group layer index : Nat) : Nat := group + layer * 8 + index * 128
def entGroup (e : Nat) : Nat := bits e 0 3
def entLayer (e : Nat) : Nat := bits e 3 4
def entIndex (e : Nat) : Nat := bits e 7 13

end Sys2Proof.Machine
end

