-- ==== Sys2Proof/Machine/Rings.lean ====
section
/-! DEFINITION. How a command ring executes its head descriptor: the seven steps of R374, the SEQ check (R375), fencing
(R406, R407), authentication (R394 to R403), batches (R377), waiting commands (R378) and completions (R379). The family
files give each opcode its `OpSpec`; a row of the table then runs `runCommand` with it. -/

namespace Sys2Proof.Machine

/-- A command in its own execution (R374 step 7). -/
structure Cmd where
  fn : Nat
  ring : Nat
  /-- Partition as which it acts. -/
  part : Nat
  desc : Desc
  seq : Nat := 0
  /-- KEY_SLOT and COUNTER, for the key commands (R396). -/
  keySlot : Nat := 0
  counter : Nat := 0
deriving DecidableEq, Repr

/-- What a command's own execution answers: it is over, with status, DETAIL, RESULT and response bytes; or it waits. -/
inductive Out where
  | done (s : State) (status detail result : Nat) (resp : List Byte)
  | wait (s : State) (w : Wait)
deriving DecidableEq, Repr

def Out.ok (s : State) : Out := .done s stOk 0 0 []
def Out.okR (s : State) (result : Nat) : Out := .done s stOk 0 result []
def Out.okResp (s : State) (result : Nat) (resp : List Byte) : Out := .done s stOk 0 result resp
def Out.fail (s : State) (status : Nat) : Out := .done s status 0 0 []

/-- What R382 and the owning chapter say of one opcode. -/
structure OpSpec where
  code : Nat
  /-- Bytes of the single-entry payload, read from its own first fields; `none` when they are malformed. -/
  entryLen : State → Nat → Option Nat
  batch : Bool := false
  /-- "A only" in R382. -/
  aOnly : Bool := false
  /-- It has a response at RESP_ADDR. -/
  reads : Bool := false
  /-- Critical for the partition (R398). -/
  critical : State → Nat → Bool := fun _ _ => false
  /-- Authenticated under IK (R394). -/
  underIk : Bool := false
  /-- Response bytes of one entry, for the check of R376; 0 when the entry will be refused. -/
  respLen : State → Cmd → Nat → Nat := fun _ _ _ => 0
  /-- Its own checks and execution on one entry's payload. -/
  body : State → Cmd → Nat → Out

/-- A payload of a fixed number of bytes. -/
def fixedLen (n : Nat) (_ : State) (_ : Nat) : Option Nat := some n

/-- The opcodes of R382. -/
def knownOpcodes : List Nat :=
  [0x0001, 0x0002, 0x0003, 0x0010, 0x0011, 0x0012, 0x0013, 0x0100, 0x0101, 0x0200, 0x0201, 0x0210, 0x0211, 0x0212]
    ++ [0x0300, 0x0301, 0x0400, 0x0401, 0x0402, 0x0403, 0x0404, 0x0405, 0x0500, 0x0501, 0x0502, 0x0503, 0x0600]
    ++ [0x0601, 0x0602, 0x0610, 0x0611, 0x0612, 0x0613, 0x0620, 0x0621, 0x0622, 0x0623, 0x0700, 0x0710, 0x0711]
    ++ [0x0712, 0x0713, 0x0714, 0x0800, 0x0900, 0x0901, 0x0A00, 0x0A01, 0x0A02, 0x0A03, 0x0A10, 0x0B00, 0x0B01, 0x0B02]

/-- FENCE_CLEAR and ABORT ignore their ORDERED bit (R407). -/
def neverSkipped (op : Nat) : Bool := op == 0x0003 || op == 0x0002

/-! ### Completing -/

/-- The completion entry of a descriptor, at the present device time (R379). -/
def State.compOf (s : State) (d : Desc) (status detail result : Nat) (authed : Bool) (resp : List Byte) : Comp :=
  { seq := d.seq, status := status, authed := authed, opcode := d.opcode, cookie := d.cookie, detail := detail
    result := result % 2 ^ 64, timeS := secOf s.now % 2 ^ 32, timeNs := nsOf s.now
    respAddr := if resp.isEmpty then 0 else d.respAddr, resp := resp }

/-- AUTH_FAIL and MEM_ERR fence the ring, record the command and raise RING_FENCED (R406). -/
def State.fence (s : State) (fn n : Nat) (seq status : Nat) : State :=
  if status == stAuthFail || status == stMemErr then
    (s.updRing fn n fun g =>
      { g with st := if g.st == .running then .fenced else g.st, fenceSeq := seq, fenceStatus := status }).raise
      (s.partOf fn) evRingFenced n (seq + status * 65536)
  else s

/-- Complete a descriptor: its completion entry, then the fence (R379, R406). -/
def State.complete (s : State) (fn n : Nat) (d : Desc) (status detail result : Nat) (authed : Bool)
    (resp : List Byte) : State :=
  (s.pushComp fn n (s.compOf d status detail result authed resp)).fence fn n d.seq status

/-- The ring's memory of an accepted command's outcome (R375). -/
def State.remember (s : State) (fn n : Nat) (seq status detail result : Nat) : State :=
  s.updRing fn n fun g => { g with history := ((seq, status, detail, result) :: g.history).take 1024 }

/-- The replay-window entry of an accepted command takes its final status and RESULT (R402). -/
def State.closeWindow (s : State) (slot : Option (Nat × Nat × Nat)) (status result : Nat) : State :=
  match slot with
  | none => s
  | some (k, ctr, tag) => s.updSlot k fun p =>
      { p with window := p.window.map fun e =>
          if e.counter = ctr ∧ e.tag = tag ∧ !e.done then { e with status := status, result := result, done := true }
          else e }

/-- MODE_STATUS.LAST_STATUS (R32). -/
def State.lastStatus (s : State) (st : Nat) : State := { s with modes := { s.modes with lastStatus := st } }

/-- The command in execution on a ring completes; LAST_STATUS takes the status of a SET_MODE (R32). -/
def State.finish1 (s : State) (fn n : Nat) (run : Running) (status detail result : Nat) (resp : List Byte) : State :=
  let s := if run.desc.opcode = 0x0100 then s.lastStatus status else s
  (((s.updRing fn n fun g => { g with running := none, progStatus := 0 }).remember fn n run.seq status detail
    result).closeWindow run.slot status result).complete fn n run.desc status detail result run.authed resp

/-- Rings whose head waits as a DUPLICATE of an authenticated command (R402): function, ring, its entry. -/
def State.dupWaiters (s : State) (slot : Option (Nat × Nat × Nat)) : List (Nat × Nat × Running) :=
  match slot with
  | none => []
  | some (k, ctr, tag) =>
    s.host.fns.flatMap fun (fn, p) => p.rings.filterMap fun (r, g) =>
      match g.running with
      | some run => if run.wait = .duplicate k ctr tag then some (fn, r, run) else none
      | none => none

/-- Complete a running command, and then the duplicates that waited for it (R402). -/
def State.finish (s : State) (fn n : Nat) (run : Running) (status detail result : Nat) (resp : List Byte) : State :=
  (s.dupWaiters run.slot).foldl (fun s w => s.finish1 w.1 w.2.1 w.2.2 stDuplicate status result [])
    (s.finish1 fn n run status detail result resp)

/-! ### Authentication -/

/-- The key slots of a function (R395). -/
def State.ownSlot (s : State) (fn k : Nat) : Bool := !s.partOn || (if fn = 0 then k < 4 else 4 ≤ k)

/-- The install key (R394). -/
def State.installKey (s : State) : List Byte :=
  cmac s.sec.kek (0x01 :: List.replicate 15 0) ++ cmac s.sec.kek (0x02 :: List.replicate 15 0)

/-- The message that a tag covers (R399). -/
def State.tagMessage (s : State) (d : Desc) (payload : Nat) : List Byte :=
  let raw := leBytes 64 d.raw.toNat
  let desc := raw.take 4 ++ List.replicate 2 0 ++ slice raw 6 2 ++ List.replicate 8 0 ++ slice raw 16 4
    ++ List.replicate 12 0 ++ raw.drop 32
  leBytes 8 Config.serial.toNat ++ leBytes 8 s.sec.nonce.toNat ++ desc ++ (leBytes 64 (d.ext.getD 0).toNat).take 16
    ++ (if d.inline then [] else leBytes d.payloadLen payload)

/-- The number of a tag or CMAC, byte 0 least significant, as TAG of R373 holds it. -/
def tagNat (bs : List Byte) : Nat := leNat bs

/-- Outcome of step 5 of R374. -/
inductive AuthRes where
  | pass (s : State) (authed : Bool) (slot : Option (Nat × Nat × Nat))
  | refuse (s : State) (status : Nat) (authed : Bool)
  | dup (s : State) (e : WinEntry) (k : Nat)
deriving DecidableEq, Repr

/-- Count an outcome in the security set of a slot: 0 accepted, 1 AUTH_FAIL, 2 REPLAY, 3 DUPLICATE (R401, R416). -/
def State.countAuth (s : State) (k item : Nat) : State := s.bump ⟨0x17, 0, item⟩ k

/-- AUTH_REJECTED with slot, ring, SEQ and status (R416). -/
def State.raiseRejected (s : State) (fn n slot seq status : Nat) : State :=
  s.raise (s.partOf fn) evAuthRejected slot (n + seq * 256 + status * 2 ^ 24)

/-- Steps 1 to 5 of R401. -/
def State.authenticate (s : State) (fn n : Nat) (d : Desc) (payload : Nat) (critical underIk : Bool) : AuthRes :=
  if !critical && !d.auth then .pass s false none
  else if !d.auth || !s.ownSlot fn d.keySlot then .refuse (s.raiseRejected fn n 0xFF d.seq stAuthFail) stAuthFail false
  else
    let k := d.keySlot
    let key := if underIk then (if s.sec.fuseState = 2 then some s.installKey else none) else (s.slot k).key
    match key with
    | none => .refuse ((s.countAuth k 1).raiseRejected fn n k d.seq stAuthFail) stAuthFail false
    | some key =>
      if tagNat (cmac key (s.tagMessage d payload)) ≠ d.tag then
        .refuse ((s.countAuth k 1).raiseRejected fn n k d.seq stAuthFail) stAuthFail false
      else match (s.slot k).window.find? fun e => e.counter = d.counter ∧ e.tag = d.tag with
        | some e => .dup (s.countAuth k 3) e k
        | none =>
          if d.counter ≤ (s.slot k).last then
            .refuse ((s.countAuth k 2).raiseRejected fn n k d.seq stReplay) stReplay true
          else
            .pass ((s.countAuth k 0).updSlot k fun p =>
              { p with last := d.counter
                       window := ({ counter := d.counter, tag := d.tag : WinEntry } :: p.window).take 64 })
              true (some (k, d.counter, d.tag))

/-! ### Running a command -/

/-- Does the ring report this wait as WAITING_DRAIN (R378)? A SET_MODE before PARTITION's transition begins (R151) and while CELLAR's
drains pages (R39), a commit at the live limit (R143), a gate list behind another (R288) or raising its terms (R263), and a command
that waits for held capacity (R262). -/
def State.reports (s : State) : Wait → Bool
  | .modeTurn _ _ => false
  | .modeDone => s.modes.partWait || s.modes.pageDrain
  | .gateTurn _ => true
  | .gateStart p => (s.gate p).pending.any (·.raising)
  | .capacity => true
  | .commit _ _ since _ => since.isSome
  | .mcast _ _ _ => false
  | .tcamMove _ _ _ => false
  | .discard _ => false
  | .power _ _ _ => false
  | .memTrain _ => false
  | .audit => false
  | .timeStep => false
  | .twinClaim => false
  | .twinRelease => false
  | .abort _ _ => false
  | .duplicate _ _ _ => false

/-- PROGRESS.STATUS of a command that waits (R378). -/
def State.progressOf (s : State) (w : Wait) : Nat := if s.reports w then stWaiting else 0

/-- PROGRESS.STATUS of the ring follows what its command waits for (R378). -/
def State.showProgress (s : State) (fn n : Nat) : State :=
  match (s.ring fn n).running with
  | none => s
  | some run => s.updRing fn n fun g => { g with progStatus := s.progressOf run.wait }

/-- The payload cut into `n` entries, each padded to 8 bytes, filling `len` bytes exactly (R377, R383). -/
def OpSpec.split (sp : OpSpec) (s : State) : Nat → Nat → Nat → Option (List Nat)
  | 0, len, _ => if len = 0 then some [] else none
  | n + 1, len, x =>
    match sp.entryLen s x with
    | none => none
    | some l =>
      if pad8 l ≤ len then
        (sp.split s n (len - pad8 l) (x >>> (8 * pad8 l))).map (x % 2 ^ (8 * pad8 l) :: ·)
      else none

/-- Entries from index `ix` on, each against the state that the ones before it left (R377). `run` is the command's record
without its wait; the answer is the state with the command completed or waiting. -/
def State.runEntries (s : State) (sp : OpSpec) (c : Cmd) (run : Running) : List Nat → Nat → List Byte → State
  | [], ix, resp =>
    s.finish c.fn c.ring run stOk 0 ix resp
  | x :: xs, ix, resp =>
    match sp.body s c x with
    | .wait s' w =>
      s'.updRing c.fn c.ring fun g =>
        { g with running := some { run with wait := w, doneEntries := ix, resp := resp }
                 progStatus := s'.progressOf w }
    | .done s' status detail result r =>
      if run.desc.entries = 1 then s'.finish c.fn c.ring run status detail result r
      else if status = stOk then s'.runEntries sp c run xs (ix + 1) (resp ++ r)
      else s'.finish c.fn c.ring run status ix ix resp

/-- The SEQ check of R375: accepted, a re-post with its index in the history, or neither. -/
inductive SeqRes where
  | accept
  | repost (d : Nat)
  | bad
deriving DecidableEq, Repr

def Ring.seqCheck (g : Ring) (seq : Nat) : SeqRes :=
  match g.lastSeq with
  | none => .accept
  | some l =>
    if seq = (l + 1) % 65536 then .accept
    else
      let d := (l + 65536 - seq) % 65536
      if d < 1024 ∧ d < g.accepted then .repost d else .bad

/-- The ring may begin its next command (R364, R374, R379; D2D_DOWN holds every command, R16). -/
def State.canBegin (s : State) (fn n : Nat) : Bool :=
  let g := s.ring fn n
  (g.st == .running || g.st == .fenced) && g.running.isNone && (s.ring fn (compRing n)).held.isEmpty && s.canWrite fn
    && !s.chip.d2dDown

/-- Version check of R374 step 4. -/
def versionOk (v fn : Nat) (critical auth : Bool) : Bool := 2 ≤ v || (v = 1 && !critical && !auth && fn = 0)

/-- Response bytes of all entries (R376). -/
def OpSpec.totalResp (sp : OpSpec) (s : State) (c : Cmd) (xs : List Nat) : Nat :=
  (xs.map (sp.respLen s c)).foldl (· + ·) 0

/-- Steps 3 to 7 of R374 for an accepted descriptor. -/
def State.runAccepted (s : State) (sp : OpSpec) (fn n : Nat) (d : Desc) (mem : Option (List Byte)) : State :=
  let run : Running := { desc := d, seq := d.seq, wait := .audit, payloadLen := d.payloadLen }
  let v := (s.func fn).chosen
  let part := s.partOf fn
  let crit := sp.critical s part
  let countOk := d.count ≤ 1 || (sp.batch && decide (3 ≤ v) && decide (d.count ≤ 256))
  let fmt := d.formatOk && countOk && (sp.reads || d.respAddr == 0)
  let bad := s.finish fn n run stBadArg 0 0 []
  if !fmt then bad else
  match d.payload mem with
  | none => s.finish fn n run (if versionOk v fn crit d.auth then stMemErr else stVersion) 0 0 []
  | some x =>
    match sp.split s d.entries d.payloadLen x with
    | none => bad
    | some xs =>
      if !versionOk v fn crit d.auth then s.finish fn n run stVersion 0 0 [] else
      match s.authenticate fn n d x crit sp.underIk with
      | .refuse s st authed => s.finish fn n { run with authed := authed } st 0 0 []
      | .dup s e k =>
        if e.done then s.finish fn n { run with authed := true } stDuplicate e.status e.result []
        else s.updRing fn n fun g =>
          { g with running := some { run with authed := true, wait := .duplicate k e.counter e.tag } }
      | .pass s authed slot =>
        let run := { run with authed := authed, slot := slot, payload := x }
        if sp.aOnly && fn == 1 then s.finish fn n run stProtected 0 0 [] else
        let c : Cmd := { fn := fn, ring := n, part := part, desc := d, seq := d.seq, keySlot := d.keySlot
                         counter := d.counter }
        let need := sp.totalResp s c xs
        if d.respLen < need then s.finish fn n run stNoSpace 0 need [] else
        s.runEntries sp c run xs 0 []

/-- Steps 1 and 2 of R374 for the head descriptor, then `k` for an accepted one that is not skipped. -/
def State.runHead (s : State) (fn n : Nat) (k : State → Desc → State) : State :=
  let g := s.ring fn n
  match g.fetched with
  | [] => s
  | d :: rest =>
    let s := s.updRing fn n fun g =>
      { g with fetched := rest, devIndex := (g.devIndex + (if d.auth then 2 else 1)) % 2 ^ 32 }
    match g.seqCheck d.seq with
    | .bad => s.complete fn n d stBadArg 0xFFFFFFFF 0 false []
    | .repost i =>
      let h := g.history.getD i (0, 0, 0, 0)
      s.complete fn n d stDuplicate h.2.1 h.2.2.2 false []
    | .accept =>
      let s := s.updRing fn n fun g =>
        { g with lastSeq := some d.seq, accepted := g.accepted + 1, progSeq := d.seq }
      if g.st == .fenced && d.ordered && !neverSkipped d.opcode then
        (s.bump ⟨0x16, 1, 0⟩ (n + (if s.partOn then 32 * fn else 0))).finish fn n
          { desc := d, seq := d.seq, wait := .audit } stSkipped 0 0 []
      else k s d

/-- Complete descriptors of unknown opcode at the head of the ring (R374 step 3). -/
def State.skipUnknown (s : State) (fn n : Nat) : Nat → State
  | 0 => s
  | k + 1 =>
    match (s.ring fn n).fetched with
    | [] => s
    | d :: _ =>
      if s.canBegin fn n && !knownOpcodes.contains d.opcode then
        (s.runHead fn n fun s d => s.finish fn n { desc := d, seq := d.seq, wait := .audit } stBadArg 0 0 []).skipUnknown
          fn n k
      else s

/-- After a ring has changed: descriptors of unknown opcode complete at once. -/
def State.settle (s : State) (fn n : Nat) : State := s.skipUnknown fn n ((s.ring fn n).fetched.length)

/-- The row of an opcode: the time passes, and the ring's head descriptor executes when it can begin and is of this opcode. -/
def State.runCommand (s : State) (sp : OpSpec) (i : Issue) : State :=
  let s := s.pass i.dt
  match (s.ring i.fn i.ring).fetched with
  | [] => s
  | d :: _ =>
    if d.opcode = sp.code ∧ s.canBegin i.fn i.ring then
      (s.runHead i.fn i.ring fun s d => s.runAccepted sp i.fn i.ring d i.payload).settle i.fn i.ring
    else s

/-- The command in execution on a ring; none while D2D_DOWN holds every outstanding command pending (R16). -/
def State.runningOn (s : State) (fn n : Nat) : Option Running := if s.chip.d2dDown then none else (s.ring fn n).running

/-- A waiting command starts again at its waiting entry, once what it waits for may be over. -/
def State.resume (s : State) (sps : List OpSpec) (fn n : Nat) : State :=
  match s.runningOn fn n with
  | none => s
  | some run =>
    match sps.find? fun sp => sp.code == run.desc.opcode with
    | none => s
    | some sp =>
      match sp.split s run.desc.entries run.payloadLen run.payload with
      | none => s
      | some xs =>
        let c : Cmd := { fn := fn, ring := n, part := s.partOf fn, desc := run.desc, seq := run.seq
                         keySlot := run.desc.keySlot, counter := run.desc.counter }
        (s.runEntries sp c run (xs.drop run.doneEntries) run.doneEntries run.resp).settle fn n

/-- A waiting command whose entry has had its effect goes on with the entry after it. -/
def State.resumeAfter (s : State) (sp : OpSpec) (fn n : Nat) : State :=
  match s.runningOn fn n with
  | none => s
  | some run =>
    if run.desc.entries = 1 then (s.finish fn n run stOk 0 0 []).settle fn n else
    match sp.split s run.desc.entries run.payloadLen run.payload with
    | none => s
    | some xs =>
      let c : Cmd := { fn := fn, ring := n, part := s.partOf fn, desc := run.desc, seq := run.seq
                       keySlot := run.desc.keySlot, counter := run.desc.counter }
      (s.runEntries sp c run (xs.drop (run.doneEntries + 1)) (run.doneEntries + 1) run.resp).settle fn n

/-- A waiting single-entry command completes. -/
def State.endWait (s : State) (fn n : Nat) (status detail result : Nat) (resp : List Byte) : State :=
  match s.runningOn fn n with
  | none => s
  | some run => (s.finish fn n run status detail result resp).settle fn n

/-- Every ring on which a command waits: function, ring, its record. -/
def State.waiting (s : State) : List (Nat × Nat × Running) :=
  s.host.fns.flatMap fun (fn, p) => p.rings.filterMap fun (r, g) => g.running.map fun run => (fn, r, run)

/-- What the command in execution on a ring waits for. -/
def State.waitOf (s : State) (fn n : Nat) : Option Wait := (s.ring fn n).running.map Running.wait

/-- Complete with `status` every command whose wait satisfies `f`. -/
def State.endWaits (s : State) (f : Wait → Bool) (status result : Nat) : State :=
  s.waiting.foldl (fun s w => if f w.2.2.wait then s.endWait w.1 w.2.1 status 0 result [] else s) s

/-- Start again every command whose wait satisfies `f`. -/
def State.resumeWaits (s : State) (sps : List OpSpec) (f : Wait → Bool) : State :=
  s.waiting.foldl (fun s w => if f w.2.2.wait then s.resume sps w.1 w.2.1 else s) s

/-- The next state of a meaning. -/
def ans (s : State) : Host.Outcome State Fault Refusal := .next s

end Sys2Proof.Machine
end

