-- ==== Sys2Proof/Machine/HostIf.lean ====
section
/-! DEFINITION. The host interface of 15_host_rings.md: version negotiation (R365), the function's PCIe state (R361, R364),
MSI-X (R362), doorbells (R370), moderation (R371), progress (R378), bad accesses (R6, R370) and NOP (R382). -/

namespace Sys2Proof.Machine

/-- MW0 and MW2 answer: the reset pins are released and the link is up (R434, R436). -/
def State.hostUp (s : State) : Bool := s.host.linkUp && s.chip.porst && s.chip.sysrst

/-- HIF_BAD_ACCESS of a function (R6, R370, R412): carries the offset. -/
def State.badAccess (s : State) (fn off : Nat) : State := s.raise (s.partOf fn) evHifBadAccess off

/-- Does PF1 serve more than its identity and version registers (R363)? -/
def State.serves (s : State) (fn : Nat) : Bool := fn == 0 || s.partOn

/-- Does the function serve the register at `a`: PF1's HIF_FUNC, HIF_VERSION_OFFER and HIF_VERSION_CHOSEN always (R363, R455)? -/
def State.servesReg (s : State) (fn a : Nat) : Bool := s.serves fn || a == 0 || a == 0x10 || a == 0x14

/-! ### PCIe -/

/-- R361, R434: the link trains at a speed and width that the interface supports. -/
def execPcieLinkTrained (dt speed width : Nat) (s : State) : Host.Outcome State Fault Refusal :=
  let s := s.pass dt
  let live := s.chip.porst && s.chip.sysrst && s.chip.thermal.st != 2
  if live ∧ (speed = 1 ∨ speed = 2 ∨ speed = 3) ∧ (width = 4 ∨ width = 8 ∨ width = 16) then
    let s := { s with host := { s.host with linkUp := true, speed := speed, width := width } }
    let s := (List.range 2).foldl (fun s fn =>
      (List.range 16).foldl (fun s n => s.drainEvts fn (evtRing n) 257) s) s
    ans ((List.range 2).foldl (fun s fn =>
      (List.range 64).foldl (fun s n =>
        (s.drainComps fn n (s.ring fn (compRing n)).held.length).settle fn n) s) s)
  else ans s

/-- R389, R460: the link goes down; nothing more is written to host memory. -/
def execPcieLinkDown (dt : Nat) (s : State) : Host.Outcome State Fault Refusal :=
  let s := s.pass dt
  ans { s with host := { s.host with linkUp := false, speed := 0, width := 0 } }

/-- R364, R392: Bus Master Enable becomes 1; held entries are written. -/
def execBusMasterEnable (dt : Nat) (fn : Fin 2) (s : State) : Host.Outcome State Fault Refusal :=
  let s := (s.pass dt).updFunc fn fun p => { p with busMaster := true }
  let s := (List.range 16).foldl (fun s n => s.drainEvts fn (evtRing n) 257) s
  ans ((List.range 64).foldl (fun s n =>
    (s.drainComps fn n (s.ring fn (compRing n)).held.length).settle fn n) s)

/-- R364: Bus Master Enable becomes 0: no read or write of host memory for the function. -/
def execBusMasterDisable (dt : Nat) (fn : Fin 2) (s : State) : Host.Outcome State Fault Refusal :=
  ans ((s.pass dt).updFunc fn fun p => { p with busMaster := false })

/-- The identity that a function's configuration space holds (R454). -/
def State.identity (s : State) (fn : Nat) : CfgId :=
  { vendor := 0x1F3A
    device := if fn = 0 then 0x4880 else 0x4881
    revision := if s.chip.stepping = 0 then 0x00 else 0x10
    classCode := 0x028000
    subsysVendor := bits s.host.subsys 0 16
    subsysId := (bits s.host.subsys 16 16 + fn) % 0x10000
    multiFunction := true }

/-- R461: the first configuration request after a reset takes SMB_SUBSYS into configuration space. -/
def State.takeSubsys (s : State) : State :=
  if s.host.subsysTaken then s
  else { s with host := { s.host with subsysTaken := true, subsys := s.reg 0x03C00010 } }

/-- R454, R461: a configuration request finds the function's identity. -/
def execConfigurationRequest (dt : Nat) (fn : Fin 2) (s : State) : Host.Outcome State Fault Refusal :=
  let s := (s.pass dt).takeSubsys
  ans { s with host := { s.host with cfgOut := s.identity fn } }

/-- R362: a 32-bit write in the MSI-X table; unmasking a vector sends its pending message. -/
def execMsixTableWrite (dt : Nat) (fn : Fin 2) (off : Fin 4096) (value : Word32) (s : State) :
    Host.Outcome State Fault Refusal :=
  let s := s.pass dt
  let v := off.val / 16
  let w := off.val % 16
  if off.val % 4 ≠ 0 ∨ !s.hostUp then ans s else
  let s := s.updFunc fn fun p => { p with msix := p.msix.upd {} v fun m =>
    if w = 0 then { m with addr := BitVec.ofNat 64 (setBits m.addr.toNat 0 32 value.toNat) }
    else if w = 4 then { m with addr := BitVec.ofNat 64 (setBits m.addr.toNat 32 32 value.toNat) }
    else if w = 8 then { m with data := value }
    else { m with masked := value.getLsbD 0 } }
  let m := (s.func fn).msix.get {} v
  if m.pending && !m.masked && s.canWrite fn then
    ans (s.updFunc fn fun p => { p with msix := p.msix.upd {} v fun m => { m with pending := false, sent := m.sent + 1 } })
  else ans s

/-! ### Version negotiation (R365) -/

/-- Versions that the stepping supports, as SUPPORTED shows them (R4, R365). -/
def State.supported (s : State) : Nat := if s.chip.stepping = 1 then 0x0E else 0x06

/-- The highest version not above `n` whose bit is set in `mask`; 0 when there is none. -/
def highestVersion (mask : Nat) : Nat → Nat
  | 0 => 0
  | n + 1 => if bit mask (n + 1) then n + 1 else highestVersion mask n

/-- All rings of a function are DISABLED. -/
def Func.idle (p : Func) : Bool := p.rings.all fun (_, g) => g.st == .disabled

/-- R365: a write to HIF_VERSION_OFFER chooses the version, unless a ring of the function is not DISABLED. -/
def execVersionOffer (dt : Nat) (fn : Fin 2) (value : Word32) (s : State) : Host.Outcome State Fault Refusal :=
  let s := s.pass dt
  if s.hostUp && (s.func fn).idle then
    let o := value.toNat % 256
    ans (s.updFunc fn fun p => { p with offer := o, chosen := highestVersion s.supported (min o 7) })
  else ans s

/-! ### Doorbells (R370) -/

/-- The ring whose doorbell page was written refuses the value (R370). -/
def State.badDoorbell (s : State) (fn r value : Nat) : State :=
  let g := s.ring fn r
  if g.st == .running || g.st == .fenced then
    (s.updRing fn r fun g => { g with err := 3 }).raise (s.partOf fn) evRingDoorbellBad r value
  else s

/-- A producer index that the ring accepts: neither beyond its size from the consumer nor behind the last one. -/
def Ring.producerOk (g : Ring) (v : Nat) : Bool :=
  decide ((v + 2 ^ 32 - g.devIndex) % 2 ^ 32 ≤ 2 ^ g.log2) && decide ((v + 2 ^ 32 - g.hostIndex) % 2 ^ 32 < 2 ^ 31)

/-- A consumer index between the last accepted one and DEV_INDEX. -/
def Ring.consumerOk (g : Ring) (v : Nat) : Bool :=
  decide ((v + 2 ^ 32 - g.hostIndex) % 2 ^ 32 ≤ g.unconsumed)

/-- Entries that an accepted producer index newly covers. -/
def Ring.newly (g : Ring) (v : Nat) : Nat := (v + 2 ^ 32 - g.hostIndex) % 2 ^ 32

/-- Ring entries read as descriptors; an AUTH descriptor takes its extension with it (R373). The second component is a
descriptor whose extension is not covered yet. -/
def takeDescs : Option (BitVec 512) → List (BitVec 512) → List Desc × Option (BitVec 512)
  | p, [] => ([], p)
  | some d, x :: xs =>
    let r := takeDescs none xs
    ({ raw := d, ext := some x } :: r.1, r.2)
  | none, x :: xs =>
    if x.getLsbD 16 then takeDescs (some x) xs
    else
      let r := takeDescs none xs
      ({ raw := x } :: r.1, r.2)

/-- A failed read of a ring entry stops the ring's fetching (R376). -/
def State.hostErr (s : State) (fn r : Nat) : State :=
  (s.updRing fn r fun g => { g with fetchStop := true, err := 5 }).raise (s.partOf fn) evRingHostErr r

/-- A doorbell page of a function: PF1's are dead while PARTITION is not ON (R363). -/
def State.doorbellLive (s : State) (fn : Nat) : Bool := s.hostUp && s.serves fn

/-- R370 to R373, R376: a doorbell of a command ring. `entries` are the newly covered entries that the device could read. -/
def execCommandDoorbell (dt : Nat) (fn : Fin 2) (ring : Fin 64) (value : BitVec 64) (entries : List (BitVec 512))
    (s : State) : Host.Outcome State Fault Refusal :=
  let s := s.pass dt
  let g := s.ring fn ring
  let v := value.toNat
  if !s.doorbellLive fn || g.st == .disabled || g.st == .stopping then ans s
  else if 2 ^ 32 ≤ v ∨ !g.producerOk v then ans (s.badDoorbell fn ring v)
  else
    let n := g.newly v
    let s := s.updRing fn ring fun g => { g with hostIndex := v }
    if g.fetchStop then ans s else
    let got := entries.take n
    let t := takeDescs g.partialDesc got
    let s := s.updRing fn ring fun g => { g with fetched := g.fetched ++ t.1, partialDesc := t.2 }
    let s := if got.length < n then s.hostErr fn ring else s
    ans (s.settle fn ring)

/-- R370, R379: the host consumes completion entries; held completions are written. -/
def execCompletionDoorbell (dt : Nat) (fn : Fin 2) (ring : Fin 64) (value : BitVec 64) (s : State) :
    Host.Outcome State Fault Refusal :=
  let s := s.pass dt
  let r := compRing ring
  let g := s.ring fn r
  let v := value.toNat
  if !s.doorbellLive fn || g.st == .disabled then ans s
  else if 2 ^ 32 ≤ v ∨ !g.consumerOk v then ans (s.badDoorbell fn r v)
  else
    let s := s.updRing fn r fun g => { g with hostIndex := v, comps := g.comps.drop (g.newly v) }
    ans ((s.drainComps fn ring g.held.length).settle fn ring)

/-- R370, R388: the host consumes event entries; held records and the marker are written. -/
def execEventDoorbell (dt : Nat) (fn : Fin 2) (ring : Fin 16) (value : BitVec 64) (s : State) :
    Host.Outcome State Fault Refusal :=
  let s := s.pass dt
  let r := evtRing ring
  let g := s.ring fn r
  let v := value.toNat
  if !s.doorbellLive fn || g.st == .disabled then ans s
  else if 2 ^ 32 ≤ v ∨ !g.consumerOk v then ans (s.badDoorbell fn r v)
  else
    let s := s.updRing fn r fun g => { g with hostIndex := v, evts := g.evts.drop (g.newly v) }
    ans (s.drainEvts fn r 257)

/-- R370, R390: buffers are posted to a punt ring. -/
def execPuntDoorbell (dt : Nat) (fn : Fin 2) (ring : Fin 32) (value : BitVec 64) (entries : List (BitVec 128))
    (s : State) : Host.Outcome State Fault Refusal :=
  let s := s.pass dt
  let r := 144 + ring.val
  let g := s.ring fn r
  let v := value.toNat
  if !s.doorbellLive fn || g.st == .disabled then ans s
  else if 2 ^ 32 ≤ v ∨ !g.producerOk v then ans (s.badDoorbell fn r v)
  else
    let n := g.newly v
    let s := s.updRing fn r fun g => { g with hostIndex := v }
    if g.fetchStop then ans s else
    let got := entries.take n
    let s := s.updRing fn r fun g => { g with posted := g.posted ++ got.map (·.truncate 64) }
    ans (if got.length < n then s.hostErr fn r else s)

/-- R370, R391: entries are posted to an inject ring. -/
def execInjectDoorbell (dt : Nat) (fn : Fin 2) (ring : Fin 32) (value : BitVec 64) (entries : List (BitVec 256))
    (s : State) : Host.Outcome State Fault Refusal :=
  let s := s.pass dt
  let r := 176 + ring.val
  let g := s.ring fn r
  let v := value.toNat
  if !s.doorbellLive fn || g.st == .disabled then ans s
  else if 2 ^ 32 ≤ v ∨ !g.producerOk v then ans (s.badDoorbell fn r v)
  else
    let n := g.newly v
    let s := s.updRing fn r fun g => { g with hostIndex := v }
    if g.fetchStop then ans s else
    let got := entries.take n
    let s := s.updRing fn r fun g => { g with injects := g.injects ++ got }
    ans (if got.length < n then s.hostErr fn r else s)

/-- R370: any other write to MW2 is discarded and raises HIF_BAD_ACCESS; PF1's writes are discarded while PARTITION is not
ON (R363). -/
def execMw2BadWrite (dt : Nat) (fn : Fin 2) (off _size : Nat) (s : State) : Host.Outcome State Fault Refusal :=
  let s := s.pass dt
  if s.doorbellLive fn then ans (s.badAccess fn off) else ans s

/-- R6: an MW0 access of wrong size or alignment; a write is discarded, a read returns all ones. -/
def execMw0BadAccess (dt : Nat) (fn : Fin 2) (off _size : Nat) (write : Bool) (s : State) :
    Host.Outcome State Fault Refusal :=
  let s := s.pass dt
  if !s.hostUp then ans s
  else if write then ans (s.badAccess fn off)
  else ans ({ s with chip := { s.chip with mw0Read := BitVec.allOnes 32 } }.badAccess fn off)

/-! ### Moderation and progress -/

/-- R371: MOD_US have passed since the first entry not yet signalled: the vector is raised. -/
def execInterruptModerationExpiry (dt : Nat) (fn : Fin 2) (r : Fin 208) (s : State) :
    Host.Outcome State Fault Refusal :=
  let s := s.pass dt
  let g := s.ring fn r
  match g.unsignalled with
  | none => ans s
  | some t =>
    if t + g.modUs * cycUs ≤ s.cyc then
      ans ((s.updRing fn r fun g => { g with unsignalled := none }).sendVector fn g.vector)
    else ans s

/-- R378: a waiting command reports progress: SEQ, 0x0D, TICK one more. -/
def execProgressReport (dt : Nat) (fn : Fin 2) (ring : Fin 64) (s : State) : Host.Outcome State Fault Refusal :=
  let s := s.pass dt
  match (s.ring fn ring).running with
  | none => ans s
  | some run =>
    if s.reports run.wait then
      ans (s.updRing fn ring fun g =>
        { g with progSeq := run.seq, progStatus := stWaiting, progTick := (g.progTick + 1) % 256 })
    else ans s

/-! ### NOP -/

def nopSpec : OpSpec := { code := 0x0001, entryLen := fixedLen 0, body := fun s _ _ => .ok s }

/-- R382: NOP completes OK. -/
def execNop (i : Issue) (s : State) : Host.Outcome State Fault Refusal := ans (s.runCommand nopSpec i)

end Sys2Proof.Machine
end

