-- ==== Sys2Proof/Machine/Security.lean ====
section
/-! DEFINITION. Keys, policy, fuses and FENCE_CLEAR (16_authentication_ordering_abort.md). -/

namespace Sys2Proof.Machine

/-- Always critical (R398). -/
def alwaysCritical : State → Nat → Bool := fun _ _ => true

/-- COMMIT_AUTH policy of a partition (R404). -/
def State.commitAuth (s : State) (p : Nat) : Bool := if p = 0 then s.sec.commitAuthA else s.sec.commitAuthB

/-! ### FENCE_CLEAR (R408) -/

def fenceClearBody (s : State) (c : Cmd) (x : Nat) : Out :=
  let g := s.ring c.fn c.ring
  if bits x 16 48 ≠ 0 then .fail s stBadArg
  else if g.st != .fenced then .ok s
  else if bits x 0 16 = g.fenceSeq then
    .okR ((s.updRing c.fn c.ring fun g => { g with st := .running }).raise c.part evRingUnfenced c.ring g.fenceSeq)
      (g.fenceSeq + 0x10000)
  else .done s stFenced 0 g.fenceSeq []

def fenceClearSpec : OpSpec :=
  { code := 0x0003, entryLen := fixedLen 8, critical := fun s _ => s.partOn, body := fenceClearBody }

/-- R408. -/
def execFenceClear (i : Issue) (s : State) : Host.Outcome State Fault Refusal := ans (s.runCommand fenceClearSpec i)

/-! ### Key slots (R395 to R397) -/

/-- KEY_INSTALL: unwrap under the KEK, replace the slot's key, start its window afresh with this command (R396). -/
def keyInstallBody (s : State) (c : Cmd) (x : Nat) : Out :=
  if bits x 3 61 ≠ 0 ∨ bits x 0 3 ≠ c.keySlot then .fail s stBadArg else
  match keyUnwrap s.sec.kek (leBytes 40 (bits x 64 320)) with
  | none => .fail s stBadArg
  | some key =>
    .ok ((s.updSlot c.keySlot fun p =>
      { p with key := some key, last := c.counter, window := [{ counter := c.counter, tag := c.desc.tag }] }).raise
      c.part evKeyInstalled c.keySlot c.counter)

def keyInstallSpec : OpSpec :=
  { code := 0x0010, entryLen := fixedLen 48, critical := alwaysCritical, underIk := true, body := keyInstallBody }

/-- R396. -/
def execKeyInstall (i : Issue) (s : State) : Host.Outcome State Fault Refusal := ans (s.runCommand keyInstallSpec i)

/-- KEY_CLEAR: empty the slot; its counter and window are kept (R397). -/
def keyClearBody (s : State) (c : Cmd) (x : Nat) : Out :=
  if bits x 3 61 ≠ 0 ∨ bits x 0 3 ≠ c.keySlot then .fail s stBadArg
  else .ok ((s.updSlot c.keySlot fun p => { p with key := none }).raise c.part evKeyCleared c.keySlot)

def keyClearSpec : OpSpec :=
  { code := 0x0011, entryLen := fixedLen 8, critical := alwaysCritical, underIk := true, body := keyClearBody }

/-- R397. -/
def execKeyClear (i : Issue) (s : State) : Host.Outcome State Fault Refusal := ans (s.runCommand keyClearSpec i)

/-- Empty slots 4 to 7 and their windows, keeping the counters (R395). -/
def State.clearUpperSlots (s : State) : State :=
  [4, 5, 6, 7].foldl (fun s k => s.updSlot k fun p => { p with key := none, window := [] }) s

/-! ### Policy and fuse read (R404, R405) -/

def authPolicyBody (s : State) (c : Cmd) (x : Nat) : Out :=
  if bits x 1 63 ≠ 0 then .fail s stBadArg
  else if c.part = 0 then .ok { s with sec := { s.sec with commitAuthA := bit x 0 } }
  else .ok { s with sec := { s.sec with commitAuthB := bit x 0 } }

def authPolicySpec : OpSpec :=
  { code := 0x0012, entryLen := fixedLen 8, critical := alwaysCritical, body := authPolicyBody }

/-- R404. -/
def execAuthPolicySet (i : Issue) (s : State) : Host.Outcome State Fault Refusal := ans (s.runCommand authPolicySpec i)

/-- The 32-byte response: serial, key check value, FUSE_STATE (R405). -/
def State.fuseResponse (s : State) : List Byte :=
  leBytes 32 (Config.serial.toNat + (if s.sec.fuseState = 2 then leNat ((cmac s.sec.kek zero16).take 4) else 0) * 2 ^ 64
    + s.sec.fuseState % 4 * 2 ^ 96)

def fuseReadSpec : OpSpec :=
  { code := 0x0013, entryLen := fixedLen 0, aOnly := true, reads := true, critical := alwaysCritical
    respLen := fun _ _ _ => 32, body := fun s _ _ => .okResp s 0 s.fuseResponse }

/-- R405. -/
def execFuseRead (i : Issue) (s : State) : Host.Outcome State Fault Refusal := ans (s.runCommand fuseReadSpec i)

/-! ### Burning the KEK (R393) -/

/-- R393 step 2: the sideband writes 1 to SEC_FUSE_CTRL.BURN; the write is discarded unless FUSE_STATE is BLANK. -/
def execKekBurn (dt : Nat) (s : State) : Host.Outcome State Fault Refusal :=
  let s := s.pass dt
  if s.chip.sbReady then
    let s := { s with chip := { s.chip with sbStatus := some stOk } }
    if s.sec.fuseState = 0 then ans { s with sec := { s.sec with fuseState := 1, burnStart := s.cyc } } else ans s
  else ans s

/-- The eight words of SEC_KEK_DATA, KEK bits [32 i + 31 : 32 i] in word i. -/
def Sec.kekBytes (c : Sec) : List Byte := (List.range 8).flatMap fun i => leBytes 4 (c.kekData.get 0 i).toNat

/-- R393 steps 3 and 4, R416: the burn is verified, SEC_KEK_DATA cleared, FUSE_BURNT raised. -/
def execFuseBurnDone (dt : Nat) (verified : Bool) (s : State) : Host.Outcome State Fault Refusal :=
  let s := s.pass dt
  if s.sec.fuseState = 1 then
    let st := if verified then 2 else 3
    ans ({ s with sec := { s.sec with kek := if verified then s.sec.kekBytes else [], fuseState := st, kekData := [] } }.raise
      0 evFuseBurnt st)
  else ans s

end Sys2Proof.Machine
end

