-- ==== Sys2Proof/Machine/TimeBase.lean ====
section
/-! DEFINITION. Device time, PPS alignment, PPS_OUT and the transmit-timestamp queues (13_time.md). The activation of a STEP
also acts on bins, bounds and gates and stands in StepTime.lean. -/

namespace Sys2Proof.Machine

/-- MW0 writes of a function reach the block; PF1 is refused while PARTITION is not ON (R363, R6). -/
def State.mw0 (s : State) (fn off : Nat) (k : State → State) : State :=
  if !s.hostUp then s else if !s.serves fn then s.badAccess fn off else k s

/-- A shared register that partition B cannot write (R49). -/
def State.sharedWrite (s : State) (fn off : Nat) (k : State → State) : State :=
  s.mw0 fn off fun s => if fn == 1 then s else k s

/-- MODE_STATUS.APPLIED. -/
def State.applied (s : State) : Bool := s.modes.applied

/-! ### Follower (R311) -/

/-- The follower's error now: an error above 1 ns falls by 0.5 ns per µs from the check that found it. -/
def State.follError (s : State) : Int :=
  let e := s.time.follErr
  let fall : Int := ((s.cyc - s.time.follAt) / cycUs * 32768 : Nat)
  if e.natAbs ≤ 65536 then e else if 0 < e then max 0 (e - fall) else min 0 (e + fall)

/-- The follower's device time (R311, R312). -/
def State.follower (s : State) : Nat := ((s.now : Int) + s.follError).toNat

/-- R311: the error is back within 2 ns: TIME_FOLLOWER_ERR with STATE 0. -/
def execFollowerErrorCleared (dt : Nat) (s : State) : Host.Outcome State Fault Refusal :=
  let s := s.pass dt
  if s.time.follSet && decide (s.follError.natAbs ≤ 131072) then
    ans ({ s with time := { s.time with follSet := false } }.raiseSt 0 evTimeFollowerErr (unsigned 32 s.follError) 0 false)
  else ans s

/-! ### Steps (R313) -/

/-- Decide a STEP: it activates at the first TIME cycle at least 1 µs later, not before a pending one. -/
def State.decideStep (s : State) (cause : Nat) (rel : Int) (target : Option Nat) (owner : Option (Nat × Nat)) : State :=
  let at_ := max (s.cyc + cycUs) ((s.time.steps.map (·.actAt)).foldl max 0)
  { s with time := { s.time with
      steps := s.time.steps ++ [{ cause := cause, rel := rel, abs_ := target, actAt := at_, owner := owner }] } }

/-- TIME_ADJUST (R315). -/
def timeAdjustBody (s : State) (c : Cmd) (x : Nat) : Out :=
  let kind := bits x 0 2
  let amount := mkTime (bits x 64 48) (bits x 112 32) (bits x 144 16)
  let ppb := signed 32 (bits x 32 32)
  if c.part = 1 then .fail s stProtected
  else if kind = 3 ∨ bits x 2 6 ≠ 0 ∨ bits x 9 23 ≠ 0 ∨ bits x 160 32 ≠ 0 ∨ 999999999 < bits x 112 32 then .fail s stBadArg
  else if kind = 2 then
    if 200000 < ppb.natAbs then .fail s stBadArg
    else .ok { s with time := { s.time with freqPpb := ppb } }
  else if kind = 0 then
    .wait (s.decideStep 0 (if bit x 8 then -(amount : Int) else amount) none (some (c.fn, c.ring))) .timeStep
  else .wait (s.decideStep 1 0 (some amount) (some (c.fn, c.ring))) .timeStep

def timeAdjustSpec : OpSpec := { code := 0x0900, entryLen := fixedLen 24, aOnly := true, body := timeAdjustBody }

/-- R315. -/
def execTimeAdjust (i : Issue) (s : State) : Host.Outcome State Fault Refusal := ans (s.runCommand timeAdjustSpec i)

/-- R330: a write of 1 to TIME_INIT_GO decides its STEP, unless APPLIED reads 1 or the nanoseconds are out of range. -/
def execTimeInitGo (dt : Nat) (fn : Fin 2) (value : Word32) (s : State) : Host.Outcome State Fault Refusal :=
  ans ((s.pass dt).sharedWrite fn 0x50004C fun s =>
    let ns := s.reg 0x02800048
    if value.getLsbD 0 && !s.applied && decide (ns ≤ 999999999) && !s.chip.d2dDown then
      s.decideStep 2 0 (some (mkTime (s.reg 0x02800040 + s.reg 0x02800044 * 2 ^ 32) ns 0)) none
    else s)

/-- R330: a write of 1 to TIME_LATCH copies master time. -/
def execTimeLatch (dt : Nat) (fn : Fin 2) (value : Word32) (s : State) : Host.Outcome State Fault Refusal :=
  ans ((s.pass dt).sharedWrite fn 0x500020 fun s =>
    if value.getLsbD 0 && !s.chip.d2dDown then { s with time := { s.time with snap := s.now } } else s)

/-- R314: a slew reaches its end. -/
def execSlewEnd (dt : Nat) (s : State) : Host.Outcome State Fault Refusal :=
  let s := s.pass dt
  match s.time.slew with
  | none => ans s
  | some (_, e) => if e ≤ s.cyc then ans { s with time := { s.time with slew := none } } else ans s

/-! ### PPS_IN (R316 to R319) -/

/-- W, ALIGN_NS, STEP_THRESH in ns, HOLDOVER_S, MAX_PPB as they act (R330). -/
def State.ppsWindow (s : State) : Nat := min 100000000 (max 100 (s.regF 0x02800004 0 27))
def State.alignNs (s : State) : Nat := max 1 (s.regF 0x02800008 0 16)
def State.stepThresh (s : State) : Nat := max 1 (s.regF 0x02800008 16 8) * 1000
def State.holdoverCyc (s : State) : Nat := max 1 (s.regF 0x02800008 24 8) * cycSec
def State.maxPpb (s : State) : Nat := min 200000 (max 1 (s.regF 0x0280000C 0 18))

/-- Offset of a stamp and its nearest second boundary (R316). -/
def ppsOffsetOf (q : Nat) : Int × Nat :=
  let n := nsOf q
  if n < 500000000 then ((n : Int), secOf q) else ((n : Int) - 1000000000, secOf q + 1)

/-- Device time is not aligned: the open performance records carry TOD_UNALIGNED (R114). -/
def State.markUnaligned (s : State) : State :=
  { s with xpt := { s.xpt with ents := s.xpt.ents.map fun (i, e) =>
      (i, { e with cur15 := e.cur15.map fun b => { b with unaligned := true }
                   cur24 := e.cur24.map fun b => { b with unaligned := true } }) } }

/-- The unit follows the time of its twin (R354): the standby unit of partition A, or unit 1 when neither holds its claim. -/
def State.timeFollower (s : State) : Bool :=
  s.isOn .twin && s.twin.pair == 2 && s.twin.a.num == 0 && (s.twin.a.peerClaim != 0 || bit (s.reg 0x02C00000) 0)

/-- Device time counts as aligned to PPS_IN (R319, R354). -/
def State.todAligned (s : State) : Bool :=
  if s.timeFollower then
    (s.twin.peerTimeState == 1 || s.twin.peerTimeState == 2) && decide (s.twin.offset.natAbs ≤ 100 * qNs)
  else s.time.align != 0

/-- The open records take the mark while device time is not aligned. -/
def State.noteTod (s : State) : State := if s.todAligned then s else s.markUnaligned

/-- Enter an alignment state, with its event (R319). -/
def State.enterAlign (s : State) (st : Nat) : State :=
  let s := { s with time := { s.time with align := st, good := 0, badRun := 0, missed := 0, holdAt := s.cyc } }
  s.noteTod.raise 0 (if st = 0 then evTimeUnaligned else if st = 1 then evTimeAligned else evTimeHoldover)

/-- Is an edge captured, by the alignment state (R317)? -/
def State.captures (s : State) (off : Int) (b : Nat) : Bool :=
  if s.time.align = 0 then
    match s.time.lastEdge with
    | none => true
    | some t => decide (t + 400000000 ≤ s.cyc)
  else decide (-(s.ppsWindow : Int) ≤ off) && decide (off < s.ppsWindow) && s.time.winCaptured != some b

/-- What a captured offset does to the alignment state (R319). -/
def State.judgeOffset (s : State) (off : Int) : State :=
  let good := decide (off.natAbs ≤ s.alignNs)
  let t := s.time
  if t.align = 0 then
    if good then
      if 2 ≤ t.good then s.enterAlign 1 else { s with time := { t with good := t.good + 1 } }
    else { s with time := { t with good := 0 } }
  else if t.align = 1 then
    if good then { s with time := { t with badRun := 0 } }
    else if 1 ≤ t.badRun then s.enterAlign 0 else { s with time := { t with badRun := t.badRun + 1 } }
  else s.enterAlign (if good then 1 else 0)

/-- A captured edge (R317 to R319). -/
def State.capturePps (s : State) (off : Int) (b : Nat) : State :=
  let t := s.time
  let s := { s with time := { t with
      lastEdge := some s.cyc, winCaptured := some b, ppsOffset := off
      winDone := if t.align = 0 then max t.winDone b else t.winDone
      corr := if t.steps.isEmpty then some (off, s.now) else t.corr } }
  (s.raise 0 evTimePpsCaptured (unsigned 32 off)).judgeOffset off

/-- R316 to R319: an edge of PPS_IN. -/
def execPpsInEdge (dt : Nat) (falling : Bool) (s : State) : Host.Outcome State Fault Refusal :=
  let s := s.pass dt
  if falling != bit (s.reg 0x02800000) 2 then ans s else
  let ob := ppsOffsetOf s.now
  if s.captures ob.1 ob.2 then ans (s.capturePps ob.1 ob.2) else ans (s.bump ⟨0x14, 0, 0⟩ 0)

/-- A slew that removes an offset in ns over the next second, within MAX_PPB (R318). -/
def State.slewOff (s : State) (off : Int) : State :=
  let ppb := max (-(s.maxPpb : Int)) (min (s.maxPpb : Int) (-off))
  { s with time := { s.time with slew := if ppb = 0 then none else some (ppb, s.cyc + cycSec) } }

/-- R318: the correction of a captured offset is decided 250 ns after its stamp in master time; none is decided while a STEP is pending,
and a follower of its twin makes none (R354). -/
def execPpsCorrectionDecision (dt : Nat) (s : State) : Host.Outcome State Fault Refusal :=
  let s := s.pass dt
  match s.time.corr with
  | none => ans s
  | some (off, at_) =>
    if s.now < at_ + 250 * qNs then ans s else
    let pend := !s.time.steps.isEmpty
    let s := { s with time := { s.time with corr := none } }
    let m := if pend || s.timeFollower then 0 else s.regF 0x02800000 0 2
    if m = 1 then
      if s.alignNs < off.natAbs then ans (s.decideStep 3 (-off * qNs) none none) else ans s
    else if m = 2 then ans (s.slewOff off)
    else if m = 3 then
      if s.stepThresh ≤ off.natAbs then ans (s.decideStep 3 (-off * qNs) none none) else ans (s.slewOff off)
    else ans s

/-- R317, R319: the window of the last second boundary whose window has ended is judged; two without a capture lead from
ALIGNED to HOLDOVER. -/
def execPpsWindowEnd (dt : Nat) (s : State) : Host.Outcome State Fault Refusal :=
  let s := s.pass dt
  let b := (s.now - s.ppsWindow * qNs) / qSec
  if s.time.align = 0 ∨ b ≤ s.time.winDone then ans s else
  let miss := if s.time.winCaptured = some b then 0 else s.time.missed + 1
  let s := { s with time := { s.time with winDone := b, missed := miss } }
  if s.time.align = 1 ∧ 2 ≤ miss then ans (s.enterAlign 2) else ans s

/-- R319: HOLDOVER_S seconds in HOLDOVER. -/
def execHoldoverExpiry (dt : Nat) (s : State) : Host.Outcome State Fault Refusal :=
  let s := s.pass dt
  if s.time.align = 2 ∧ s.time.holdAt + s.holdoverCyc ≤ s.cyc then ans (s.enterAlign 0) else ans s

/-! ### PPS_OUT (R320) -/

/-- Second whose boundary, less DELAY_NS, device time `q` has reached. -/
def State.ppsOutSecond (s : State) (q : Int) : Int :=
  (q + signed 16 (s.regF 0x02800010 16 16) * qNs) / qSec

/-- The most quanta that device time counts in one TIME cycle (R310, R314). -/
def maxTick : Nat := tickInc 400000 / 65536 + 1

/-- R320: device time has crossed, by counting in the TIME cycle just passed, the point DELAY_NS before a second boundary. -/
def execPpsOutPulse (dt : Nat) (s : State) : Host.Outcome State Fault Refusal :=
  let s := s.pass dt
  let b := s.ppsOutSecond s.now
  let crossed := decide (s.ppsOutSecond ((s.now : Int) - maxTick) < b) && decide ((s.time.ppsOutSec : Int) < b)
  if !crossed then ans s else
  let s := { s with time := { s.time with ppsOutSec := b.toNat } }
  if bit (s.reg 0x02800000) 3 && (!bit (s.reg 0x02800000) 4 || s.time.align != 0) then
    ans { s with time := { s.time with
      ppsOut := true, ppsOutAt := s.cyc + min 500 (max 1 (s.regF 0x02800010 0 9)) * cycMs } }
  else ans s

/-- R320: the pulse has run its full width. -/
def execPpsOutPulseEnd (dt : Nat) (s : State) : Host.Outcome State Fault Refusal :=
  let s := s.pass dt
  if s.time.ppsOut && decide (s.time.ppsOutAt ≤ s.cyc) then
    ans { s with time := { s.time with ppsOut := false } }
  else ans s

/-! ### Transmit-timestamp queues (R327 to R329) -/

def State.tsQueue (s : State) (k : Nat) : TsQueue := s.time.tsq.get {} k
def State.updTsQueue (s : State) (k : Nat) (f : TsQueue → TsQueue) : State :=
  { s with time := { s.time with tsq := s.time.tsq.upd {} k f } }

/-- The LOST marker of a run: first port, first tag, number lost (R328). -/
def lostMarker (port tag n : Nat) : Nat :=
  2 + port % 256 * 4 + 15 * 2 ^ 10 + tag % 65536 * 2 ^ 16 + min n (2 ^ 32 - 1) * 2 ^ 32

/-- Append an entry where a slot is free, raising TS_QUEUE_HIGH when occupancy rises above 768 (R327). -/
def State.appendTs (s : State) (k e : Nat) : State :=
  let s := s.updTsQueue k fun q => { q with entries := q.entries ++ [e] }
  if (s.tsQueue k).entries.length = 769 then s.raise 0 evTsQueueHigh k else s

/-- Write the marker of the run of lost frames once a slot is free (R329). -/
def State.flushLost (s : State) (k : Nat) : State :=
  match (s.tsQueue k).lost with
  | none => s
  | some (p, t, n) =>
    if (s.tsQueue k).entries.length < 1024 then
      (s.updTsQueue k fun q => { q with lost := none }).appendTs k (lostMarker p t n)
    else s

/-- Put a timestamp entry in a queue; a full queue opens or extends the run of lost frames (R329). -/
def State.pushTs (s : State) (k port tag e : Nat) : State :=
  let s := s.flushLost k
  if (s.tsQueue k).entries.length < 1024 then s.appendTs k e
  else (s.updTsQueue k fun q =>
    { q with lost := some (match q.lost with | none => (port, tag, 1) | some (p, t, n) => (p, t, n + 1)) }).bump
    ⟨0x14, 1, 0⟩ k

def tsReadOk (x : Nat) : Bool :=
  bits x 2 6 == 0 && bits x 14 50 == 0 && decide (1 ≤ bits x 8 6) && decide (bits x 8 6 ≤ 32)

/-- TS_READ (R327): up to MAX entries of one queue, oldest first, removed; RESULT is their number. -/
def tsReadBody (s : State) (_c : Cmd) (x : Nat) : Out :=
  if !tsReadOk x then .fail s stBadArg else
  let k := bits x 0 2
  let es := (s.tsQueue k).entries.take (bits x 8 6)
  .okResp ((s.updTsQueue k fun q => { q with entries := q.entries.drop es.length }).flushLost k) es.length
    (es.flatMap (leBytes 16))

def tsReadSpec : OpSpec :=
  { code := 0x0901, entryLen := fixedLen 8, reads := true
    respLen := fun s _ x => if tsReadOk x then 16 * ((s.tsQueue (bits x 0 2)).entries.take (bits x 8 6)).length else 0
    body := tsReadBody }

/-- R327. -/
def execTsRead (i : Issue) (s : State) : Host.Outcome State Fault Refusal := ans (s.runCommand tsReadSpec i)

end Sys2Proof.Machine
end

