-- ==== Sys2Proof/Machine/Hier.lean ====
section
/-! DEFINITION. Ports and the scheduling tree as the other chapters read them: port types and rates (R55, R93), which ports
exist (R57), the path of a queue to its port (R271, R272), guaranteed rates (R261, R262), and the closed time of a gate list
(R253, R287). -/

namespace Sys2Proof.Machine

/-! ### Port types (R55) -/

/-- Lanes of a port type. -/
def typeLanes (t : Nat) : Nat :=
  [0, 1, 1, 1, 4, 1, 4, 2, 1, 4, 2, 8, 4, 8, 1, 0].getD t 0

/-- Lane rate code of a port type. -/
def typeRateCode (t : Nat) : Nat := [0, 0, 1, 1, 0, 2, 1, 2, 3, 2, 3, 2, 3, 3, 4, 0].getD t 0

/-- Port rate of a type in Gb/s. -/
def typeGbps (t : Nat) : Nat := [0, 10, 25, 25, 40, 50, 100, 100, 100, 200, 200, 400, 400, 800, 0, 0].getD t 0

/-- The type that the ladder steps to; 0 for none. -/
def typeLadder (t : Nat) : Nat := [0, 0, 1, 1, 0, 2, 4, 0, 5, 6, 7, 0, 9, 11, 0, 0].getD t 0

/-- GROUP_CFG field of a line lane. -/
def State.laneField (s : State) (n : Nat) : Nat := s.regF (0x00201000 + 0x10 * (n / 8)) (4 * (n % 8)) 4

/-- The layout of a group holds to R56. -/
def State.layoutOk (s : State) (g : Nat) : Bool :=
  (List.range 8).all fun i =>
    let t := s.laneField (8 * g + i)
    let n := typeLanes t
    t != 15 && (t == 0 || (i % n == 0 && (List.range (n - 1)).all fun k => s.laneField (8 * g + i + 1 + k) == 0))

/-- The group is selected for the framer: TRANSPORT is ON and the mode word in force names it (R40, R44, R57). -/
def State.xptGroup (s : State) (g : Nat) : Bool := s.isOn .transport && bit s.modes.word (16 + g)

/-! ### The framer's map (R94) -/

/-- XPT_LINE of a framer lane. -/
def State.lineSignal (s : State) (n : Nat) : Nat := s.regF (0x00500000 + 0x10 * n) 0 2
def State.lineN (s : State) (n : Nat) : Nat := s.regF (0x00500000 + 0x10 * n) 2 4

/-- XPT_TRIB of tributary t of group g. -/
structure TribRow where
  valid : Bool
  kind : Nat
  payload : Nat
  line : Nat
  first : Nat
deriving DecidableEq, Repr

def State.trib (s : State) (g t : Nat) : TribRow :=
  let r := s.reg (0x00504000 + 0x200 * g + 8 * t)
  { valid := bit r 0, kind := bits r 1 3, payload := bits r 4 2, line := bits r 6 6, first := bits r 12 8 }

/-- XPT_CLIENT of a client's port number 8g + c (R93). -/
def State.clientReg (s : State) (p : Nat) : Nat := s.reg (0x00505000 + 0x100 * (p / 8) + 0x20 * (p % 8))
def State.clientKind (s : State) (p : Nat) : Nat := bits (s.clientReg p) 0 2
def State.clientTrib (s : State) (p : Nat) : Nat := bits (s.clientReg p) 2 5
def State.clientX (s : State) (p : Nat) : Nat := bits (s.clientReg p) 7 5
def State.clientDd (s : State) (p : Nat) : Nat := bits (s.clientReg p) 12 11

/-- The members of a client: tributary and VC-4. -/
def State.members (s : State) (p : Nat) : List (Nat × Nat) :=
  (List.range (min 16 (s.clientX p))).map fun m =>
    let r := s.reg (0x00506000 + 0x400 * (p / 8) + 0x40 * (p % 8) + 4 * m)
    (bits r 0 5, bits r 5 8)

/-- PORT names a port (R57, R286). -/
def State.portExists (s : State) (p : Nat) : Bool :=
  decide (p < 48) &&
    (if s.xptGroup (p / 8) then s.clientKind p == 1 || s.clientKind p == 2
     else s.laneField p != 0 && s.laneField p != 14 && s.laneField p != 15)

/-- Port type code in use, after ladder steps; the GROUP_CFG type before the group's first STARTING. -/
def State.curType (s : State) (p : Nat) : Nat := if (s.port p).typ = 0 then s.laneField p else (s.port p).typ

/-- Port rate in kb/s at a type; a transport client's from R93. -/
def State.rateAt (s : State) (p t : Nat) : Nat :=
  if s.xptGroup (p / 8) then
    if s.clientKind p = 1 then 100000000 else if s.clientKind p = 2 then s.clientX p * 149760 else 0
  else typeGbps t * 1000000

/-- R_port in kb/s. -/
def State.portRate (s : State) (p : Nat) : Nat := s.rateAt p (s.curType p)

/-- Egress slice of a port's lanes (R57, R58). -/
def portSlice (p : Nat) : Nat := p / 12

/-- A split port spans two slices: an 8-lane port on group 1 or 4 (R58). -/
def State.isSplit (s : State) (p : Nat) : Bool :=
  (p == 8 || p == 32) && typeLanes (s.curType p) == 8 && !s.xptGroup (p / 8)

/-- MAX_FRAME in force on the port, never below 1,518 (R80, R86). -/
def State.maxFrame (s : State) (p : Nat) : Nat := max 1518 (s.port p).maxFrame

/-- Frame times at a rate in kb/s, in quanta, rounded up: 8 × bytes bits (R255). -/
def frameQ (bytes rate : Nat) : Nat := if rate = 0 then 0 else ceilDiv (8 * bytes * qNs * 1000000) rate

/-- L + o_port in bytes, never below 0. -/
def addBytes (l : Nat) (o : Int) : Nat := ((l : Int) + o).toNat

/-- T_frame of R252 in quanta. -/
def State.tFrame (s : State) (p : Nat) : Nat := frameQ (addBytes (s.maxFrame p) (s.egress p).oPort) (s.portRate p)

/-! ### The scheduling tree (R271, R272) -/

/-- Key of a node: level 0 port root, 1 to 3 nodes. -/
def nodeKey (level ix : Nat) : Nat := level * 2 ^ 17 + ix

def State.nodeAt (s : State) (level ix : Nat) : Node := s.node (nodeKey level ix)

/-- The nodes on the path of a queue: L3, L2 and L1 index, port. -/
structure Path4 where
  l3 : Nat
  l2 : Nat
  l1 : Nat
  port : Nat
deriving DecidableEq, Repr

def State.pathOf (s : State) (q : Queue) : Path4 :=
  let l3 := q.parent
  let l2 := (s.nodeAt 3 l3).parent
  let l1 := (s.nodeAt 2 l2).parent
  { l3 := l3, l2 := l2, l1 := l1, port := (s.nodeAt 1 l1).parent }

/-- Every element from the queue to its port is attached (R272). -/
def State.attached (s : State) (q : Queue) : Bool :=
  let p := s.pathOf q
  q.enable && (s.nodeAt 3 p.l3).enable && (s.nodeAt 2 p.l2).enable && (s.nodeAt 1 p.l1).enable

/-- Port of an attached queue. -/
def State.queuePort (s : State) (n : Nat) : Option Nat :=
  let q := s.queue n
  if s.attached q then some (s.pathOf q).port else none

/-- Guaranteed rate that the scheduler and R261 count: the old one while a reduction holds it (R262). -/
def State.heldRate (s : State) (q : Queue) : Nat :=
  ((q.held.filter fun h => decide (s.follower < h.2)).map (·.1)).foldl max q.gRate

/-- Queues attached to a port. -/
def State.portQueues (s : State) (p : Nat) : List (Nat × Queue) :=
  s.tm.queues.filter fun (_, q) => s.attached q && (s.pathOf q).port == p

/-- Sum of the promised queues' guaranteed rates on a port, in kb/s, with held rates (R261, R262). -/
def State.portGuarantee (s : State) (p : Nat) : Nat :=
  ((s.portQueues p).map fun (_, q) => s.heldRate q).foldl (· + ·) 0

/-- The port has a queue with a non-zero guaranteed rate (R23, R44). -/
def State.portPromises (s : State) (p : Nat) : Bool := decide (0 < s.portGuarantee p)

/-! ### Gate lists (R285 to R289) -/

/-- Traffic classes of the port's promised queues, as a mask (R287). -/
def State.promisedMask (s : State) (p : Nat) : Nat :=
  ((s.portQueues p).filter fun (_, q) => decide (0 < s.heldRate q)).foldl (fun m (_, q) => m ||| 2 ^ q.tc) 0

/-- Does an entry keep every class of `mask` open? -/
def entryOpen (mask : Nat) (e : Nat × Nat) : Bool := e.1 &&& mask == mask

/-- Start, interval and open time of each entry in ns: an open entry is open up to the guard band before the next closed one
(R253, R287). -/
def GateList.openLens (l : GateList) (mask : Nat) : List (Nat × Nat × Nat) :=
  (List.range l.entries.length).map fun i =>
    let e := l.entries.getD i (0, 0)
    let start := ((l.entries.take i).map (·.2)).foldl (· + ·) 0
    let after := l.entries.drop (i + 1) ++ l.entries.take (i + 1)
    let dist := ((after.takeWhile (entryOpen mask)).map (·.2)).foldl (· + ·) 0
    (start, e.2,
      if !entryOpen mask e then 0 else if after.all (entryOpen mask) then e.2 else e.2 - (l.guard - dist))

/-- Closed time of a list in ns for a set of promised classes (R287). -/
def GateList.closedNs (l : GateList) (mask : Nat) : Nat :=
  l.cycle - ((l.openLens mask).map (·.2.2)).foldl (· + ·) 0

/-- Place in the cycle of a device time, in quanta (R285). -/
def GateList.phase (l : GateList) (d : Nat) : Nat :=
  (((d : Int) - l.baseNs * qNs) % (l.cycle * qNs : Nat)).toNat

/-- First cycle start at or after a device time (R285). -/
def GateList.startFrom (l : GateList) (d : Nat) : Nat :=
  let r := l.phase d
  if r = 0 then d else d + (l.cycle * qNs - r)

/-- Index of the entry in force, and the quanta left of it. -/
def GateList.entryAt (l : GateList) (d : Nat) : Nat × Nat :=
  let ph := l.phase d
  let rec go : List (Nat × Nat) → Nat → Nat → Nat × Nat
    | [], i, _ => (i, 0)
    | (_, n) :: t, i, past => if ph < past + n * qNs then (i, past + n * qNs - ph) else go t (i + 1) (past + n * qNs)
  go l.entries 0 0

/-- A class stays open for `w` quanta through the entries of a list, the first with `left` quanta to go. -/
def openFor (tc : Nat) : List (Nat × Nat) → Nat → Nat → Bool
  | [], _, _ => true
  | (g, _) :: t, left, w =>
    bit g tc && (decide (w ≤ left) || openFor tc t ((t.headD (0, 0)).2 * qNs) (w - left))

/-- A class is open throughout [d, d + w) (R285). -/
def GateList.openThroughout (l : GateList) (tc d w : Nat) : Bool :=
  let e := l.entryAt d
  openFor tc (l.entries.drop e.1 ++ l.entries ++ l.entries.take (e.1 + 1)) e.2 w

/-- The instant is open to promised traffic (R253). -/
def GateList.openAt (l : GateList) (mask d : Nat) : Bool :=
  let ph := l.phase d
  (l.openLens mask).any fun (st, _, n) => decide (st * qNs ≤ ph) && decide (ph < (st + n) * qNs)

/-- Open time of a list from its base to a device time, in quanta; negative before it. -/
def GateList.openUpTo (l : GateList) (mask d : Nat) : Int :=
  let ph := l.phase d
  let part : Nat := ((l.openLens mask).map fun (st, _, n) => min (n * qNs) (ph - st * qNs)).foldl (· + ·) 0
  let k : Int := ((d : Int) - l.baseNs * qNs - ph) / ((l.cycle * qNs : Nat) : Int)
  k * (((l.cycle - l.closedNs mask) * qNs : Nat) : Int) + (part : Int)

/-- GATED lets the lists act (R45, R285). -/
def State.gatesRun (s : State) : Bool := (s.mode .gated).st == .on || (s.mode .gated).st == .starting

/-- The list in force; none while it is suspended (R289). -/
def Gate.counted (g : Gate) : Option GateList := if g.suspended then none else g.cur

/-- The device time X at which a pending list replaces the list in force: the first cycle start of that list after the checks have
passed and after the bounds that a raising change waits for (R263, R288). -/
def Gate.switchAt (g : Gate) (c : GateChange) : Nat :=
  match g.counted with
  | none => max c.passed c.bound
  | some l => l.startFrom (max c.passed c.bound)

/-- First cycle start of a pending list at or after X, and not before GATED lets the port's lists start (R45, R288); X itself for
a removal. -/
def Gate.newStart (g : Gate) (c : GateChange) (x : Nat) : Nat :=
  match c.new with
  | none => x
  | some l => l.startFrom (max x g.startsAt)

/-- The lists that act at a port, each from a device time on until the next one's, none standing for open gates: the list in force
from its start, and a pending one from its own (R45, R288). -/
def Gate.plan (g : Gate) : List (Nat × Option GateList) :=
  match g.pending with
  | none => [(0, none), (g.startsAt, g.counted)]
  | some c =>
    match c.start with
    | some t => [(0, none), (g.newStart c t, c.new)]
    | none =>
      let x := g.switchAt c
      [(0, none), (min x g.startsAt, g.counted), (x, none), (g.newStart c x, c.new)]

/-- The lists of a port, of which none acts unless GATED lets them (R45). -/
def State.gatePlan (s : State) (p : Nat) : List (Nat × Option GateList) := if s.gatesRun then (s.gate p).plan else [(0, none)]

/-- The list of a plan at a device time. -/
def listAt (d : Nat) (l : List (Nat × Option GateList)) : Option GateList :=
  l.foldl (fun r e => if e.1 ≤ d then e.2 else r) none

/-- The list whose gates a port has now, in the device time of the T-die follower (R312); none when all are open (R45, R285, R288,
R289). -/
def State.gateNow (s : State) (p : Nat) : Option GateList := listAt s.follower (s.gatePlan p)

/-- `f` holds of every list of a plan and the part of [d, e) in which it acts; the quanta `n` of those parts add up. -/
def planOver (f : Option GateList → Nat → Nat → Bool × Nat) (d e : Nat) : List (Nat × Option GateList) → Bool × Nat
  | [] => (true, 0)
  | (a, l) :: t =>
    let lo := max a d
    let hi := min e ((t.head?.map (·.1)).getD e)
    let r := planOver f d e t
    if hi ≤ lo then r else
    let x := f l lo hi
    (x.1 && r.1, x.2 + r.2)

/-- A class is open throughout [d, e) (R285). -/
def openAcross (tc d e : Nat) (l : List (Nat × Option GateList)) : Bool :=
  (planOver (fun l lo hi => (l.all fun l => l.openThroughout tc lo (hi - lo), 0)) d e l).1

/-- Quanta of [d, e) in which a port is open to the classes of `mask`. -/
def openTime (mask d e : Nat) (l : List (Nat × Option GateList)) : Nat :=
  (planOver (fun l lo hi => (true, match l with
    | none => hi - lo
    | some l => (l.openUpTo mask hi - l.openUpTo mask lo).toNat)) d e l).2

/-- The lists of R263: the one in force, and the pending one when `both`, or when it raises the terms. -/
def Gate.lists (g : Gate) (both : Bool) : List GateList :=
  g.counted.toList ++ (match g.pending with
    | none => []
    | some c => if both || c.raising then c.new.toList else [])

/-- Closed time, cycle and guard of a list, or of none, where closed time counts when `on`, while GATED is ON (R253). -/
def termsOf (on : Bool) (l : Option GateList) (mask : Nat) : Nat × Nat × Nat :=
  match l with
  | none => (0, 1, 0)
  | some l => (if on then l.closedNs mask else 0, l.cycle, l.guard)

/-- The terms of the list in force: a suspended one keeps its guard band only (R252, R289). -/
def Gate.terms (on : Bool) (g : Gate) (mask : Nat) : Nat × Nat × Nat := termsOf (on && !g.suspended) g.cur mask

/-- T_guard and T_gate of R252, in ns: the larger of the old and the new list's sum (R263). -/
def State.gateTerms (s : State) (p : Nat) : Nat :=
  if (s.mode .gated).st == .off then 0 else
  let m := s.promisedMask p
  let g := s.gate p
  let t (x : Nat × Nat × Nat) : Nat := x.1 + x.2.2
  max (t (g.terms (s.isOn .gated) m))
    (match g.pending with
      | none => 0
      | some c => if c.raising then t (termsOf (s.isOn .gated) c.new m) else 0)

/-- Closed time and cycle of R274: those of the list with the larger c_port; none counts as never closed. -/
def State.schedClosed (s : State) (p : Nat) : Nat × Nat :=
  if !s.isOn .gated then (0, 1) else
  let m := s.promisedMask p
  (((s.gate p).lists true).map fun l => (l.closedNs m, l.cycle)).foldl
    (fun a b => if a.1 * b.2 < b.1 * a.2 then b else a) (0, 1)

/-- S ≤ R_port × (1 − c_port) as R261 tests it: S × C ≤ R × (C − closed). -/
def rateFits (sum rate closed cycle : Nat) : Bool := decide (sum * cycle ≤ rate * (cycle - closed))

/-- A sum of guaranteed rates fits `rate` under every list that counts for R261; `gated` says whether lists count. -/
def State.sumFits (s : State) (p sum rate : Nat) (gated : Bool) : Bool :=
  decide (sum ≤ rate) && (!gated ||
    ((s.gate p).lists true).all fun l => rateFits sum rate (l.closedNs (s.promisedMask p)) l.cycle)

/-- The port's guarantees fit the rate `rate` (R71, R261). -/
def State.portFitsAt (s : State) (p rate : Nat) : Bool := s.sumFits p (s.portGuarantee p) rate (s.isOn .gated)

/-! ### The open-time clock (R274) -/

/-- The port is open to promised traffic at device time `d`: always, while GATED is not ON (R253, R274). -/
def State.portOpen (s : State) (p d : Nat) : Bool :=
  !s.isOn .gated || (listAt d (s.gatePlan p)).all fun l => l.openAt (s.promisedMask p) d

/-- V of a port now: it counts elapsed time while the port is open to promised traffic, and a STEP does not move it. -/
def State.vNow (s : State) (p : Nat) : Nat :=
  let e := s.egress p
  let n := (s.cyc - e.vAt) * 81920
  let d := s.follower - e.vDev
  if !s.isOn .gated then e.vclock + n
  else if d = 0 then e.vclock + (if s.portOpen p s.follower then n else 0)
  else e.vclock + openTime (s.promisedMask p) e.vDev s.follower (s.gatePlan p) * n / d

/-- Count V of a port up to now, before anything that decides when it is open changes. -/
def State.syncV (s : State) (p : Nat) : State :=
  let v := s.vNow p
  s.updEgress p fun e => { e with vclock := v, vAt := s.cyc, vDev := s.follower }

/-- Count V of every port. -/
def State.syncAllV (s : State) : State := (List.range 48).foldl State.syncV s

/-! ### TMC cycles (R256) -/

/-- TMC cycles that begin in a TIME cycle. -/
def tmcSlots (c : Nat) : Nat := (c + 1) * 7 / 4 - c * 7 / 4

/-- Evaluations of this TIME cycle, and its first TMC cycle that sees every change. -/
def State.evals (s : State) : List (Nat × Nat × Nat) × Nat := if s.tm.evalCyc = s.cyc then (s.tm.evals, s.tm.evalFrom) else ([], 0)

/-- The TMC cycle of this TIME cycle in which writer port `w` has a packet of queue `q` evaluated: one in which it has had none, and
no packet of the queue has been decided that comes after this one (R256). -/
def State.evalSlot (s : State) (w q : Nat) : Option Nat :=
  let e := s.evals
  (List.range (tmcSlots s.cyc)).find? fun j =>
    decide (e.2 ≤ j) && e.1.all fun x =>
      if x.1 < j then true
      else if x.1 = j then x.2.1 != w && (x.2.2 != q || decide (x.2.1 < w))
      else x.2.1 != w && x.2.2 != q

/-- Note an evaluation. -/
def State.evaluated (s : State) (j w q : Nat) : State :=
  let e := s.evals
  { s with tm := { s.tm with evalCyc := s.cyc, evals := (j, w, q) :: e.1, evalFrom := e.2 } }

/-- A configuration change lands in the TMC cycle of the last evaluation: evaluations of later cycles see it (R256). -/
def State.landed (s : State) : State :=
  let e := s.evals
  { s with tm := { s.tm with evalCyc := s.cyc, evals := e.1, evalFrom := max e.2 ((e.1.map (·.1)).foldl max 0 + 1) } }

end Sys2Proof.Machine
end

