-- ==== Sys2Proof/Machine/MemUnit.lean ====
section
/-! DEFINITION. What the memories' readers share (12_memory.md): refresh units and channels (R291), where structures lie (R292,
R293), DDR-5 address mapping (R296), counts and events of reads (R305, R309), the division of the cellar (R210, R295) and its
traffic limits (R214). -/

namespace Sys2Proof.Machine

/-! ### Units (R291) -/

/-- Channel of a refresh unit, as the retraining pauses number it: 0 to 7 XMA to XMH, 8 + 16 s + n channel n of stack s. -/
def unitChannel (u : Nat) : Nat := if u < 32 then u / 4 else 8 + 16 * ((u - 32) / 32) + (u - 32) % 32 / 2

/-- Stack of a unit or channel. -/
def unitStack (u : Nat) : Nat := (u - 32) / 32
def chanStack (ch : Nat) : Nat := (ch - 8) / 16

/-- The unit's rank is there and trained, or its pseudo-channel's group is ON and trained. -/
def State.unitLive (s : State) (u : Nat) : Bool :=
  if u < 32 then
    let x := s.xm (u / 4)
    x.st == 3 && decide (u % 4 / 2 < x.dimms) && decide (u % 2 < x.ranks)
  else (s.stack (unitStack u)).st == 3 && (s.domain (184 + 4 * unitStack u + (u - 32) % 32 / 8)).st == .on

/-- The channel is trained. -/
def State.chanLive (s : State) (ch : Nat) : Bool :=
  if ch < 8 then (s.xm ch).st == 3
  else (s.stack (chanStack ch)).st == 3 && (s.domain (184 + 4 * chanStack ch + (ch - 8) % 16 / 4)).st == .on

/-- A retraining pause or a refresh burst holds the unit's accesses (R299, R304). -/
def State.unitHeld (s : State) (u : Nat) : Bool := (s.unit u).burst != 0 || (s.mem.pauses.find? (unitChannel u)).isSome

/-- Cycles of one refresh: all-bank on a rank, none stated for a pseudo-channel (R301). -/
def State.refreshCyc (s : State) (u : Nat) : Nat := if u < 32 then (if (s.xm (u / 4)).dense then 328 else 236) else 0

/-- An access: it wakes the unit and restarts its idle time (R300). -/
def State.touch (s : State) (u : Nat) : State := s.updUnit u fun r => { r with powerDown := false, lastAccess := s.cyc }

/-! ### Counts and events of reads (R305, R309) -/

/-- An item of a unit's counters: the pseudo-channels are kind 0, the ranks kind 1 (R417). -/
def State.bumpUnit (s : State) (u item : Nat) : State :=
  if u < 32 then s.bump ⟨0x13, 1, item⟩ u else s.bump ⟨0x13, 0, item⟩ (u - 32)

/-- A corrected read. -/
def State.countCe (s : State) (u : Nat) : State := s.bumpUnit u 0

/-- An uncorrectable read is counted. -/
def State.countUe (s : State) (u : Nat) : State :=
  { s with mem := { s.mem with ueTotal := s.mem.ueTotal + 1 } }.bumpUnit u 1

/-- MEM_UE with the unit, the structure's code and the address, and the unit's UE (log 67). -/
def State.memUe (s : State) (part u structure_ addr : Nat) : State :=
  (s.countUe u).raise part evMemUe u (structure_ + addr * 256)

/-- Codes of structures (log 67). -/
def structRoom : Nat := 1
def structPage : Nat := 2
def structTable : Nat := 5
def structRewrite : Nat := 6
def structGroup : Nat := 7
def structEset : Nat := 8
def structMember : Nat := 9
def structStat : Nat := 11

/-- The data are marked poisoned for their next consumer, until they are rewritten (R305, R307). -/
def State.recPoisoned (s : State) (structure_ ix : Nat) : Bool := s.mem.poison.contains (structure_, ix)
def State.setPoison (s : State) (structure_ ix : Nat) : State :=
  { s with mem := { s.mem with poison := (structure_, ix) :: s.mem.poison.erase (structure_, ix) } }
def State.recRewritten (s : State) (structure_ ix : Nat) : State :=
  { s with mem := { s.mem with poison := s.mem.poison.erase (structure_, ix) } }

/-! ### DDR-5 address mapping (R296) -/

/-- DRAM coordinates of a 16 KiB row segment. -/
structure Dram where
  bank : Nat
  group : Nat
  rank : Nat
  dimm : Nat
  row : Nat
deriving DecidableEq, Repr

/-- Coordinates of an address in a channel of `dimms` DIMMs of `ranks` ranks, of 32 Gb devices when `dense`: a missing bit takes no
place. -/
def dramOf (map dimms ranks : Nat) (dense : Bool) (addr : Nat) : Dram :=
  let rb := if dense then 17 else 16
  let kb := if ranks = 2 then 1 else 0
  let db := if dimms = 2 then 1 else 0
  if map = 1 then
    { bank := bits addr (14 + rb) 2, group := bits addr (16 + rb) 3, rank := bits addr (19 + rb) kb
      dimm := bits addr (19 + rb + kb) db, row := bits addr 14 rb }
  else
    let row := bits addr (19 + kb + db) rb
    let x := map != 0
    { bank := bits addr 14 2 ^^^ (if x then bits row 0 2 else 0), group := bits addr 16 3 ^^^ (if x then bits row 2 3 else 0)
      rank := bits addr 19 kb, dimm := bits addr (19 + kb) db, row := row }

/-- The refresh unit of a rank of a channel. -/
def rankUnit (c : Nat) (d : Dram) : Nat := 4 * c + 2 * d.dimm + d.rank

/-- Coordinates in an HBM pseudo-channel: XOR_BANK above the 1 KiB of a row, with the stack ID in place of the rank (R296, log 118). -/
def hbmOf (addr : Nat) : Dram :=
  let row := bits addr 16 15
  { bank := bits addr 10 2 ^^^ bits row 0 2, group := bits addr 12 2 ^^^ bits row 2 2, rank := bits addr 14 2, dimm := 0, row := row }

/-! ### Where structures lie (R292, R293) -/

/-- Unit of a room: consecutive rooms lie in consecutive pseudo-channels of H2 and H3. -/
def roomUnit (r : Nat) : Nat := 96 + r % 64

/-- Unit of a copy of an egress rewrite entry: 64-byte entries, 256 bytes in one pseudo-channel of the copy's stack. -/
def rewriteUnit (copy ix : Nat) : Nat := 32 + 32 * copy + ix / 4 % 32

/-- The set is counted on the F-die (01_architecture.md, "Subsystems"). -/
def ctrOnF (set : Nat) : Bool := set ≤ 8 || set == 0x14 || set == 0x30

/-- Unit of a copy of a statistics word: of the stack pair of the die that counts it, the copies in different channels. -/
def statUnit (set key copy : Nat) : Nat :=
  let c := Config.statPlace key 0
  let ch := if copy = 0 then c % 32 else (c + 1 + Config.statPlace key 1 % 31) % 32
  (if ctrOnF set then 32 else 96) + 2 * ch + Config.statPlace key (2 + copy) % 2

/-- The copy that a read goes to: the one whose channel is not held, else the one of the index's bit 0 (R293). -/
def State.readCopy (s : State) (u0 u1 ix : Nat) : Nat :=
  if s.unitHeld u0 && !s.unitHeld u1 then 1 else if s.unitHeld u1 && !s.unitHeld u0 then 0 else ix % 2

/-- A read of one copy: 0 good, 1 corrected, 2 uncorrectable. -/
def State.readOne (s : State) (part u structure_ ix out : Nat) : State :=
  let s := s.touch u
  if out = 1 then s.countCe u else if out = 2 then s.memUe part u structure_ ix else s

/-- A read of a structure that is held twice: `o0` and `o1` say how its copies read. The other copy is read when the first is
uncorrectable (R305); the answer says that both are. -/
def State.readTwo (s : State) (part structure_ ix u0 u1 o0 o1 : Nat) : State × Bool :=
  let a := s.readCopy u0 u1 ix
  let u (c : Nat) : Nat := if c = 0 then u0 else u1
  let o (c : Nat) : Nat := if s.recPoisoned structure_ (2 * ix + c) then 2 else if c = 0 then o0 else o1
  let s' := s.readOne part (u a) structure_ ix (o a)
  if o a = 2 then (s'.readOne part (u (1 - a)) structure_ ix (o (1 - a)), o (1 - a) == 2) else (s', false)

/-! ### The cellar's division (R48, R210, R295) -/

/-- Partition of a DDR-5 channel or of a page: page x·8 + c is the x-th of channel c's spill area (log 116). -/
def State.chanPart (s : State) (c : Nat) : Nat := if s.partOn then c / 4 else 0
def State.pagePart (s : State) (i : Nat) : Nat := s.chanPart (i % 8)

/-- The trained channels that serve a partition. -/
def State.cellarChans (s : State) (part : Nat) : List Nat :=
  (List.range 8).filter fun c => (s.xm c).st == 3 && s.chanPart c == part

/-- Pages of the fixed regions of a partition: half of each with PARTITION on (R210). -/
def State.fixedPages (s : State) : Nat :=
  (2 * 2 ^ 18 + 2 ^ 16 + (if s.inn.flowEn then 16 * 2 ^ 18 else 0) + s.inn.captureGib * 2 ^ 18) / (if s.partOn then 2 else 1)

/-- Pages of the spill area on each channel of a partition: the smallest trained capacity less the channel's share (R295). -/
def State.chanRows (s : State) (part : Nat) : Nat :=
  match s.cellarChans part with
  | [] => 0
  | c :: t => t.foldl (fun m k => min m (s.xm k).gib) (s.xm c).gib * 2 ^ 18 - ceilDiv s.fixedPages (t.length + 1)

/-- The cellar is divided. -/
def State.divideCellar (s : State) : State :=
  { s with inn := { s.inn with
      spillRows := (List.range 8).foldl (fun m c =>
        NMap.put m 0 c (if (s.xm c).st = 3 then s.chanRows (s.chanPart c) else 0)) [] } }

/-- INN_PAGES.TOTAL (R226). -/
def State.pagesTotal (s : State) : Nat := if s.isOn .cellar then ((List.range 8).map fun c => s.inn.spillRows.get 0 c).sum else 0

/-- The refresh unit of a page (R296). -/
def State.pageUnit (s : State) (i : Nat) : Nat :=
  let x := s.xm (i % 8)
  rankUnit (i % 8) (dramOf x.map x.dimms x.ranks x.dense ((Config.spillBase (i % 8) + i / 8) % (x.gib * 2 ^ 18) * 4096))

/-! ### The cellar's traffic (R214, R295) -/

/-- Spill and pull limit of a partition in kb/s: 187.5 Gb/s for each of its trained channels (R295), and 1.0 Tb/s at most on A0, half
of it for a partition (R4). -/
def State.pullLimit (s : State) (part : Nat) : Nat :=
  min ((s.cellarChans part).length * 187500000)
    (if s.chip.stepping = 0 then (if s.partOn then 500000000 else 1000000000) else 1500000000)

/-- Bits of a kind that a partition has moved in the last 10 µs. -/
def State.trafficBits (s : State) (part kind : Nat) : Nat :=
  ((s.inn.traffic.filter fun (c, p, k, _) => decide (s.cyc < c + 10 * cycUs) && p == part && k == kind).map (·.2.2.2)).sum

/-- The limit of a kind leaves `n` bits: kind 2, the H2 ring's 10 Gb/s, is taken over 10 µs like the others (log 119). -/
def State.trafficFits (s : State) (part kind n : Nat) : Bool :=
  if kind = 2 then decide (s.trafficBits 0 2 + s.trafficBits 1 2 + n ≤ 100000)
  else decide (s.trafficBits part kind + n ≤ s.pullLimit part / 100)

/-- Traffic that is made. -/
def State.noteTraffic (s : State) (part kind n : Nat) : State :=
  { s with inn := { s.inn with
      traffic := (s.cyc, part, kind, n) :: s.inn.traffic.filter fun e => decide (s.cyc < e.1 + 10 * cycUs) } }

end Sys2Proof.Machine
end

