-- ==== Sys2Proof/Machine/Rooms.lean ====
section
/-! DEFINITION. Rooms, chains and pools (R202 to R205), freeing and its checks (R206 to R208), retired rooms and pages (R306), the
cellar's pages (R211, R216), and the discard of queued and released packets (R206, R276). Which free room or page an allocation takes
is open (log 8). -/

namespace Sys2Proof.Machine

/-! ### Ownership and sizes -/

def State.poolPart (s : State) (p : Nat) : Nat := s.halfPart 16 p

/-- Rooms that a partition may own: first room and number (R202). -/
def State.roomRange (s : State) (part : Nat) : Nat × Nat :=
  if s.partOn then (part * 0x0A000000, 0x0A000000) else (0, 0x14000000)


/-- Rooms of L bytes (R203). -/
def roomsOf (l : Nat) : Nat := ceilDiv l 256

def innPart (item : Nat) : CtrName := ⟨0x0E, 1, item⟩

/-! ### Choosing free rooms and pages -/

/-- First index at or after `i`, cyclically within [lo, lo + n), that is not used; `fuel` bounds the search. -/
def firstUnused (used : Nat → Bool) (lo n : Nat) : Nat → Nat → Option Nat
  | 0, _ => none
  | fuel + 1, i =>
    let j := lo + i % n
    if used j then firstUnused used lo n fuel (i + 1) else some j

/-- The link entry of a room that is IN_USE. -/
def State.roomIn (s : State) (r : Nat) : Option Room := (s.inn.rooms.find? r).filter (·.used)

def State.roomRetired (s : State) (r : Nat) : Bool := s.inn.retiredRooms.any fun e => e.1 == r

def State.roomUsed (s : State) (r : Nat) : Bool := (s.roomIn r).isSome || s.roomRetired r

/-- `n` free rooms of a partition, marked as used by chain `c`; the second component lists them. -/
def State.takeRooms (s : State) (part c : Nat) : Nat → State × List Nat
  | 0 => (s, [])
  | n + 1 =>
    let g := s.roomRange part
    match firstUnused s.roomUsed g.1 g.2 (s.inn.rooms.length + s.inn.retiredRooms.length + 1) (Config.freeRoom s.freeCtr) with
    | none => (s, [])
    | some r =>
      let s := s.drawn.touch (roomUnit r)
      let t := State.takeRooms { s with inn := { s.inn with rooms := s.inn.rooms.ins r { owner := c } } } part c n
      (t.1, r :: t.2)

/-! ### Chains (R203) -/

def State.chain (s : State) (c : Nat) : Chain := s.inn.chains.get {} c
def State.updChain (s : State) (c : Nat) (f : Chain → Chain) : State :=
  { s with inn := { s.inn with chains := s.inn.chains.upd {} c f } }

/-- Rooms reached from room `r` through the link table, the last one naming the head again; a FREE room's NEXT stands. -/
def linkWalk (rooms : NMap Room) (head : Nat) : Nat → Nat → List Nat
  | 0, _ => []
  | fuel + 1, r =>
    match rooms.find? r with
    | none => [r]
    | some e => if e.next = head then [r] else r :: linkWalk rooms head fuel e.next

/-- Rooms of a chain in byte order; a chain whose data lies in pages only has none. -/
def State.chainRooms (s : State) (c : Nat) : List Nat :=
  match s.inn.chains.find? c with
  | none => []
  | some h => if h.head = 2 ^ 29 then [] else linkWalk s.inn.rooms h.head h.count h.head

/-- Write the link entries of a chain over the rooms of a list (R203). -/
def State.linkRooms (s : State) (c : Nat) (l : List Nat) : State :=
  let head := l.headD (2 ^ 29)
  let links := (l.zip (l.drop 1 ++ [head])).foldl (fun m (r, n) => NMap.ins m r { next := n, owner := c }) s.inn.rooms
  ({ s with inn := { s.inn with rooms := links } }).updChain c fun h => { h with head := head }

/-! ### Allocation (R205, R227) -/

/-- POOL_EMPTY of a pool, with its event for the first in a millisecond. -/
def State.poolEmpty (s : State) (p : Nat) : State :=
  let s := s.bump ⟨0x0E, 0, 0⟩ p
  let ms := s.cyc / cycMs
  let q := s.pool p
  if q.emptyMs = some ms then s.updPool p fun q => { q with emptyCount := q.emptyCount + 1 }
  else
    let prev := if q.emptyMs = some (ms - 1) then q.emptyCount else 0
    (s.updPool p fun q => { q with emptyMs := some ms, emptyCount := 1 }).raise (s.poolPart p) evInnPoolEmpty p prev

/-- The pool can give `n` rooms; a pull may also use the reserve. -/
def State.poolHas (s : State) (p n : Nat) (pull : Bool) : Bool :=
  let q := s.pool p
  decide (q.used + n + (if pull then 0 else q.reserve) ≤ q.rooms) && decide (0 < s.inn.roomsTotal)

/-- A new chain of `n` rooms from a pool; none when the pool is empty. -/
def State.allocChain (s : State) (p n : Nat) : State × Option Nat :=
  if !s.poolHas p n false then (s.poolEmpty p, none) else
  let c := s.inn.nextChain
  let s := { s with inn := { s.inn with nextChain := c + 1, chains := s.inn.chains.ins c { pool := p, count := n, head := 2 ^ 29 } } }
  let t := (s.updPool p fun q => { q with used := q.used + n }).takeRooms (s.poolPart p) c n
  (t.1.linkRooms c t.2, some c)

/-! ### Freeing (R206 to R208, R306) -/

/-- Agents of R207; no agent 3, since an admission is refused before it has written rooms. -/
def agentDepart : Nat := 0
def agentDiscard : Nat := 1
def agentCaravan : Nat := 2
def agentInn : Nat := 4

/-- The list of retired rooms or pages of a partition is full: it holds 65,536 or 16,384. -/
def State.retireFull (s : State) (part : Nat) (page : Bool) : Bool :=
  if page then decide (16384 ≤ (s.inn.retiredPages.filter fun i => s.pagePart i == part).length)
  else decide (65536 ≤ (s.inn.retiredRooms.filter fun e => s.poolPart e.2 == part).length)

/-- MEM_RETIRE_FULL, once per list. -/
def State.raiseRetireFull (s : State) (part : Nat) (page : Bool) : State :=
  let k := part * 2 + b2n page
  if s.inn.retireFull.get false k then s
  else ({ s with inn := { s.inn with retireFull := s.inn.retireFull.put false k true } }).raise part evMemRetireFull
    part (b2n page)

/-- MEM_ROOM_RETIRED with the index, and payload byte 0 telling a room 0 from a page 1 (log 69). -/
def State.raiseRetired (s : State) (part i : Nat) (page : Bool) : State :=
  (s.bump ⟨0x13, 3, b2n page⟩ part).raise part evMemRoomRetired i (b2n page)

/-- One good room returns to its pool, unless a read of it has been uncorrectable: then it is retired. -/
def State.returnRoom (s : State) (p r : Nat) (bad : Bool) : State :=
  let part := s.poolPart p
  let bad := bad || s.inn.poisonRooms.contains r
  let s := { s with inn := { s.inn with
      rooms := s.inn.rooms.upd {} r fun e => { e with used := false, owner := 0 }, poisonRooms := s.inn.poisonRooms.erase r } }
  let back (s : State) : State := s.updPool p fun q => { q with used := q.used - 1 }
  if !bad then back s
  else if s.retireFull part false then back (s.raiseRetireFull part false)
  else ({ s with inn := { s.inn with retiredRooms := s.inn.retiredRooms ++ [(r, p)] } }).raiseRetired part r false

/-- The one event of a failing free request (R207). -/
def State.freeEvent (s : State) (twice : Bool) (part first n agent : Nat) (page : Bool) : State :=
  s.raise part (if twice then evInnFreeTwice else evInnFreeNotOwner) first (min n 64 + agent * 256 + b2n page * 65536)

/-- A request that fails in one way counts in FREE_TWICE or FREE_NOT_OWNER, with its event. -/
def State.freeFails (s : State) (twice : Bool) (part first n agent : Nat) (page : Bool) : State :=
  (s.bump (innPart (if twice then 0 else 1)) part).freeEvent twice part first n agent page

/-- Free the rooms of a list that chain `c` names, checking STATE and OWNER of each. A request that fails in both ways counts in both
and raises the event of its first failing room (log 120). -/
def State.freeRooms (s : State) (c agent : Nat) (l : List Nat) : State :=
  let h := s.chain c
  let part := s.poolPart h.pool
  let free := l.filter fun r => (s.roomIn r).isNone
  let alien := l.filter fun r => (s.roomIn r).any fun e => e.owner != c
  let good := l.filter fun r => (s.roomIn r).any fun e => e.owner == c
  let fails := l.filter fun r => (s.roomIn r).all fun e => e.owner != c
  let s := good.foldl (fun s r => s.returnRoom h.pool r (h.bad.contains r)) s
  let s := if free.isEmpty then s else s.bump (innPart 0) part
  let s := if alien.isEmpty then s else s.bump (innPart 1) part
  match fails with
  | [] => s
  | r :: _ => s.freeEvent (free.contains r) part r fails.length agent false

/-- FREE of a chain (R206, R207). -/
def State.freeChain (s : State) (c agent : Nat) : State :=
  let h := s.chain c
  let l := s.chainRooms c
  if 1 < h.share then s.freeFails false (s.poolPart h.pool) (l.headD 0) l.length agent false
  else
    let s := s.freeRooms c agent l
    { s with inn := { s.inn with chains := s.inn.chains.del c } }

/-- RELEASE of one share (R206). -/
def State.releaseChain (s : State) (c agent : Nat) : State :=
  if (s.inn.chains.find? c).isNone then s
  else if 1 < (s.chain c).share then s.updChain c fun h => { h with share := h.share - 1 }
  else s.freeChain c agent

/-! ### A queue's segments (R211) -/

/-- Rooms' worth of a packet, of a queue's pages and of its whole data. -/
def QPkt.units (k : QPkt) : Nat := roomsOf k.pkt.data.length
def Queue.cRooms (q : Queue) : Nat := (q.cpages.map (·.2)).foldl (· + ·) 0
def Queue.allRooms (q : Queue) : Nat := (q.pkts.map QPkt.units).foldl (· + ·) 0
def Queue.hRooms (q : Queue) : Nat := q.allRooms - q.cRooms - (if q.cpages.isEmpty then 0 else q.tRooms)

/-- Depth in bytes, counting all segments. -/
def Queue.depth (q : Queue) : Nat := (q.pkts.map fun k => k.pkt.pp.length).foldl (· + ·) 0

def Queue.pullAheadActs (q : Queue) : Nat := max 1 q.pullAhead

/-- Packets that hold rooms' worth in [a, b) of the queue's data: packet, its number in the range, its number before H ends. -/
def unitsIn (h a b : Nat) : Nat → List QPkt → List (QPkt × Nat × Nat)
  | _, [] => []
  | pos, k :: t =>
    let n := k.units
    let lo := max a pos
    let hi := min b (pos + n)
    let rest := unitsIn h a b (pos + n) t
    if lo < hi then (k, hi - lo, min n (h - pos)) :: rest else rest

/-! ### Reading rooms (R305) -/

/-- Read rooms; `out` says how the first reads, and a marked one reads uncorrectable. The answer lists those that do. -/
def State.readRooms (s : State) (part : Nat) (l : List Nat) (out : Nat) : State × List Nat :=
  l.zipIdx.foldl (fun (s, bad) (r, i) =>
    let o := if s.inn.poisonRooms.contains r then 2 else if i = 0 then out else 0
    (s.readOne part (roomUnit r) structRoom r o, if o = 2 then bad ++ [r] else bad)) (s, [])

/-- Read rooms of a chain; those that read uncorrectable are retired when it is freed (R306). -/
def State.readChain (s : State) (part c : Nat) (l : List Nat) (out : Nat) : State × Bool :=
  let r := s.readRooms part l out
  if r.2.isEmpty then (r.1, false) else (r.1.updChain c fun h => { h with bad := (h.bad ++ r.2).dedup }, true)

/-! ### Pages (R211 to R216) -/

def State.pageUsed (s : State) (i : Nat) : Bool := (s.inn.pages.find? i).isSome || s.inn.retiredPages.contains i

/-- The channels of a partition in the order in which they may give queue `q` its next page: round-robin, the channel of the queue's
newest page last (R296, log 116). -/
def State.pageOrder (s : State) (part q : Nat) : List Nat :=
  let l := ((List.range 8).map fun i => (s.inn.pageChan.get 7 part + 1 + i) % 8).filter fun c =>
    s.inn.spillRows.get 0 c != 0 && s.chanPart c == part
  let newest := ((s.queue q).cpages.getLast?).map fun e => e.1 % 8
  l.filter (some · != newest) ++ l.filter (some · == newest)

/-- A free page for queue `q`. -/
def State.findPage (s : State) (part q : Nat) : Option Nat :=
  (s.pageOrder part q).findSome? fun c =>
    let n := s.inn.spillRows.get 0 c
    (firstUnused (fun x => s.pageUsed (x * 8 + c)) 0 n (min n (s.inn.pages.length + s.inn.retiredPages.length + 1))
      (Config.freePage s.freeCtr)).map fun x => x * 8 + c

/-- INN_CELLAR_FULL when the state of a partition's spill area changes. -/
def State.cellarState (s : State) (part : Nat) (full : Bool) : State :=
  if s.inn.cellarFull.get false part = full then s
  else ({ s with inn := { s.inn with cellarFull := s.inn.cellarFull.put false part full } }).raiseSt part evInnCellarFull part 0 full

/-- Free a page of a queue (R216), retired when its read was uncorrectable (R306). -/
def State.freePage (s : State) (q i : Nat) (bad : Bool) : State :=
  let part := s.queuePart q
  match s.inn.pages.find? i with
  | none => s.freeFails true part i 1 agentInn true
  | some o =>
    if o ≠ q then s.freeFails false part i 1 agentInn true
    else
      let bad := bad || s.inn.poisonPages.contains i
      let s := { s with inn := { s.inn with pages := s.inn.pages.del i, poisonPages := s.inn.poisonPages.erase i } }
      if bad then
        if s.retireFull part true then (s.raiseRetireFull part true).cellarState part false
        else ({ s with inn := { s.inn with retiredPages := s.inn.retiredPages ++ [i] } }).raiseRetired part i true
      else s.cellarState part false

/-- Take `n` rooms' worth off the front of a queue's pages: what remains, and the pages emptied. -/
def cutPages : Nat → List (Nat × Nat) → List (Nat × Nat) × List Nat × Nat
  | n, [] => ([], [], n)
  | n, (p, m) :: t =>
    if n = 0 then ((p, m) :: t, [], 0)
    else if n < m then ((p, m - n) :: t, [], 0)
    else
      let r := cutPages (n - m) t
      (r.1, p :: r.2.1, r.2.2)

/-- Remove the head packet of a queue with its rooms and pages. -/
def State.dropHead (s : State) (q agent : Nat) : State :=
  let u := s.queue q
  match u.pkts with
  | [] => s
  | k :: rest =>
    let beyond := k.units - u.hRooms
    let cut := cutPages beyond u.cpages
    let s := s.releaseChain k.chain agent
    let s := cut.2.1.foldl (fun s p => s.freePage q p false) s
    s.updQueue q fun u =>
      { u with
        pkts := rest, cpages := cut.1, tRooms := if cut.1.isEmpty then 0 else u.tRooms - cut.2.2
        outstanding := u.outstanding - 1 }

/-! ### Discarding packets -/

/-- Release a packet's epoch reference (R145). -/
def State.dropRef (s : State) (k : Pkt) : State :=
  s.updEpochs k.part fun e => { e with refs := e.refs.upd 0 k.ep (· - 1) }
def State.dropRefs (s : State) (ps : List Pkt) : State := ps.foldl State.dropRef s

/-- Attached children of an element: node indices, or queues below level 3. -/
def State.kids (s : State) (level ix : Nat) : List Nat :=
  if level = 3 then (s.tm.queues.filter fun (_, q) => q.enable && q.parent == ix).map (·.1)
  else (s.tm.nodes.filter fun (k, n) => k / 2 ^ 17 == level + 1 && n.enable && n.parent == ix).map (·.1 % 2 ^ 17)

def State.setDeficit (s : State) (level ix : Nat) (d : Int) : State :=
  if level = 4 then s.updQueue ix fun q => { q with deficit := d } else s.updNode (nodeKey level ix) fun n => { n with deficit := d }

/-- Some queue below the element holds a packet; `f` is 4 less the element's level. -/
def State.backlogged (s : State) : Nat → Nat → Bool
  | 0, ix => !(s.queue ix).pkts.isEmpty
  | f + 1, ix => (s.kids (3 - f) ix).any fun i => s.backlogged f i

/-- Elements of the path that are no longer backlogged have no deficit (R276). -/
def State.clearDeficits (s : State) (n : Nat) (path : Path4) : State :=
  [(0, n), (1, path.l3), (2, path.l2), (3, path.l1)].foldl (fun s (f, ix) =>
    if s.backlogged f ix then s else s.setDeficit (4 - f) ix 0) s

/-- Discard a queue's packets (R260); the answer also counts them. -/
def State.purgeQueue (s : State) (n : Nat) : Nat → State × Nat
  | 0 => (s, 0)
  | m + 1 =>
    match (s.queue n).pkts with
    | [] => (s, 0)
    | k :: _ =>
      let r := ((s.dropHead n agentDiscard).dropRef k.pkt).purgeQueue n m
      (r.1, r.2 + 1)

/-- Discard every queued packet of a port, with the deficits of what was backlogged. -/
def State.purgePort (s : State) (p : Nat) : State × Nat :=
  (s.portQueues p).foldl (fun (s, c) (n, u) =>
    let r := s.purgeQueue n u.pkts.length
    (r.1.clearDeficits n (s.pathOf u), c + r.2)) (s, 0)

/-- Discard the released frames of a port that the MAC has not sent. -/
def State.purgeEgress (s : State) (p : Nat) : State × Nat :=
  let e := s.egress p
  let s := (e.released ++ e.edited).foldl (fun s r => s.updQueue r.queue fun u => { u with outstanding := u.outstanding - 1 }) s
  ((s.dropRefs (e.released.map (·.pkt))).updEgress p fun e => { e with released := [], edited := [] },
   e.released.length + e.edited.length)

end Sys2Proof.Machine
end

