-- ==== Sys2Proof/Machine/XptMap.lean ====
section
/-! DEFINITION. The framer's map as the other definitions read it (R88, R92 to R94): tributaries, clients and members of a lane group,
which levels and entities exist (R97, R111), and the justification ranges of each mapping (R92, R101). -/

namespace Sys2Proof.Machine

/-- The valid tributaries of a group. -/
def State.tribs (s : State) (g : Nat) : List (Nat × TribRow) :=
  ((List.range 32).map fun t => (t, s.trib g t)).filter (·.2.valid)

/-- The clients of a group, by port number. -/
def State.clientsOf (s : State) (g kind : Nat) : List Nat :=
  ((List.range 8).map (8 * g + ·)).filter fun p => s.clientKind p == kind

/-- Every member VC-4 of a group's kind-2 clients. -/
def State.allMembers (s : State) (g : Nat) : List (Nat × Nat) := (s.clientsOf g 2).flatMap s.members

/-- The kind-2 client and the place in it of a member VC-4. -/
def State.memberOf (s : State) (g t v : Nat) : Option (Nat × Nat) :=
  (s.clientsOf g 2).findSome? fun p => ((s.members p).findIdx? (· == (t, v))).map fun m => (p, m)

/-- The kind-1 client that names tributary t. -/
def State.clientOfTrib (s : State) (g t : Nat) : Option Nat := (s.clientsOf g 1).find? fun p => s.clientTrib p == t

/-- First lane of the line that lane `n` belongs to (R90). -/
def State.lineOf (s : State) (n : Nat) : Nat :=
  ((List.range 8).map (n / 8 * 8 + ·)).foldl (fun a m =>
    if m ≤ n && (s.lineSignal m == 1 || s.lineSignal m == 2) then m else a) n

/-- The kind-0 entry of an OTU4 line. -/
def State.zeroTrib (s : State) (n : Nat) : Option Nat :=
  ((s.tribs (n / 8)).find? fun (_, r) => r.kind == 0 && r.line == n).map (·.1)

/-- VC-4s of a tributary's STM: 64 or 256 (R94). -/
def TribRow.vc4s (r : TribRow) : Nat := if r.payload = 1 then 64 else if r.payload = 2 then 256 else 0

/-- The level exists: a framer lane in use, or an STM tributary (R97). -/
def State.levelExists (s : State) (l : Nat) : Bool :=
  if l < 48 then s.lineSignal l != 0
  else
    let r := s.trib ((l - 48) / 32) ((l - 48) % 32)
    r.valid && (r.payload == 1 || r.payload == 2)

/-- The group's map holds the entity; on transmit a VC-4 that is no member too (R110). -/
def State.entExists (s : State) (g layer ix : Nat) : Bool :=
  decide (g < 6) &&
  match layer with
  | 1 => ix / 8 == g && s.lineSignal ix != 0
  | 2 => ix / 8 == g && s.lineSignal ix != 0
  | 3 => decide (ix < 32) && (s.trib g ix).valid && (s.trib g ix).kind != 0
  | 4 => decide (ix < 32) && s.levelExists (48 + 32 * g + ix)
  | 5 => decide (ix < 32) && s.levelExists (48 + 32 * g + ix)
  | 6 => (s.allMembers g).contains (ix / 256, ix % 256)
  | 7 => decide (ix < 8) && (s.clientKind (8 * g + ix) == 1 || s.clientKind (8 * g + ix) == 2)
  | _ => false

def State.entSends (s : State) (g layer ix : Nat) : Bool :=
  s.entExists g layer ix ||
    (layer == 6 && decide (g < 6) && decide (ix / 256 < 32) && (s.trib g (ix / 256)).valid
      && decide (ix % 256 < (s.trib g (ix / 256)).vc4s))

/-- The entities of a group that are monitored (R111): group layer index. -/
def State.monitored (s : State) (g : Nat) : List Nat :=
  let lanes := ((List.range 8).map (8 * g + ·)).filter fun n => s.lineSignal n != 0
  let ts := s.tribs g
  let stm := ts.filter fun (_, r) => r.payload == 1 || r.payload == 2
  lanes.flatMap (fun n => [mkEnt g 1 n, mkEnt g 2 n])
    ++ (ts.filter fun (_, r) => r.kind != 0).map (fun (t, _) => mkEnt g 3 t)
    ++ stm.flatMap (fun (t, _) => [mkEnt g 4 t, mkEnt g 5 t])
    ++ (s.allMembers g).map (fun (t, v) => mkEnt g 6 (t * 256 + v))
    ++ (s.clientsOf g 2).map fun p => mkEnt g 7 (p % 8)

/-- Slots that a kind uses, 0 for kind 0. -/
def kindSlots (k : Nat) : Nat := [0, 20, 8, 31, 2, 8].getD k 0

/-- Payload type that G.709 assigns to what a line's or tributary's OPU carries: 0x07 100GbE, 0x02 an STM, 0x21 and 0x22 tributaries
in an ODU4 and an ODUCn (PRESUMED; log 47). -/
def State.linePt (s : State) (n : Nat) : Nat :=
  if s.lineSignal n != 1 then 0x22
  else if (s.tribs (n / 8)).any fun (_, r) => r.line == n && (r.kind == 2 || r.kind == 3) then 0x21 else 0x07
def TribRow.pt (r : TribRow) : Nat := if r.payload = 0 then 0x07 else 0x02

/-- A GMP mapping: what one server frame takes in, over a denominator, and the clock tolerance in ppm (R92; PRESUMED: the rates of
G.709; log 47). -/
structure GmpRate where
  num : Nat
  den : Nat
  ppm : Nat

/-- Rates of the kinds of tributaries into their servers. -/
def gmpOfKind (k : Nat) : GmpRate :=
  [⟨0, 1, 0⟩, ⟨239 * 226 * 952, 227 * 238, 40⟩, ⟨239 * 227 * 15200 * 2, 237 * 475, 40⟩, ⟨239 * 227 * 32 * 15200 * 2, 236 * 31 * 475, 40⟩,
   ⟨239 * 226 * 952, 237 * 238, 40⟩, ⟨239 * 226 * 952, 236 * 238, 40⟩].getD k ⟨0, 1, 0⟩

/-- 100GbE into OPU4, in blocks of 640 bits. -/
def gmpOfClient : GmpRate := ⟨44477812500, 236888064, 120⟩

/-- Smallest and largest Cm that the tolerance allows. -/
def GmpRate.lo (r : GmpRate) : Nat := r.num * (1000000 - r.ppm) / (r.den * 1000000)
def GmpRate.hi (r : GmpRate) : Nat := ceilDiv (r.num * (1000000 + r.ppm)) (r.den * 1000000)

/-- One frame of the server: the Cm that follows the buffer's fill within the range, and the fill that it leaves (R101). -/
def GmpRate.send (r : GmpRate) (fill : Nat) : Nat × Nat :=
  let cm := min r.hi (max r.lo ((fill + r.num) / r.den))
  (cm, fill + r.num - cm * r.den)

end Sys2Proof.Machine
end

