-- ==== Sys2Proof/Machine/XptSig.lean ====
section
/-! DEFINITION. Signal processing of the framer, as functions of plain data: parity (R106), GMP and AMP justification control and the
AU-4 pointer (R100, R101), accepted overhead values (R108), GFP-F (R109, R110), the 64B/66B stream of a 100GbE client (R109,
R110), and alignment of a concatenated group's members (R103). What R100 to R110 take from G.709, G.707 and G.7041 by name is
PRESUMED in their text's terms (log 47). -/

namespace Sys2Proof.Machine

/-! ### Parity (R106) -/

/-- Number of ones of a byte. -/
def onesOf (b : Byte) : Nat := ((List.range 8).filter fun i => b.getLsbD i).length

/-- Parity bytes of a field, interleaved over `w` bytes: the first byte of the answer belongs to byte 0. -/
def bipOf (w : Nat) (bs : List Byte) : List Byte :=
  (List.range w).map fun i => (bs.zipIdx.filter fun (_, j) => j % w == i).foldl (fun a (b, _) => a ^^^ b) 0

/-- Parity bits that differ. -/
def bipErrors (a b : List Byte) : Nat := ((a.zip b).map fun (x, y) => onesOf (x ^^^ y)).sum

/-- Bytes of a layer's parity: BIP-8, and for B2 three per STM-1. -/
def bipWidth (layer vc4s : Nat) : Nat := if layer = 5 then 3 * vc4s else 1

/-- Frames between the field's frame and the frame that carries its parity: two for OTU SM and ODU PM, one for B1, B2 and B3. -/
def bipDelay (layer : Nat) : Nat := if layer ≤ 3 then 2 else 1

/-- The parity field of a frame meets what was computed `delay` frames ago: its violations, and the parities that wait. -/
def parityStep (delay : Nat) (wait : List (List Byte)) (own got : List Byte) : Nat × List (List Byte) :=
  match wait with
  | [] => (0, [own])
  | h :: t => if delay ≤ wait.length then (bipErrors h got, t ++ [own]) else (0, wait ++ [own])

/-! ### Accepted values (R108) -/

/-- One more frame carries `v`; a value is accepted when `n` frames in a row have carried it. -/
def Accept.feed (a : Accept) (n v : Nat) : Accept :=
  let run := if a.run != 0 && a.val == v then min n (a.run + 1) else 1
  { val := v, run := run, acc := if n ≤ run then v else a.acc }

/-! ### GMP and AMP control (R100, R101) -/

/-- CRC-8 of JC1 and JC2: x^8 + x^3 + x^2 + 1. -/
def jcCrc (x : Nat) : Nat :=
  (List.range 16).foldl (fun r i =>
    let top := (r / 128 % 2) ^^^ (x / 2 ^ (15 - i) % 2)
    (r * 2 % 256) ^^^ (if top = 1 then 0x0D else 0)) 0

/-- Bits of Cm that are inverted to announce a change of +1, -1, +2 and -2. -/
def jcUp1 : Nat := 0x2AAA
def jcDown1 : Nat := 0x1555
def jcUp2 : Nat := 0x1999
def jcDown2 : Nat := 0x2666

/-- JC1 to JC3 that carry `cm` after `old`. -/
def gmpEncode (old cm : Nat) : List Byte :=
  let w := if cm = old then cm * 4
    else if cm = old + 1 then (old ^^^ jcUp1) * 4 + 2
    else if cm + 1 = old then (old ^^^ jcDown1) * 4 + 1
    else if cm = old + 2 then (old ^^^ jcUp2) * 4 + 2
    else if cm + 2 = old then (old ^^^ jcDown2) * 4 + 1
    else cm * 4 + 3
  beBytes 2 w ++ [BitVec.ofNat 8 (jcCrc w)]

/-- A received control: `none` on a CRC error, else Cm. -/
def gmpDecode (old : Nat) (jc : List Byte) : Option Nat :=
  let w := be16 jc 0
  let c := w / 4
  if jcCrc w ≠ byteAt jc 2 then none
  else some (
    if w % 4 = 2 then
      (if c = old ^^^ jcUp1 then old + 1 else if c = old ^^^ jcUp2 then old + 2 else (c ^^^ jcUp1) + 1)
    else if w % 4 = 1 then
      (if c = old ^^^ jcDown1 then old - 1 else if c = old ^^^ jcDown2 then old - 2 else (c ^^^ jcDown1) - 1)
    else c)

/-- Three copies of an AMP control: the value that two agree on, bit by bit. -/
def majority3 (l : List Nat) : Nat :=
  let a := l.getD 0 0
  let b := l.getD 1 0
  let c := l.getD 2 0
  (a &&& b) ||| (a &&& c) ||| (b &&& c)

def unanimous3 (l : List Nat) : Bool := l.all fun x => x == l.getD 0 0

/-! ### The AU-4 pointer (R100, R101) -/

/-- The pointer that the device sends: value 0, no new data, never justified (R101). -/
def sentPointer : Nat := 0x6800

/-- Number of the bits of `x` at the places of `l` that are 1. -/
def countBits (x : Nat) (l : List Nat) : Nat := (l.filter fun i => bit x i).length

/-- New data flag: enabled 1001, disabled 0110, each also with one bit wrong. -/
def ndfEnabled (w : Nat) : Bool := decide (countBits ((w / 4096) ^^^ 9) [0, 1, 2, 3] ≤ 1)
def ndfDisabled (w : Nat) : Bool := decide (countBits ((w / 4096) ^^^ 6) [0, 1, 2, 3] ≤ 1)

def iBits : List Nat := [9, 7, 5, 3, 1]
def dBits : List Nat := [8, 6, 4, 2, 0]

/-- What a pointer word counts: increment, decrement, invalid. -/
inductive PtrEvent where
  | none | inc | dec | invalid
deriving DecidableEq, Repr

/-- One received pointer word: three equal new values set the pointer, three AIS words give AIS, eight invalid words or eight new data
flags in a row give LOP. -/
def Ptr.feed (p : Ptr) (w : Nat) : Ptr × PtrEvent :=
  let v := w % 1024
  let ok := decide (v ≤ 782)
  let q := { p with since := min 4 (p.since + 1) }
  if w = 0xFFFF then
    let n := min 3 (p.ais + 1)
    ({ q with ais := n, inv := 0, ndf := 0, fresh := (0, 0), st := if 3 ≤ n then 1 else p.st }, .none)
  else if ndfEnabled w && ok then
    let n := min 8 (p.ndf + 1)
    ({ q with ndf := n, inv := 0, ais := 0, fresh := (0, 0), val := v, since := 0
              st := if 8 ≤ n then 2 else if p.st = 2 then 2 else 0 }, .none)
  else if ndfDisabled w && p.st == 0 && v == p.val then
    ({ q with ndf := 0, inv := 0, ais := 0, fresh := (0, 0) }, .none)
  else
    let x := v ^^^ p.val
    let i := countBits x iBits
    let d := countBits x dBits
    if ndfDisabled w && p.st == 0 && decide (3 ≤ i ∧ d < 3 ∧ 3 ≤ p.since) then
      ({ q with val := (p.val + 1) % 783, since := 0, ndf := 0, inv := 0, ais := 0, fresh := (0, 0) }, .inc)
    else if ndfDisabled w && p.st == 0 && decide (3 ≤ d ∧ i < 3 ∧ 3 ≤ p.since) then
      ({ q with val := (p.val + 782) % 783, since := 0, ndf := 0, inv := 0, ais := 0, fresh := (0, 0) }, .dec)
    else if ndfDisabled w && ok then
      let n := if p.fresh.1 = v ∧ p.fresh.2 ≠ 0 then p.fresh.2 + 1 else 1
      if 3 ≤ n then ({ q with st := 0, val := v, since := 0, ndf := 0, inv := 0, ais := 0, fresh := (0, 0) }, .none)
      else
        let m := min 8 (p.inv + 1)
        ({ q with ndf := 0, ais := 0, inv := m, fresh := (v, n), st := if 8 ≤ m then 2 else p.st }, .none)
    else
      let m := min 8 (p.inv + 1)
      ({ q with ndf := 0, ais := 0, inv := m, fresh := (0, 0), st := if 8 ≤ m then 2 else p.st }, .invalid)

/-! ### Concatenated groups (R103) -/

/-- 125 µs in TIME cycles. -/
def frameCyc : Nat := 100000

/-- The delay buffers of a client's members, each oldest first, when a frame has just arrived: the spread of the oldest indicator that
every member holds, in 125 µs frames rounded up, the payloads under it, and the buffers without it and what is older. `none`
while some member has not received it. -/
def alignMembers (bufs : List (List (Nat × Nat × List Byte))) : Option (Nat × List (List Byte) × List (List (Nat × Nat × List Byte))) :=
  match bufs with
  | [] => none
  | b :: _ =>
    match b.find? fun e => bufs.all fun c => c.any fun x => x.1 == e.1 with
    | none => none
    | some e =>
      let hit := bufs.map fun c => ((c.find? fun x => x.1 == e.1).getD e).2
      let at_ := hit.map (·.1)
      let spread := ceilDiv (at_.foldl max 0 - (at_.min?.getD 0)) frameCyc
      some (spread, hit.map (·.2), bufs.map fun c => (c.dropWhile fun x => x.1 != e.1).drop 1)

/-- Payload of the concatenated container: one byte of each member in turn. -/
def interleave (parts : List (List Byte)) : List Byte :=
  (List.range ((parts.map (·.length)).min?.getD 0)).flatMap fun i => parts.map fun p => p.getD i 0

/-! ### GFP-F (R109, R110) -/

/-- CRC-16 of a GFP header: x^16 + x^12 + x^5 + 1. -/
def gfpCrc (bs : List Byte) : Nat :=
  bs.foldl (fun r b => (List.range 8).foldl (fun r i =>
    let top := (r / 32768 % 2) ^^^ (b.toNat / 2 ^ (7 - i) % 2)
    (r * 2 % 65536) ^^^ (if top = 1 then 0x1021 else 0)) r) 0

/-- The core header's scramble. -/
def gfpBarker : Nat := 0xB6AB31E0

/-- A header of two bytes with its check. -/
def gfpHead (v : Nat) : List Byte := beBytes 2 v ++ beBytes 2 (gfpCrc (beBytes 2 v))

/-- The 16-bit value of a header of 32 bits, and whether it needed no correction; with `fix` a single wrong bit is corrected. -/
def gfpRead (x : Nat) (fix : Bool) : Option (Nat × Bool) :=
  let good (y : Nat) : Bool := gfpCrc (beBytes 2 (y / 65536)) == y % 65536
  if good x then some (x / 65536, true)
  else if fix then ((List.range 32).find? fun i => good (x ^^^ 2 ^ i)).map fun i => ((x ^^^ 2 ^ i) / 65536, false)
  else none

/-- The payload scrambler x^43 + 1: each byte with the bits 43 places before it. `self` feeds the output back (scrambling), else the
input (descrambling). -/
def scramble43 (tx : Bool) (scr : Nat) (bs : List Byte) : Nat × List Byte :=
  bs.foldl (fun (r, out) b =>
    let y := b.toNat ^^^ (r / 2 ^ 35 % 256)
    ((r * 256 + (if tx then y else b.toNat)) % 2 ^ 43, out ++ [BitVec.ofNat 8 y])) (scr, [])

/-- Type of a frame-mapped Ethernet client frame: client data, no payload FCS, null extension, UPI 1. -/
def gfpEthernet : Nat := 0x0001

/-- A GFP-F frame, with its core header and scrambled payload area, and the scrambler after it. -/
def gfpFrame (scr : Nat) (f : List Byte) : Nat × List Byte :=
  let core := beNat (gfpHead (f.length + 4)) ^^^ gfpBarker
  let r := scramble43 true scr (gfpHead gfpEthernet ++ f)
  (r.1, beBytes 4 core ++ r.2)

/-- The idle frame. -/
def gfpIdle : List Byte := beBytes 4 (beNat (gfpHead 0) ^^^ gfpBarker)

/-- What delineation found: Ethernet frames in order, core headers corrected and uncorrectable, other frames dropped. -/
structure GfpOut where
  frames : List (List Byte) := []
  corr : Nat := 0
  uncorr : Nat := 0
  drop : Nat := 0
deriving DecidableEq, Repr

/-- The payload area of a client frame: an Ethernet frame, or none. -/
def gfpClient (area : List Byte) : Option (List Byte) :=
  match gfpRead (beNat (area.take 4)) true with
  | some (t, _) => if t = gfpEthernet then some (area.drop 4) else none
  | none => none

/-- Delineate the buffered bytes; `n` bounds the number of steps. -/
def Gfp.run : Nat → Gfp → GfpOut → Gfp × GfpOut
  | 0, g, o => (g, o)
  | n + 1, g, o =>
    if g.buf.length < 4 then (g, o) else
    match gfpRead (beNat (g.buf.take 4) ^^^ gfpBarker) (g.st == 2) with
    | none =>
      Gfp.run n { g with st := 0, buf := g.buf.drop 1 } (if g.st = 2 then { o with uncorr := o.uncorr + 1 } else o)
    | some (pli, clean) =>
      let len := if pli < 4 then 0 else pli
      if g.buf.length < 4 + len then (g, o)
      else
        let rest := g.buf.drop (4 + len)
        if g.st = 0 then Gfp.run n { g with st := 1, buf := rest } o
        else
          let o := if clean then o else { o with corr := o.corr + 1 }
          if len = 0 then Gfp.run n { g with st := 2, buf := rest } o
          else
            let r := scramble43 false g.scr (slice g.buf 4 len)
            let o := match gfpClient r.2 with
              | some f => { o with frames := o.frames ++ [f] }
              | none => { o with drop := o.drop + 1 }
            Gfp.run n { st := 2, buf := rest, scr := r.1 } o

/-- More bytes arrive. -/
def Gfp.feed (g : Gfp) (bs : List Byte) : Gfp × GfpOut :=
  let g := { g with buf := g.buf ++ bs }
  g.run (g.buf.length + 1) {}

/-! ### The 64B/66B stream (R109, R110) -/

/-- A block with data bytes, and one of a control type with the bytes after it; the sync header in bits [1:0]. -/
def dataBlock (bs : List Byte) : Nat := 2 + leNat bs * 4
def ctrlBlock (ty : Nat) (bs : List Byte) : Nat := 1 + (ty + leNat bs * 256) * 4

def idleBlock : Nat := ctrlBlock 0x1E []
/-- Start of a frame: the rest of the preamble and the start delimiter. -/
def startBlock : Nat := ctrlBlock 0x78 (List.replicate 6 0x55 ++ [0xD5])
/-- Types of the end of a frame, by the number of data bytes before it. -/
def endTypes : List Nat := [0x87, 0x99, 0xAA, 0xB4, 0xCC, 0xD2, 0xE1, 0xFF]

/-- Blocks of a frame's bytes up to its end; `n` bounds their number. -/
def bodyBlocks : Nat → List Byte → List Nat
  | 0, _ => []
  | n + 1, f => if f.length < 8 then [ctrlBlock (endTypes.getD f.length 0) f] else dataBlock (f.take 8) :: bodyBlocks n (f.drop 8)

/-- A frame with the idle that follows it. -/
def frameBlocks (f : List Byte) : List Nat := startBlock :: bodyBlocks (f.length / 8 + 1) f ++ [idleBlock]

/-- What the blocks bring: frames in order, each with whether an error lies in it; errored blocks. -/
structure PcsOut where
  frames : List (List Byte × Bool) := []
  errors : Nat := 0
deriving DecidableEq, Repr

/-- Block lock: 64 good sync headers in a row give it, 65 bad ones among 1,024 blocks take it (Clause 82; PRESUMED). -/
def Pcs.sync (p : Pcs) (good : Bool) : Pcs :=
  let run := if good then min 64 (p.run + 1) else 0
  let seen := if p.seen = 1024 then 1 else p.seen + 1
  let bad := (if p.seen = 1024 then 0 else p.bad) + b2n (!good)
  if p.lock && decide (65 ≤ bad) then { p with lock := false, run := 0, seen := 0, bad := 0, part := none }
  else if !p.lock && run == 64 then { p with lock := true, run := run, seen := 0, bad := 0 }
  else { p with run := run, seen := seen, bad := bad }

/-- One block in lock. -/
def Pcs.block (p : Pcs) (o : PcsOut) (b : Nat) : Pcs × PcsOut :=
  let ty := bits b 2 8
  let body := leBytes 8 (b / 4)
  let stray : Pcs × PcsOut :=
    match p.part with
    | none => (p, { o with errors := o.errors + 1 })
    | some (f, _) => ({ p with part := some (f, true) }, { o with errors := o.errors + 1 })
  if b % 4 = 2 then
    match p.part with
    | none => stray
    | some (f, e) => ({ p with part := some (f ++ body, e) }, o)
  else if b % 4 ≠ 1 then stray
  else if ty = 0x78 then
    match p.part with
    | none => ({ p with part := some ([], false) }, o)
    | some (f, _) => ({ p with part := some ([], false) }, { frames := o.frames ++ [(f, true)], errors := o.errors + 1 })
  else match endTypes.findIdx? (· == ty), p.part with
    | some n, some (f, e) => ({ p with part := none }, { o with frames := o.frames ++ [(f ++ slice body 1 n, e)] })
    | some _, none => stray
    | none, none => if ty = 0x1E ∨ ty = 0x4B then (p, o) else stray
    | none, some (f, _) => ({ p with part := none }, { frames := o.frames ++ [(f, true)], errors := o.errors + 1 })

/-- More blocks arrive. -/
def Pcs.feed (p : Pcs) (bs : List Nat) : Pcs × PcsOut :=
  bs.foldl (fun (p, o) b =>
    let q := p.sync (b % 4 == 1 || b % 4 == 2)
    if q.lock then q.block o b else (q, o)) (p, {})

/-! ### What a client sends (R110) -/

/-- Blocks of `n`, the frames that wait first, then idle. -/
def Client.takeBlocks (c : Client) (n : Nat) : Client × List Nat :=
  let all := c.txBlocks ++ c.txFrames.flatMap frameBlocks
  ({ c with txFrames := [], txBlocks := all.drop n }, all.take n ++ List.replicate (n - all.length) idleBlock)

/-- GFP frames of what waits, scrambled. -/
def gfpAll (scr : Nat) (fs : List (List Byte)) : Nat × List Byte :=
  fs.foldl (fun (r, out) f => let x := gfpFrame r f; (x.1, out ++ x.2)) (scr, [])

/-- Payload of `n` bytes: the frames that wait first, then idle frames, the last of which may go on in the next payload. -/
def Client.takeBytes (c : Client) (n : Nat) : Client × List Byte :=
  let x := gfpAll c.txScr c.txFrames
  let all := c.txBytes ++ x.2
  let all := all ++ (List.replicate (ceilDiv (n - all.length) 4) gfpIdle).flatten
  ({ c with txFrames := [], txScr := x.1, txBytes := all.drop n }, all.take n)

end Sys2Proof.Machine
end

