-- ==== Sys2Proof/Machine/Lane.lean ====
section
/-! DEFINITION. Line, fabric and twin lanes: the states of R65, attempts and the ladder (R67 to R71), lane events (R72),
PRBS (R75 to R77), and what a port's going down and coming back does to the traffic manager (R258 to R260) and to a fabric
link (R229). Line port p has number p, link group j has number 48 + j. -/

namespace Sys2Proof.Machine

/-! ### Extending bounds (R258, R259) -/

/-- The Ledger's counters of a port (R270). -/
def ledgerPort (item : Nat) : CtrName := ⟨0x10, 1, item⟩

/-- Add `delta` quanta to a promised packet's bound. -/
def extendPkts (delta : Nat) (l : List QPkt) : List QPkt :=
  l.map fun k => { k with bound := k.bound.map (· + delta) }

/-- Number of bounds outstanding in a list. -/
def boundCount (l : List QPkt) : Nat := (l.filter fun k => k.bound.isSome).length

/-- The queue is promised and its class is in the mask. -/
def Queue.affected (q : Queue) (mask : Nat) : Bool :=
  (decide (0 < q.gRate) || !q.held.isEmpty || q.pkts.any fun k => k.bound.isSome) && bit mask q.tc

def extendRel (s : State) (mask delta : Nat) (l : List Rel) : List Rel :=
  l.map fun r => if (s.queue r.queue).affected mask then { r with bound := r.bound.map (· + delta) } else r

def relCount (s : State) (mask : Nat) (l : List Rel) : Nat :=
  (l.filter fun r => r.bound.isSome && (s.queue r.queue).affected mask).length

/-- The latest of the bounds at a port that were computed under its old gate list (R263). -/
def State.oldBound (s : State) (p : Nat) : Nat :=
  let e := s.egress p
  (((s.portQueues p).flatMap fun (_, q) => (q.pkts.filter (·.oldList)).filterMap (·.bound))
    ++ ((e.released ++ e.edited).filter (·.oldList)).filterMap (·.bound)).foldl max 0

/-- A pending raising gate list waits for the bounds as they stand extended (R263). -/
def State.extendGate (s : State) (p : Nat) : State :=
  s.updGate p fun g => { g with pending := g.pending.map fun c => if c.raising then { c with bound := max c.bound (s.oldBound p) } else c }

/-- Add `delta` to the horizon, and `delta` and `extra` to every outstanding bound, of the port's promised queues of the classes in
`mask`; the second component is the number of bounds (R258, R260). -/
def State.extendPort (s : State) (p mask delta extra : Nat) : State × Nat :=
  let qs := (s.portQueues p).filter fun (_, q) => q.affected mask
  let e := s.egress p
  let n := (qs.map fun (_, q) => boundCount q.pkts).foldl (· + ·) 0 + relCount s mask e.released + relCount s mask e.edited
  let s' := qs.foldl (fun s (i, _) => s.updQueue i fun q =>
    { q with horizon := q.horizon + delta, pkts := extendPkts (delta + extra) q.pkts }) s
  let s' := s'.updEgress p fun e =>
    { e with released := extendRel s mask (delta + extra) e.released, edited := extendRel s mask (delta + extra) e.edited }
  (s'.extendGate p, n)

/-- Outstanding bounds of the port's promised queues of the classes. -/
def State.outstandingBounds (s : State) (p mask : Nat) : Nat := (s.extendPort p mask 0 0).2

/-- LEDGER_EXTENDED with the payload of R259; `fin` false for an interim report. -/
def State.raiseExtended (s : State) (p cause : Nat) (fin : Bool) (mask start stop n : Nat) : State :=
  s.raise (s.portPart p) evLedgerExtended p
    (p + cause * 2 ^ 8 + b2n fin * 2 ^ 10 + mask * 2 ^ 16 + (secOf start % 2 ^ 48) * 2 ^ 32 + nsOf start * 2 ^ 80
      + (secOf stop % 2 ^ 48) * 2 ^ 112 + nsOf stop * 2 ^ 160 + min n (2 ^ 32 - 1) * 2 ^ 192)

/-- An interval ends: horizons extended by its length, bounds by it and `extra`, EXTENDED counted, LEDGER_EXTENDED raised (R258, R259). -/
def State.applyInterval (s : State) (p cause mask start stop extra : Nat) : State :=
  let r := s.extendPort p mask (stop - start) extra
  (r.1.bump ⟨0x10, 1, 2⟩ p r.2).raiseExtended p cause true mask start stop r.2

/-! ### Lanes of a port -/

/-- Number of lanes of a line port; the slices of an OTUCn form one port (R91). -/
def State.laneCount (s : State) (p : Nat) : Nat :=
  if (s.port p).typ = 14 ∧ s.lineSignal p = 2 then s.lineN p
  else typeLanes (s.port p).typ

/-- Lanes of a port in its present type. -/
def State.lanesOf (s : State) (p : Nat) : List Nat :=
  if p < 48 then (List.range (s.laneCount p)).map (p + ·)
  else (List.range 4).map fun i => 48 + 4 * (p - 48) + i

/-- The port that a lane belongs to. -/
def State.portOfLane (s : State) (n : Nat) : Option Nat :=
  if 48 ≤ n then some (48 + (n - 48) / 4)
  else ((List.range 8).map (n / 8 * 8 + ·)).find? fun p =>
    decide (p ≤ n) && decide (n < p + s.laneCount p)

/-- All lanes of a port are in a state. -/
def State.lanesAll (s : State) (p : Nat) (st : LaneSt) : Bool :=
  !(s.lanesOf p).isEmpty && (s.lanesOf p).all fun n => (s.lane n).st == st

/-- The port is in PCS_UP. -/
def State.pcsUp (s : State) (p : Nat) : Bool := s.lanesAll p .pcsUp

/-- Change every lane of a port. -/
def State.updLanes (s : State) (p : Nat) (f : Lane → Lane) : State :=
  (s.lanesOf p).foldl (fun s n => s.updLane n f) s

/-- Numeric code of a lane state (R65). -/
def LaneSt.code : LaneSt → Nat
  | .off => 0 | .txOn => 1 | .rxSignal => 2 | .rxAdapt => 3 | .rxLock => 4 | .pcsUp => 5 | .prbs => 6

/-- A lane enters a state now. -/
def Lane.enter (l : Lane) (st : LaneSt) (cyc : Nat) : Lane := { l with st := st, since := cyc }

/-- Exits from RX_LOCK or PCS_UP to a lower state count in LOCK_LOSS (R78). -/
def State.moveLane (s : State) (n : Nat) (st : LaneSt) : State :=
  let was := (s.lane n).st
  let lower := (was == .pcsUp || was == .rxLock) && decide (st.code < was.code)
  let s := s.updLane n fun l => l.enter st s.cyc
  if lower then s.bump ⟨2, 0, 2⟩ n else s

/-- Every lane of a port enters a state. -/
def State.moveLanes (s : State) (p : Nat) (st : LaneSt) : State := (s.lanesOf p).foldl (fun s n => s.moveLane n st) s

/-- LANE_TIMERS as they act, in cycles (R74). -/
def State.lockTimeoutCyc (s : State) : Nat := max 10 (s.regF 0x00201100 0 16) * cycMs
def State.retryCyc (s : State) : Nat := max 1 (s.regF 0x00201100 16 16) * cycMs

/-- An attempt begins now (R65 to R67). -/
def State.beginAttempt (s : State) (p : Nat) : State :=
  let ad := (s.lanesOf p).any fun n => (s.lane n).st == .rxAdapt || (s.lane n).st == .rxLock
  s.updPort p fun t => { t with attempt := some s.cyc, adapted := ad, failedAt := none }


/-! ### Fabric links behind lanes (R229, R230) -/

/-- Output points of a link group: 0 to 23 fabric transmit; 24 and 25 share twin transmit, point 32. -/
def linkOutput (j : Nat) : Nat := if j < 24 then j else 32

/-- Input of an input point: 0 to 3 slices, 4 + j fabric, 28 twin, 29 inject (R221). -/
def pointInput (i : Nat) : Nat := if i < 12 then i / 3 else if i < 36 then i - 8 else if i < 38 then 28 else 29

/-- Output of an output point: 0 to 23 fabric, 24 to 31 writer ports, 32 twin, 33 punt. -/
def pointOutput (o : Nat) : Nat := if o < 24 then o else if o < 40 then 24 + (o - 24) / 2 else if o < 42 then 32 else 33

/-- Reassembly space returns to its link when the packet has moved to the switch core or is discarded (R241). -/
def State.freeRx (s : State) (k : Pkt) : State :=
  if k.rxUnits = 0 then s else s.updLink k.rxLink fun l => { l with toReturn := l.toReturn + k.rxUnits }

/-- Every packet that waits at a link output is discarded, also one of which only a part has crossed; the packets of the link's group
count in LINK_DOWN_DROP, those of the twin output in TWIN_LINK_DROP (R224, R230). -/
def State.emptyOutput (s : State) (out : Nat) : State :=
  let waiting := s.outputOf out ++ (s.switch.xfers.filter fun x => pointOutput x.2.out == out).map (·.2.pkt)
  let s := s.updOutput out fun _ => []
  let s := { s with switch := { s.switch with xfers := s.switch.xfers.filter fun x => pointOutput x.2.out != out } }
  let s := s.bumpNz (if out < 24 then ⟨0x0F, 0, 5⟩ else ⟨0x15, 2, 2⟩) (if out < 24 then out else 0) waiting.length
  (waiting.foldl State.freeRx s).dropRefs waiting

/-- What waits for a link when it leaves UP (R230). Twin packets wait while the other twin group is up. -/
def State.flushLink (s : State) (j : Nat) : State :=
  let l := s.link j
  let keep := decide (24 ≤ j) && (s.link (if j = 24 then 25 else 24)).st == .up
  let s := (s.updLink j fun l => { l with sending := none }).dropRefs (l.sending.map (·.1)).toList
  if keep then s else s.emptyOutput (linkOutput j)

/-- FAB_LINK_DOWN causes (R246): 0 lanes, 1 timeout, 2 capability change. -/
def State.linkDown (s : State) (j cause : Nat) : State :=
  let was := (s.link j).st
  let s := s.updLink j fun l =>
    { l with st := .down, version := 0, cause := 0, word := 0, capRun := 0, changedRun := 0, stalled := false, shortSince := none
             txIdle := false, rxIdle := false }
  if was == .up then (s.flushLink j).raise 0 evFabLinkDown j cause else s

/-- The lanes of a group reach PCS_UP: the link enters CAP while its mode is ON (R229). -/
def State.linkLanesUp (s : State) (j : Nat) : State :=
  let on := if j < 24 then s.isOn .fabric || s.isOn .direct else s.isOn .twin
  if on && (s.link j).st == .down then
    s.updLink j fun l => { l with st := .cap, capRun := 0, lastCap := none, lastGood := s.cyc }
  else s

/-! ### Ports up and down -/

/-- The port is the line of a framer group, which its first lane numbers (R91). -/
def State.isFramerLine (s : State) (p : Nat) : Bool := decide (p < 48) && (s.port p).typ == 14

/-- R260: DOWN_HOLD_US has passed with the port still down: every packet of the port is discarded and LEDGER_EXTENDED reports
their number. -/
def State.flushDown (s : State) (p t0 : Nat) : State :=
  let r := s.purgePort p
  let g := r.1.purgeEgress p
  let n := r.2 + g.2
  let s := g.1.updPort p fun t => { t with downAt := none }
  (s.bump (ledgerPort 1) p n).raiseExtended p 2 true 0xFF t0 s.now n

/-- DOWN_HOLD_US of the port has passed since it left PCS_UP at cycle `c`. -/
def State.holdPast (s : State) (p c : Nat) : Bool := decide (c + (s.egress p).downHold * cycUs ≤ s.cyc)

/-- A port goes down now: its down interval begins, or its packets go at once when it holds none (R260); LINK_DOWN is raised (R72). -/
def State.goesDown (s : State) (p st cause : Nat) : State :=
  let tf := s.tFrame p
  let t0 := s.now
  let s := (s.updPort p fun t =>
    { t with downAt := some (s.cyc, t0), downFrame := tf, interimAt := t.interimAt.put 0 9 s.cyc }).raise (s.portPart p) evLinkDown p
    (st + cause * 256)
  if (s.egress p).downHold = 0 then s.flushDown p t0 else s

/-- A port returns to PCS_UP within its hold time: the down interval extends horizons and bounds, and the bounds also by the increase
of T_frame that a ladder step brings; after it, its packets are gone (R260). -/
def State.portReturns (s : State) (p : Nat) : State :=
  match (s.port p).downAt with
  | none => s
  | some (c, t0) =>
    if s.holdPast p c then s.flushDown p t0 else
    let extra := s.tFrame p - (s.port p).downFrame
    (s.updPort p fun t => { t with downAt := none }).applyInterval p 2 0xFF t0 s.now extra

/-! ### Transport clients as ports (R93, R108) -/

/-- Defects that stand on an entity. -/
def State.entDefects (s : State) (g layer ix : Nat) : Nat := (s.ent (mkEnt g layer ix)).defects

/-- An alignment level carries no defect: it is in frame and LOF has cleared (R99, R108). -/
def State.levelGood (s : State) (l : Nat) : Bool := (s.level l).inFrame && !(s.level l).lof

/-- The line that first lane `n` begins carries no defect. -/
def State.lineGood (s : State) (n : Nat) : Bool :=
  s.pcsUp n && (s.lanesOf n).all fun l =>
    s.levelGood l && s.entDefects (n / 8) 1 l == 0 && s.entDefects (n / 8) 2 l == 0

/-- The path through tributary t carries no defect. -/
def State.tribGood (s : State) (g t : Nat) : Bool := s.lineGood (s.trib g t).line && s.entDefects g 3 t == 0

/-- The STM signal in tributary t carries no defect. -/
def State.stmGood (s : State) (g t : Nat) : Bool :=
  s.tribGood g t && s.levelGood (48 + 32 * g + t) && s.entDefects g 5 t == 0

/-- Signal fail of an entity: the defects that G.709 and G.707 name for the indication back to the far end, its own and those of its
servers; a payload type mismatch is none (R107; PRESUMED, log 47). -/
def State.otuFail (s : State) (n : Nat) : Bool := !s.levelGood n || bit (s.entDefects (n / 8) 1 n) 0
def State.oduFail (s : State) (n : Nat) : Bool := s.otuFail n || bit (s.entDefects (n / 8) 2 n) 1
def State.tribFail (s : State) (g t : Nat) : Bool :=
  (s.lanesOf (s.trib g t).line).any s.oduFail || s.entDefects g 3 t &&& 0x82 != 0
def State.rsFail (s : State) (g t : Nat) : Bool := s.tribFail g t || !s.levelGood (48 + 32 * g + t)
def State.msFail (s : State) (g t : Nat) : Bool := s.rsFail g t || bit (s.entDefects g 5 t) 1
def State.entFail (s : State) (g layer ix : Nat) : Bool :=
  match layer with
  | 1 => s.otuFail ix
  | 2 => s.oduFail ix
  | 3 => s.tribFail g ix
  | 4 => s.rsFail g ix
  | 5 => s.msFail g ix
  | 6 => s.msFail g (ix / 256) || s.entDefects g 6 ix &&& 6 != 0
  | _ => false

/-- The client's server path carries no set defect; its own delineation is bit 5 of its defects. -/
def State.serverGood (s : State) (p : Nat) : Bool :=
  let g := p / 8
  (s.entDefects g 7 (p % 8)) &&& 0x58 == 0 &&
    (if s.clientKind p = 1 then s.tribGood g (s.clientTrib p)
     else if s.clientKind p = 2 then
       (s.members p).all fun (t, v) => s.stmGood g t && s.entDefects g 6 (t * 256 + v) == 0
     else false)

def State.clientUp (s : State) (p : Nat) : Bool := s.xpt.clientUp.get false p
def State.setClient (s : State) (p : Nat) (up : Bool) : State :=
  { s with xpt := { s.xpt with clientUp := s.xpt.clientUp.put false p up } }

/-- Bring a client's port state up to its defects: LINK_UP when every defect has cleared, LINK_DOWN with cause 0 for the server
path and 2 for its own delineation. -/
def State.refreshClient (s : State) (p : Nat) : State :=
  let live := (s.group (p / 8)).st == .on || (s.group (p / 8)).st == .starting
  let srv := s.serverGood p
  let own := !bit (s.entDefects (p / 8) 7 (p % 8)) 5
  if !live then s
  else if srv && own && !s.clientUp p then
    ((s.setClient p true).raise (s.portPart p) evLinkUp p 0).portReturns p
  else if !(srv && own) && s.clientUp p then
    (s.setClient p false).goesDown p 0 (if srv then 2 else 0)
  else s

/-- All clients of a group. -/
def State.refreshClients (s : State) (g : Nat) : State :=
  (List.range 8).foldl (fun s c => s.refreshClient (8 * g + c)) s

/-- A defect is present on an entity (R108, R111). -/
def State.entBad (s : State) (e : Nat) : Bool :=
  s.entFail (entGroup e) (entLayer e) (entIndex e) || (s.ent e).defects &&& 0x7F != 0
    || (entLayer e == 7 && !s.serverGood (8 * entGroup e + entIndex e))

/-- The present second of every entity of the group that has a defect is severely errored (R111). -/
def State.markSes (s : State) (g : Nat) : State :=
  (s.monitored g).foldl (fun s e => if s.entBad e then s.updEnt e fun x => { x with secDef := true } else s) s

/-- The clients and seconds of a group after its defects may have changed. -/
def State.refreshGroup (s : State) (g : Nat) : State := (s.refreshClients g).markSes g

/-- The port carries traffic: PCS_UP, or a transport client without a defect. -/
def State.portUp (s : State) (p : Nat) : Bool := if s.xptGroup (p / 8) then s.clientUp p else s.pcsUp p

/-- A port leaves PCS_UP: LINK_DOWN, a new attempt, the down interval of R260; a link group's link goes DOWN; a framer line takes
its clients with it. -/
def State.portLeaves (s : State) (p cause : Nat) : State :=
  if 48 ≤ p then (s.linkDown (p - 48) 0).beginAttempt p
  else
    let st := (s.lane p).st.code
    if s.isFramerLine p then
      ((s.raise (s.portPart p) evLinkDown p (st + cause * 256)).beginAttempt p).refreshGroup (p / 8)
    else (s.goesDown p st cause).beginAttempt p

/-- R65, R72: alignment and deskew with every lane in RX_LOCK: the port enters PCS_UP. -/
def execPcsAligned (dt : Nat) (port : Fin 74) (s : State) : Host.Outcome State Fault Refusal :=
  let s := s.pass dt
  let p := port.val
  let framed := !s.isFramerLine p || (s.lanesOf p).all fun n => (s.level n).inFrame && !bit (s.entDefects (p / 8) 1 n) 0
  if !s.lanesAll p .rxLock || !framed then ans s else
  let s := s.updLanes p fun l => { l.enter .pcsUp s.cyc with noPartner := false, noLock := false }
  let s := s.updPort p fun t => { t with attempt := none, failedAt := none, noLockRun := 0 }
  if 48 ≤ p then ans (s.linkLanesUp (p - 48))
  else if s.isFramerLine p then
    ans ((s.raise (s.portPart p) evLinkUp p 14).refreshGroup (p / 8))
  else ans ((s.raise (s.portPart p) evLinkUp p (s.port p).typ).portReturns p)

/-- A pattern code as it acts at a lane rate (R75). -/
def prbsActs (code rate : Nat) : Nat :=
  if rate ≤ 1 then (if 1 ≤ code ∧ code ≤ 5 then code else 0) else (if 6 ≤ code ∧ code ≤ 8 then code else 0)

/-- The transmit (`lo` 0) or receive (`lo` 4) pattern of a line lane as it acts (R75). -/
def State.prbsCode (s : State) (n lo : Nat) : Nat := prbsActs (s.regF (0x00200008 + 0x40 * n) lo 4) (s.lane n).rate

/-- A pattern of LANE_PRBS acts on the line lane (R76). -/
def State.prbsOn (s : State) (n : Nat) : Bool := decide (n < 48) && (s.prbsCode n 0 != 0 || s.prbsCode n 4 != 0)

/-- R65: the transmitter has settled: TX_ON to RX_SIGNAL, or to PRBS under a pattern (R76); the attempt begins when the port's last lane leaves TX_ON. -/
def execLaneTxSettled (dt : Nat) (lane : Fin 152) (s : State) : Host.Outcome State Fault Refusal :=
  let s := s.pass dt
  if (s.lane lane).st != .txOn then ans s else
  let s := s.moveLane lane (if s.prbsOn lane then .prbs else .rxSignal)
  match s.portOfLane lane with
  | none => ans s
  | some p =>
    if (s.lanesOf p).any fun n => (s.lane n).st == .txOn then ans s else ans (s.beginAttempt p)

/-- R65: signal present continuously for 1 ms: RX_SIGNAL to RX_ADAPT. -/
def execSignalQualified (dt : Nat) (lane : Fin 152) (s : State) : Host.Outcome State Fault Refusal :=
  let s := s.pass dt
  let l := s.lane lane
  if l.st == .rxSignal && decide (l.since + cycMs ≤ s.cyc) then
    let s := s.moveLane lane .rxAdapt
    match s.portOfLane lane with
    | none => ans s
    | some p => ans (s.updPort p fun t => { t with adapted := true })
  else ans s

/-- R65: clock recovery and equaliser converged: RX_ADAPT to RX_LOCK. -/
def execLaneAdapted (dt : Nat) (lane : Fin 152) (s : State) : Host.Outcome State Fault Refusal :=
  let s := s.pass dt
  if (s.lane lane).st == .rxAdapt then ans (s.moveLane lane .rxLock) else ans s

/-- A lane falls to `st`; when its port was up, the port's other lanes fall to RX_LOCK and the port leaves PCS_UP (R65, R72). -/
def State.laneFalls (s : State) (n : Nat) (st : LaneSt) (cause : Nat) : State :=
  match s.portOfLane n with
  | none => s.moveLane n st
  | some p =>
    if s.pcsUp p then
      (((s.lanesOf p).foldl (fun s m => s.moveLane m (if m = n then st else .rxLock)) s)).portLeaves p cause
    else s.moveLane n st

/-- The partner of port `p`'s link group announced idle: its missing signal is no loss (R244). -/
def State.partnerIdle (s : State) (p : Nat) : Bool := decide (48 ≤ p) && (s.link (p - 48)).rxIdle

/-- The same of the group that lane `n` belongs to. -/
def State.laneIdle (s : State) (n : Nat) : Bool := decide (48 ≤ n) && s.partnerIdle (48 + (n - 48) / 4)

/-- R65, R69: loss of signal. -/
def execLossOfSignal (dt : Nat) (lane : Fin 152) (s : State) : Host.Outcome State Fault Refusal :=
  let s := s.pass dt
  let n := lane.val
  if s.laneIdle n then ans s else
  match (s.lane n).st with
  | .rxSignal => ans (s.updLane n fun l => { l with since := s.cyc })
  | .rxAdapt =>
    let s := s.moveLane n .rxSignal
    if n < 48 then ans (s.raise (s.portPart n) evLanePartnerLost n) else ans s
  | .rxLock => ans (s.laneFalls n .rxSignal 0)
  | .pcsUp => ans (s.laneFalls n .rxSignal 0)
  | .off => ans s
  | .txOn => ans s
  | .prbs => ans s

/-- R65: loss of lane lock: to RX_ADAPT. -/
def execLossOfLock (dt : Nat) (lane : Fin 152) (s : State) : Host.Outcome State Fault Refusal :=
  let s := s.pass dt
  let n := lane.val
  if s.laneIdle n then ans s else
  match (s.lane n).st with
  | .rxLock => ans (s.laneFalls n .rxAdapt 1)
  | .pcsUp => ans (s.laneFalls n .rxAdapt 1)
  | .rxSignal => ans s
  | .rxAdapt => ans s
  | .off => ans s
  | .txOn => ans s
  | .prbs => ans s

/-- R65: every lane of an up port falls to RX_LOCK. -/
def State.portToLock (s : State) (p cause : Nat) : State :=
  if s.pcsUp p then ((s.lanesOf p).foldl (fun s m => s.moveLane m .rxLock) s).portLeaves p cause else s

/-- R65: loss of alignment. -/
def execPcsAlignmentLost (dt : Nat) (port : Fin 74) (s : State) : Host.Outcome State Fault Refusal :=
  let s := s.pass dt
  ans (if s.partnerIdle port then s else s.portToLock port 2)

/-- The port's FEC is RS(544,514) (R55, R88, R228). -/
def State.kp4 (s : State) (p : Nat) : Bool :=
  if p < 48 then decide ((s.port p).typ ∈ [5, 7, 8, 9, 10, 11, 12, 13, 14]) else (s.lane (48 + 4 * (p - 48))).rate != 1

/-- The port has an FEC sublayer (R55, R88, R228). -/
def State.hasFec (s : State) (p : Nat) : Bool := decide (48 ≤ p) || !decide ((s.port p).typ ∈ [0, 1, 3, 4])

/-- R63: high symbol error ratio on a port with RS(544,514): to RX_LOCK. -/
def execHighSer (dt : Nat) (port : Fin 74) (s : State) : Host.Outcome State Fault Refusal :=
  let s := s.pass dt
  if s.kp4 port && !s.partnerIdle port then ans (s.portToLock port 3) else ans s

/-! ### Failed attempts and the ladder (R67 to R71) -/

/-- The next type that the ladder may take: enough rate for the guarantees, at or above the floor; `n` bounds the search. -/
def State.ladderPick (s : State) (p floor : Nat) : Nat → Nat → Option Nat
  | 0, _ => none
  | n + 1, t =>
    let c := typeLadder t
    if c = 0 ∨ typeRateCode c < floor then none
    else if s.portFitsAt p (s.rateAt p c) then some c else s.ladderPick p floor n c

/-- Lanes of the port that are not in RX_LOCK, bit i for the i-th lane. -/
def State.notLocked (s : State) (p : Nat) : Nat :=
  ((s.lanesOf p).zipIdx).foldl (fun m (n, i) => if (s.lane n).st == .rxLock then m else m ||| 2 ^ i) 0

/-- The ladder after a NO_LOCK failure (R70, R71). -/
def State.ladder (s : State) (p : Nat) : State :=
  let cfg := s.reg (0x00200000 + 0x40 * p)
  let floor := bits cfg 5 3
  let t := s.port p
  if !bit cfg 4 || decide (t.noLockRun < max 1 (bits cfg 8 4)) then s else
  match s.ladderPick p floor 4 t.typ with
  | some c =>
    let s := s.updPort p fun t => { t with typ := c, attempt := none, failedAt := none, noLockRun := 0, blocked := false }
    let s := (s.moveLanes p .txOn).updLanes p fun l => { l with rate := typeRateCode c, typ := c, attempts := 0 }
    s.raise (s.portPart p) evLaneLadderStep p (t.typ + c * 256)
  | none =>
    let nxt := typeLadder t.typ
    if nxt = 0 ∨ typeRateCode nxt < floor ∨ t.blocked then s
    else (s.updPort p fun t => { t with blocked := true }).raise (s.portPart p) evLaneLadderBlocked p t.typ

/-- R67: the attempt has not succeeded LOCK_TIMEOUT after it began. -/
def execLockTimeout (dt : Nat) (port : Fin 74) (s : State) : Host.Outcome State Fault Refusal :=
  let s := s.pass dt
  let p := port.val
  match (s.port p).attempt with
  | none => ans s
  | some t0 =>
    if s.cyc < t0 + s.lockTimeoutCyc then ans s else
    let noLock := (s.port p).adapted
    let s := s.updPort p fun t =>
      { t with attempt := none, failedAt := some s.cyc, noLockRun := if noLock then t.noLockRun + 1 else 0 }
    let s := s.updLanes p fun l =>
      { l with noLock := l.noLock || noLock, noPartner := l.noPartner || !noLock, attempts := min 15 (l.attempts + 1) }
    if 48 ≤ p then ans s
    else if noLock then
      ans ((s.raise (s.portPart p) evLaneNoLock p ((s.lane p).rate + s.notLocked p * 256)).ladder p)
    else ans (s.raise (s.portPart p) evLaneNoPartner p (s.lane p).rate)

/-- R68: RETRY_INTERVAL after the failure each lane returns to RX_SIGNAL and a new attempt begins. -/
def execRetryInterval (dt : Nat) (port : Fin 74) (s : State) : Host.Outcome State Fault Refusal :=
  let s := s.pass dt
  let p := port.val
  match (s.port p).failedAt with
  | none => ans s
  | some t0 =>
    if decide (s.cyc < t0 + s.retryCyc) || s.pcsUp p then ans s else
    let s := (s.lanesOf p).foldl (fun s n =>
      if (s.lane n).st == .rxAdapt || (s.lane n).st == .rxLock || (s.lane n).st == .rxSignal then s.moveLane n .rxSignal else s) s
    ans (s.beginAttempt p)

/-! ### PRBS (R75 to R77) -/

/-- A register of a lane group that the writing function may change (R48). -/
def State.ownsGroup (s : State) (fn g : Nat) : Bool := !s.partOn || s.groupPart g == fn

/-- R76: a write of LANE_PRBS: a pattern takes the lane out of service, both patterns off begin a normal attempt. -/
def execPrbsPatternSet (dt : Nat) (fn : Fin 2) (lane : Fin 48) (value : Word32) (s : State) :
    Host.Outcome State Fault Refusal :=
  ans ((s.pass dt).mw0 fn (0x40008 + 0x40 * lane.val) fun s =>
    let n := lane.val
    if !s.ownsGroup fn (n / 8) || s.chip.d2dDown then s else
    let rx := s.prbsCode n 4
    let s := s.storeReg (0x00200008 + 0x40 * n) value
    let st := (s.lane n).st
    if st == .off then s
    else if s.prbsOn n then
      let s := if st == .prbs then s else s.laneFalls n .prbs 4
      s.updLane n fun l => { l with prbsLock := l.prbsLock && st == .prbs && rx == s.prbsCode n 4 }
    else if st == .prbs then
      let s := (s.moveLane n .rxSignal).updLane n fun l => { l with prbsLock := false }
      match s.portOfLane n with
      | none => s
      | some p => s.beginAttempt p
    else s)

/-- R77: the checker of a lane with a receive pattern locks. -/
def execPrbsCheckerLock (dt : Nat) (lane : Fin 48) (s : State) : Host.Outcome State Fault Refusal :=
  let s := s.pass dt
  let l := s.lane lane
  if l.st == .prbs && prbsActs (s.regF (0x00200008 + 0x40 * lane.val) 4 4) l.rate != 0 then
    ans (s.updLane lane fun l => { l with prbsLock := true })
  else ans s

/-- R77: the checker has met `errors` errored bits or symbols within 128: PRBS_ERR counts them while it is locked; more than 32 lose
the lock, with PRBS_LOCK_LOST. -/
def execPrbsLockLost (dt : Nat) (lane : Fin 48) (errors : Nat) (s : State) : Host.Outcome State Fault Refusal :=
  let s := s.pass dt
  if !(s.lane lane).prbsLock then ans s
  else
    let s := s.bumpNz ⟨2, 0, 0⟩ lane errors
    if errors ≤ 32 then ans s
    else ans ((s.updLane lane fun l => { l with prbsLock := false }).raise (s.portPart lane) evPrbsLockLost lane)

end Sys2Proof.Machine
end

