-- ==== Sys2Proof/Machine/Transport.lean ====
section
/-! DEFINITION. Transport framing (04_transport_framing.md): the map checks of R96, frame alignment (R97 to R99), received and
sent frames (R100 to R108), performance bins (R111 to R115), and the commands XPT_OH_SET, XPT_OH_READ and PM_READ (R385). -/

namespace Sys2Proof.Machine

/-! ### Checks of a group's map (R96) -/

/-- Check 1: `need` lanes of an OTUCn are still to follow. -/
def lineRunOk : List (Nat × Nat) → Nat → Bool
  | [], need => need == 0
  | (sig, n) :: t, 0 => sig != 3 && (if sig = 2 then decide (1 ≤ n ∧ n ≤ 8) && lineRunOk t (n - 1) else lineRunOk t 0)
  | (sig, _) :: t, need + 1 => sig == 3 && lineRunOk t need

def State.mapLinesOk (s : State) (g : Nat) : Bool :=
  ((List.range 8).all fun i => s.lineSignal (8 * g + i) == 0 || s.laneField (8 * g + i) == 14) &&
    lineRunOk ((List.range 8).map fun i => (s.lineSignal (8 * g + i), s.lineN (8 * g + i))) 0

/-- Check 2. -/
def State.mapServersOk (s : State) (g : Nat) : Bool :=
  let ts := s.tribs g
  (ts.all fun (_, r) =>
    r.line / 8 == g && s.lineSignal r.line == (if r.kind = 0 ∨ r.kind = 2 ∨ r.kind = 3 then 1 else 2)
      && decide (r.kind ≤ 5) && r.payload == [0, 0, 1, 2, 1, 2].getD r.kind 3) &&
  ((List.range 8).all fun i =>
    let n := 8 * g + i
    let zeros := ts.filter fun (_, r) => r.kind == 0 && r.line == n
    let subs := ts.filter fun (_, r) => (r.kind == 2 || r.kind == 3) && r.line == n
    s.lineSignal n != 1 || (zeros.length == 1 &&
      (subs.isEmpty || zeros.all fun (t, _) => (s.clientsOf g 1).all fun p => s.clientTrib p != t)))

/-- Check 3: ranges inside the server and disjoint. -/
def State.mapSlotsOk (s : State) (g : Nat) : Bool :=
  let ts := (s.tribs g).filter fun (_, r) => r.kind != 0
  ts.all fun (t, r) =>
    decide (r.first + kindSlots r.kind ≤ if s.lineSignal r.line = 1 then 80 else 20 * s.lineN r.line) &&
      ts.all fun (u, q) => u == t || q.line != r.line ||
        decide (r.first + kindSlots r.kind ≤ q.first) || decide (q.first + kindSlots q.kind ≤ r.first)

/-- Check 4. -/
def State.mapClientsOk (s : State) (g : Nat) : Bool :=
  (s.clientsOf g 3).isEmpty && (s.clientsOf g 1).all fun p =>
    let r := s.trib g (s.clientTrib p)
    r.valid && r.payload == 0 && (s.clientsOf g 1).all fun q => q == p || s.clientTrib q != s.clientTrib p

/-- Is each element of the list its only occurrence? -/
def noRepeats : List (Nat × Nat) → Bool
  | [] => true
  | a :: t => !t.contains a && noRepeats t

/-- Check 5. -/
def State.mapMembersOk (s : State) (g : Nat) : Bool :=
  ((s.clientsOf g 2).all fun p => decide (1 ≤ s.clientX p ∧ s.clientX p ≤ 16)) &&
  ((s.allMembers g).all fun (t, v) =>
    let r := s.trib g t
    r.valid && (r.payload == 2 || (r.payload == 1 && decide (v < 64)))) && noRepeats (s.allMembers g)

/-- Check 6. -/
def State.mapDelayOk (s : State) (g : Nat) : Bool :=
  (s.clientsOf g 2).all fun p =>
    decide (1 ≤ s.clientDd p ∧ s.clientDd p ≤ 1024) && (s.isOn .cellar || decide (s.clientDd p ≤ 16))

/-- MAP_ERR as the checks of R96 find it: 0 when all pass. -/
def State.mapErrOf (s : State) (g : Nat) : Nat :=
  if !s.mapLinesOk g then 1 else if !s.mapServersOk g then 2 else if !s.mapSlotsOk g then 3
  else if !s.mapClientsOk g then 4 else if !s.mapMembersOk g then 5 else if !s.mapDelayOk g then 6 else 0

/-! ### Performance bins (R111 to R115) -/

/-- The group carries framer signals now. -/
def State.framerLive (s : State) (g : Nat) : Bool :=
  s.xptGroup g && ((s.group g).st == .on || (s.group g).st == .starting)

/-- Saturating addition of a 32-bit count. -/
def satAdd (a b : Nat) : Nat := min (a + b) (2 ^ 32 - 1)

/-- Counts to add to a record. -/
structure BinAdd where
  far : Bool := false
  bbe : Nat := 0
  es : Nat := 0
  ses : Nat := 0
  uas : Nat := 0
  pos : Nat := 0
  neg : Nat := 0
deriving DecidableEq, Repr

def Bin.plus (b : Bin) (a : BinAdd) : Bin :=
  let b := { b with pjePos := satAdd b.pjePos a.pos, pjeNeg := satAdd b.pjeNeg a.neg }
  if a.far then
    { b with feBbe := satAdd b.feBbe a.bbe, feEs := satAdd b.feEs a.es, feSes := satAdd b.feSes a.ses, feUas := satAdd b.feUas a.uas }
  else
    { b with neBbe := satAdd b.neBbe a.bbe, neEs := satAdd b.neEs a.es, neSes := satAdd b.neSes a.ses, neUas := satAdd b.neUas a.uas }

/-- Add to the record that started at `k`: the open one, else the newest closed one that is not final. -/
def addBins (cur : Option Bin) (hist : List Bin) (k : Nat) (a : BinAdd) : Option Bin × List Bin :=
  if cur.any (·.start == k) then (cur.map (·.plus a), hist)
  else match hist.findIdx? fun b => !b.final && b.start == k with
  | some i => (cur, hist.modify i (·.plus a))
  | none => (cur, hist)

def XEnt.addTo (e : XEnt) (k15 k24 : Nat) (a : BinAdd) : XEnt :=
  let r := addBins e.cur15 e.hist15 k15 a
  let q := addBins e.cur24 e.hist24 k24 a
  { e with cur15 := r.1, hist15 := r.2, cur24 := q.1, hist24 := q.2 }

/-- A second counted as available: errored, severely errored, background errors. -/
def availAdd (far : Bool) (errs : Nat) (ses : Bool) : BinAdd :=
  { far := far, es := b2n (ses || decide (0 < errs)), ses := b2n ses, bbe := if ses then 0 else errs }

/-- Decide the waiting seconds as available or unavailable. -/
def XEnt.settleSeconds (e : XEnt) (far un : Bool) (l : List PendSec) : XEnt :=
  l.foldl (fun e x => e.addTo x.at15 x.at24 (if un then { far := far, uas := 1 } else availAdd far x.errs x.ses)) e

/-- One second's verdict: unavailable time begins with ten consecutive SES and ends with ten consecutive seconds that are none
(G.8201, G.828; PRESUMED, log 47). -/
def XEnt.judgeSecond (e : XEnt) (far : Bool) (x : PendSec) : XEnt :=
  let un := if far then e.feUn else e.neUn
  let pend := if far then e.fePend else e.nePend
  let setP (e : XEnt) (un : Bool) (l : List PendSec) : XEnt :=
    if far then { e with feUn := un, fePend := l } else { e with neUn := un, nePend := l }
  let pend := pend ++ [x]
  if x.ses != un then
    if 10 ≤ pend.length then (setP e (!un) []).settleSeconds far (!un) pend else setP e un pend
  else (setP e un []).settleSeconds far un pend

/-- A layer of OTN: a block is severely errored from 15 %, an SDH block from 30 % (PRESUMED, log 47). -/
def sesPercent (layer : Nat) : Nat := if layer ≤ 3 then 15 else 30

def isSes (layer blocks errs : Nat) (defect : Bool) : Bool :=
  defect || (decide (0 < errs) && decide (blocks * sesPercent layer ≤ errs * 100))

/-- A second of an entity ends, with its counts in the open records; `bad` says that a defect goes on into the next. -/
def XEnt.endSecond (e : XEnt) (layer : Nat) (bad : Bool) : XEnt :=
  let at15 := (e.cur15.map (·.start)).getD 0
  let at24 := (e.cur24.map (·.start)).getD 0
  let near : PendSec := { errs := e.secNe, ses := isSes layer e.secFrames e.secNe e.secDef, at15 := at15, at24 := at24 }
  let far : PendSec := { errs := e.secFe, ses := isSes layer e.secFrames e.secFe e.secFeDef, at15 := at15, at24 := at24 }
  let pj : BinAdd := if layer = 6 then { pos := e.secPos, neg := e.secNeg } else {}
  let e := e.addTo at15 at24 pj
  let e := e.judgeSecond false near
  let e := if layer = 7 then e else e.judgeSecond true far
  { e with secNe := 0, secFe := 0, secFeDef := e.far.acc = 1, secPos := 0, secNeg := 0, secFrames := 0, secDef := bad }

/-- Every monitored entity of the live groups. -/
def State.allMonitored (s : State) : List Nat :=
  ((List.range 6).filter s.framerLive).flatMap s.monitored

/-- DAY_OFFSET in force: rounded down to a multiple of 900 (R94). -/
def State.dayOffset (s : State) : Nat := s.regF 0x00502000 0 17 / 900 * 900

/-- Length of a bin in seconds. -/
def binLen (day : Bool) : Nat := if day then 86400 else 900

/-- Seconds since the bin's start at second `k`: (k − DAY_OFFSET) modulo the length (R112). -/
def State.binPhase (s : State) (day : Bool) (k : Nat) : Nat :=
  (k + binLen day - s.dayOffset % binLen day) % binLen day

/-- Start of the bin that contains second `k`, not before device time 0, and its end (R112). -/
def State.binStart (s : State) (day : Bool) (k : Nat) : Nat := k - s.binPhase day k
def State.binEnd (s : State) (day : Bool) (k : Nat) : Nat := k + binLen day - s.binPhase day k

/-- Records that an entity keeps (R115, R46). -/
def State.depth (s : State) (day : Bool) : Nat := if s.isOn .cellar then (if day then 7 else 96) else 1

/-- A record that opens at second `k`. -/
def State.openBin (s : State) (day : Bool) (k : Nat) : Bin :=
  { start := s.binStart day k, day := day, unaligned := !s.todAligned }

/-- End of an open record, as the second `k` in it shows: a record that a backward STEP found open keeps its own. -/
def State.openEnd (s : State) (day : Bool) (k : Nat) (b : Bin) : Nat := if b.rewound then b.endS else s.binEnd day k

/-- Device time comes to second `t`, one after a second of the record: a record whose end this is closes and the next opens (R112,
R114). -/
def State.rollBin (s : State) (day : Bool) (t : Nat) (cur : Option Bin) (hist : List Bin) : Option Bin × List Bin :=
  match cur with
  | none => (some (s.openBin day t), hist)
  | some b =>
    let ends := if b.rewound then decide (b.endS ≤ t) else s.binPhase day t == 0
    if ends then (some (s.openBin day t), ({ b with ended := true, endS := t } :: hist).take (s.depth day)) else (cur, hist)

/-- The records of an entity at second `t`. -/
def State.rollEnt (s : State) (t : Nat) (x : XEnt) : XEnt :=
  let r := s.rollBin false t x.cur15 x.hist15
  let q := s.rollBin true t x.cur24 x.hist24
  { x with cur15 := r.1, hist15 := r.2, cur24 := q.1, hist24 := q.2 }

/-- Records of an entity without any open now, at second `k`. -/
def State.openEnt (s : State) (k : Nat) (x : XEnt) : XEnt :=
  { x with cur15 := some (x.cur15.getD (s.openBin false k)), cur24 := some (x.cur24.getD (s.openBin true k)) }

/-- Second `k` of every monitored entity ends, and the bins that end with it (R111, R112). -/
def State.oneSecond (s : State) (k : Nat) : State :=
  s.allMonitored.foldl (fun s e =>
    let bad := s.entBad e
    s.updEnt e fun x => s.rollEnt (k + 1) ((s.openEnt k x).endSecond (entLayer e) bad)) s

/-- The `n` seconds from `k`. -/
def State.seconds (s : State) (k : Nat) : Nat → State
  | 0 => s
  | n + 1 => (s.oneSecond k).seconds (k + 1) n

/-- Every second that device time has completed is evaluated (R111). -/
def State.runSeconds (s : State) : State :=
  let k := s.xpt.pmSec
  let now := secOf s.now
  if now ≤ k then s
  else
    let s := if s.allMonitored.isEmpty then s else s.seconds k (now - k)
    { s with xpt := { s.xpt with pmSec := now } }

/-- R111: a one-second interval of device time has ended. -/
def execPmSecond (dt : Nat) (s : State) : Host.Outcome State Fault Refusal := ans (s.pass dt).runSeconds

/-- R112: bins of every monitored entity end and start; an entity without a record opens one. -/
def execPmBinStart (dt : Nat) (s : State) : Host.Outcome State Fault Refusal :=
  let s := (s.pass dt).runSeconds
  ans (s.allMonitored.foldl (fun s e => s.updEnt e (s.openEnt (secOf s.now))) s)

/-- Closed records of an entity of a kind. -/
def XEnt.hist (e : XEnt) (day : Bool) : List Bin := if day then e.hist24 else e.hist15

/-- Mark the records that started at `k` as final. -/
def finalAt (k : Nat) (l : List Bin) : List Bin := l.map fun b => if b.start = k then { b with final := true } else b

/-- The same for an entity of the group. -/
def finalEnt (g : Nat) (day : Bool) (k : Nat) (p : Nat × XEnt) : Nat × XEnt :=
  if entGroup p.1 != g then p
  else if day then (p.1, { p.2 with hist24 := finalAt k p.2.hist24 })
  else (p.1, { p.2 with hist15 := finalAt k p.2.hist15 })

/-- Starts of the group's records that are due to become final, oldest last. -/
def State.dueBins (s : State) (g : Nat) (day : Bool) : List Nat :=
  (s.xpt.ents.filter fun (k, _) => entGroup k == g).flatMap fun (_, e) =>
    ((e.hist day).filter fun b => !b.final && decide (b.endS + 10 ≤ secOf s.now)).map (·.start)

/-- R113: the records of a bin become final 10 s after it ends; PM_BIN_CLOSED once for group and bin. -/
def execPmBinClosed (dt : Nat) (g : Fin 6) (day : Bool) (s : State) : Host.Outcome State Fault Refusal :=
  let s := (s.pass dt).runSeconds
  match s.dueBins g day with
  | [] => ans s
  | k :: t =>
    let k := t.foldl min k
    let s := { s with xpt := { s.xpt with ents := s.xpt.ents.map (finalEnt g day k) } }
    ans (s.raise (s.groupPart g) evPmBinClosed g (b2n day + k * 256))

/-- Zero records of the bins skipped from `a` on, newest first. -/
def skippedBins (day unal : Bool) (len a : Nat) : Nat → List Bin
  | 0 => []
  | n + 1 => { start := a + n * len, day := day, suspect := true, unaligned := unal, ended := true, endS := a + (n + 1) * len }
      :: skippedBins day unal len a n

/-- A forward STEP from second `old` to the present one on one kind of record: a record whose bin does not contain the new time ends
(R114); one whose bin does is marked SUSPECT and stays that bin's record (log 108). -/
def State.stepBin (s : State) (day : Bool) (old : Nat) (cur : Option Bin) (hist : List Bin) : Option Bin × List Bin :=
  match cur with
  | none => (none, hist)
  | some b =>
    let sec := secOf s.now
    let stop := s.openEnd day old b
    if sec < stop then (some { b with suspect := true }, hist)
    else
      let len := binLen day
      let start := s.binStart day sec
      let keep := min ((start - stop) / len) (s.depth day)
      let skipped := skippedBins day (!s.todAligned) len (start - keep * len) keep
      (some { s.openBin day sec with suspect := true },
       (skipped ++ { b with ended := true, suspect := true, endS := stop } :: hist).take (s.depth day))

/-- A backward STEP leaves a record open, to its original end (R114). -/
def State.rewindBin (s : State) (day : Bool) (old : Nat) (b : Bin) : Bin :=
  { b with suspect := true, rewound := true, endS := s.openEnd day old b }

/-- What a STEP of device time from second `old` does to the bins, after the time has changed (R114). -/
def State.stepBins (s : State) (back : Bool) (old : Nat) : State :=
  let s := { s with xpt := { s.xpt with pmSec := secOf s.now } }
  s.allMonitored.foldl (fun s e => s.updEnt e fun x =>
    if back then { x with cur15 := x.cur15.map (s.rewindBin false old), cur24 := x.cur24.map (s.rewindBin true old) }
    else
      let x := if secOf s.now = old then x else (s.openEnt old x).endSecond (entLayer e) (s.entBad e)
      let r := s.stepBin false old x.cur15 x.hist15
      let q := s.stepBin true old x.cur24 x.hist24
      { x with cur15 := r.1, hist15 := r.2, cur24 := q.1, hist24 := q.2 }) s

/-- CELLAR reaches ON: histories begin empty (R115); with CELLAR not ON the last closed record is kept (R46). -/
def State.trimBins (s : State) (n : Nat) : State :=
  { s with xpt := { s.xpt with ents := s.xpt.ents.map fun (i, e) =>
      (i, { e with hist15 := e.hist15.take n, hist24 := e.hist24.take n }) } }

/-! ### Frame alignment (R97 to R99) -/

/-- Group of an alignment level. -/
def levelGroup (l : Nat) : Nat := if l < 48 then l / 8 else (l - 48) / 32

/-- XPT_OOF and XPT_LOF carry the level (0 interface, 1 SDH) and the lane, or tributary and group. -/
def State.raiseLevel (s : State) (e : EvName) (l : Nat) (set : Bool) : State :=
  if l < 48 then s.raiseSt (s.groupPart (l / 8)) e 0 l set
  else s.raiseSt (s.groupPart ((l - 48) / 32)) e 1 ((l - 48) % 32 + (l - 48) / 32 * 256) set

/-- A level starts, or returns to SEARCH. -/
def State.levelSearch (s : State) (l : Nat) : State :=
  (s.updLevel l fun a => { lof := a.lof, since := s.cyc }).raiseLevel evXptOof l true

/-- IF_COUNT as it acts. -/
def State.ifCount (s : State) (g : Nat) : Nat := min 8 (max 2 (s.regF (0x00501000 + 0x10 * g) 0 4))

/-- Continuity of the multiframe count, kept modulo 256; the SDH level has no check. -/
def continues (iface : Bool) (old mf : Nat) : Bool := !iface || mf % 256 == (old + 1) % 256

/-- One frame period in SEARCH over the offsets in rising order: `old` candidates not yet reached, `new` those kept; the answer
is the locked candidate or the candidates that remain. -/
def searchFrame (iface : Bool) (need : Nat) (hits : NMap Nat) :
    NMap Unit → List (Nat × Nat × Nat) → List (Nat × Nat × Nat) → Sum (Nat × Nat) (List (Nat × Nat × Nat))
  | [], _, new => .inr new
  | (off, _) :: t, old, new =>
    let rest := old.filter fun c => c.1 != off
    match old.find? fun c => c.1 == off, hits.find? off with
    | some (_, n, m), some mf =>
      if continues iface m mf then
        if need ≤ n + 1 then .inl (off, mf) else searchFrame iface need hits t rest (new ++ [(off, n + 1, mf)])
      else searchFrame iface need hits t rest new
    | some _, none => searchFrame iface need hits t rest new
    | none, some mf =>
      if old.length + new.length < 4 then searchFrame iface need hits t old (new ++ [(off, 1, mf)])
      else searchFrame iface need hits t old new
    | none, none => searchFrame iface need hits t old new

/-- R97, R98: one frame period of a level. -/
def execFrameAlignCheck (dt : Nat) (level : Fin 240) (hits : List (Nat × Nat)) (s : State) :
    Host.Outcome State Fault Refusal :=
  let s := s.pass dt
  let l := level.val
  let g := levelGroup l
  let iface := decide (l < 48)
  if !s.framerLive g || !s.levelExists l then ans s else
  let s := s.runSeconds
  let a := s.level l
  let hm : NMap Nat := hits.foldl (fun m h => NMap.ins m h.1 h.2) []
  if a.inFrame then
    match hm.find? a.locked with
    | some mf => ans (s.updLevel l fun a => { a with misses := 0, lastMf := mf })
    | none =>
      if 4 ≤ a.misses then
        let s := s.levelSearch l
        let s := if iface then (match s.portOfLane l with | some p => s.portToLock p 2 | none => s) else s
        ans (s.refreshGroup g)
      else ans (s.updLevel l fun a => { a with misses := a.misses + 1 })
  else
    let offs : NMap Unit := a.cands.foldl (fun m c => NMap.ins m c.1 ()) (hm.map fun h => (h.1, ()))
    match searchFrame iface (s.ifCount g) hm offs a.cands [] with
    | .inl (off, mf) =>
      ans (((s.updLevel l fun a => { inFrame := true, locked := off, lastMf := mf, lof := a.lof, since := s.cyc }).raiseLevel
        evXptOof l false).refreshGroup g)
    | .inr new => ans (s.updLevel l fun a => { a with cands := new })

/-- R99: a level has stayed in SEARCH for 3 ms. -/
def execLofDeclare (dt : Nat) (level : Fin 240) (s : State) : Host.Outcome State Fault Refusal :=
  let s := s.pass dt
  let a := s.level level
  if s.framerLive (levelGroup level) && s.levelExists level && !a.inFrame && !a.lof
      && decide (a.since + 3 * cycMs ≤ s.cyc) then
    ans (((s.runSeconds.updLevel level fun a => { a with lof := true }).raiseLevel evXptLof level true).refreshGroup
      (levelGroup level))
  else ans s

/-- R99: a level has stayed in IN_FRAME for 3 ms. -/
def execLofClear (dt : Nat) (level : Fin 240) (s : State) : Host.Outcome State Fault Refusal :=
  let s := s.pass dt
  let a := s.level level
  if a.inFrame && a.lof && decide (a.since + 3 * cycMs ≤ s.cyc) then
    ans (((s.runSeconds.updLevel level fun a => { a with lof := false }).raiseLevel evXptLof level false).refreshGroup
      (levelGroup level))
  else ans s

/-! ### Received frames (R100, R103, R106 to R109) -/

/-- Largest far-end violation count of a layer's field (PRESUMED: G.709 BEI and HP-REI 8, M0 and M1 16 bits; log 47). -/
def beiCap (layer : Nat) : Nat := if layer = 5 then 65535 else 8

/-- Events of the defects that change: bits and their events; LOA is one event for bits 4 and 6. -/
def State.raiseDefects (s : State) (g layer ix was now : Nat) : State :=
  let p := s.groupPart g
  let ev (s : State) (m : Nat) (e : EvName) (inst payload : Nat) : State :=
    if (was &&& m == 0) == (now &&& m == 0) then s else s.raiseSt p e inst payload (now &&& m != 0)
  let s := if layer = 1 then ev s 1 evXptLol (s.lineOf ix) 0 else s
  let s := ev s 2 evXptServer (mkEnt g layer ix) 0
  let s := ev s 4 evXptLop (ix / 256 + g * 256) (ix % 256)
  let s := ev s 8 evXptPlm ((if layer = 2 then (s.zeroTrib ix).getD 0 else ix) + g * 256) 0
  let s := ev s 0x50 evXptLoa (8 * g + ix) 0
  if layer = 7 ∧ s.clientKind (8 * g + ix) = 2 then ev s 0x20 evXptLfd (8 * g + ix) 0 else s

/-- An entity takes new defects: events, clients and seconds follow. -/
def State.setDefects (s : State) (g layer ix d : Nat) : State :=
  let was := s.entDefects g layer ix
  ((s.updEnt (mkEnt g layer ix) fun e => { e with defects := d }).raiseDefects g layer ix was d).refreshGroup g

/-- GMP and AMP control of a received frame of a tributary or of a kind-1 client (R100, R102). -/
def State.justify (s : State) (f : XptFrame) : State :=
  let g := f.group.val
  let k := mkEnt g f.layer f.index
  let isGmp := f.layer == 3 || (f.layer == 7 && s.clientKind (8 * g + f.index) == 1)
  let s := if !isGmp || f.gmpJc.isEmpty then s
    else match gmpDecode (s.ent k).cm f.gmpJc with
      | none => s.bump ⟨3, 0, 0⟩ (if f.layer = 7 then 40 * g + 32 + f.index else 40 * g + f.index)
      | some c => s.updEnt k fun e => { e with cm := c }
  if f.layer != 3 || f.ampJc.isEmpty || (s.trib g f.index).payload == 0 then s
  else
    let s := if unanimous3 f.ampJc then s else s.bump ⟨3, 1, 0⟩ (32 * g + f.index)
    s.updEnt k fun e => { e with amp := majority3 f.ampJc }

/-- The AU-4 pointer of a received member frame (R100, R102, R111). -/
def State.pointer (s : State) (f : XptFrame) : State :=
  if f.layer != 6 then s else
  let g := f.group.val
  let k := mkEnt g 6 f.index
  let r := (s.ent k).ptr.feed f.ptr
  let s := s.updEnt k fun e =>
    { e with ptr := r.1, secPos := e.secPos + b2n (r.2 == .inc), secNeg := e.secNeg + b2n (r.2 == .dec) }
  match r.2 with
  | .none => s
  | .inc => s.bump ⟨3, 2, 0⟩ (8192 * g + f.index)
  | .dec => s.bump ⟨3, 2, 1⟩ (8192 * g + f.index)
  | .invalid => s.bump ⟨3, 2, 2⟩ (8192 * g + f.index)

/-- Parity, far-end fields and accepted overhead of a received frame (R89, R106 to R108). -/
def State.overhead (s : State) (f : XptFrame) : State :=
  let g := f.group.val
  let w := bipWidth f.layer (s.trib g f.index).vc4s
  s.updEnt (mkEnt g f.layer f.index) fun e =>
    let r := if f.layer = 7 then (0, e.parity) else parityStep (bipDelay f.layer) e.parity (bipOf w f.covered) f.bip
    let far := e.far.feed 5 (b2n (if f.layer = 5 then f.status == 6 else f.farDefect))
    { e with
      parity := r.2, far := far
      status := e.status.feed 3 f.status
      pt := match f.pt with | some p => e.pt.feed 3 p | none => e.pt
      beiPending := if f.layer = 4 ∨ f.layer = 7 then e.beiPending else e.beiPending ++ [min r.1 (beiCap f.layer)]
      secNe := e.secNe + (if r.1 = 0 then 0 else 1)
      secFe := e.secFe + (if f.farEnd = 0 ∨ beiCap f.layer < f.farEnd ∨ f.layer = 4 ∨ f.layer = 7 then 0 else 1)
      secFeDef := e.secFeDef || far.acc == 1
      secFrames := e.secFrames + 1
      ttiRecv := (f.tti.map (· % 2 ^ (if f.layer = 4 then 128 else 512))).getD e.ttiRecv }

/-- Payload type that the entity expects; none where R108 names no mismatch: only an OTU4 line's and a tributary's. -/
def State.expectPt (s : State) (g layer ix : Nat) : Option Nat :=
  if layer = 2 ∧ s.lineSignal ix = 1 then some (s.linePt ix)
  else if layer = 3 then some (s.trib g ix).pt else none

/-- Defects that an entity shows below the client layer (R91, R100, R108). -/
def State.seenDefects (s : State) (f : XptFrame) : Nat :=
  let g := f.group.val
  let e := s.ent (mkEnt g f.layer f.index)
  let skew := f.layer == 1 && s.lineSignal (s.lineOf f.index) == 2 && decide (1000 < f.skew)
  let ais := ((f.layer == 2 || f.layer == 3) && decide (5 ≤ e.status.acc)) || (f.layer == 5 && e.status.acc == 7)
    || (f.layer == 6 && e.ptr.st == 1)
  let plm := e.pt.acc != 256 && (s.expectPt g f.layer f.index).any fun p => p != e.pt.acc
  b2n skew + 2 * b2n ais + 4 * b2n (f.layer == 6 && e.ptr.st == 2) + 8 * b2n plm + (e.defects &&& 0x80)

/-- TPN of a tributary (R94). -/
def State.tpn (s : State) (g t : Nat) : Nat := s.regF (0x00504004 + 0x200 * g + 8 * t) 0 7

/-- First slot that the identifier of lane `n`'s frames names: an ODUC slice names 20 slots of its line. -/
def State.laneSlot (s : State) (n : Nat) : Nat := if s.lineSignal n = 1 then 0 else 20 * (n - s.lineOf n)

/-- A received multiplex structure identifier is compared with the TPN of each tributary of the line (R94); a tributary whose slots
carry another number has a defect that no event reports (log 107). -/
def State.msiCheck (s : State) (f : XptFrame) : State :=
  match f.msi with
  | none => s
  | some l =>
    if f.layer != 2 then s else
    let g := f.group.val
    let base := s.laneSlot f.index
    (s.tribs g).foldl (fun s (t, r) =>
      if r.kind = 0 ∨ r.line ≠ s.lineOf f.index then s
      else
        let mine := (l.zipIdx).filter fun (_, i) => decide (r.first ≤ base + i) && decide (base + i < r.first + kindSlots r.kind)
        if mine.isEmpty then s
        else
          let bad := mine.any fun (x, _) => x != s.tpn g t
          s.setDefects g 3 t ((s.entDefects g 3 t &&& 0x7F) + 0x80 * b2n bad)) s

/-! ### Clients (R103 to R105, R109) -/

/-- DD_LIMIT as it acts: at most 16 frames with CELLAR not ON (R46, R104). -/
def State.ddLimit (s : State) (p : Nat) : Nat := if s.isOn .cellar then s.clientDd p else min 16 (s.clientDd p)

/-- Keys of a client's member entities. -/
def State.memberEnts (s : State) (p : Nat) : List Nat := (s.members p).map fun (t, v) => mkEnt (p / 8) 6 (t * 256 + v)

/-- Bytes of concatenated payload in the delay buffers of partition `part`: in cellar pages of the partition's channels while CELLAR
is ON, in T-die SRAM otherwise (R104). -/
def State.delayBytes (s : State) (part : Nat) : Nat :=
  ((s.xpt.ents.filter fun (k, _) => entLayer k == 6 && s.groupPart (entGroup k) == part).map fun (_, e) =>
    (e.delayed.map (·.2.2.length)).sum).sum

/-- Payload reaches the GFP delineation of a client (R109). -/
def State.gfpFeed (s : State) (p : Nat) (bytes : List Byte) : State :=
  let r := (s.client p).gfp.feed bytes
  let s := s.updClient p fun c => { c with gfp := r.1, rxFrames := c.rxFrames ++ r.2.frames.map (·, false) }
  let s := ((s.bumpNz ⟨3, 3, 0⟩ p r.2.corr).bumpNz ⟨3, 3, 1⟩ p r.2.uncorr).bumpNz ⟨3, 3, 2⟩ p r.2.drop
  s.updEnt (mkEnt (p / 8) 7 (p % 8)) fun e =>
    { e with secFrames := e.secFrames + 1, secNe := e.secNe + (if r.2.uncorr = 0 then 0 else 1) }

/-- A member of a kind-2 client has received a frame: the spread is measured when every member has the same indicator, and the
payload that is aligned goes on while the path carries no defect (R103, R105). -/
def State.concat (s : State) (p : Nat) : State :=
  let g := p / 8
  let ks := s.memberEnts p
  let lim := s.ddLimit p
  let lost := ks.any fun k => ((s.ent k).mfi.any fun m => !m.2)
  let was := s.entDefects g 7 (p % 8)
  let bufs := ks.map fun k => (s.ent k).delayed
  match alignMembers bufs with
  | some (spread, parts, rest) =>
    let s := (ks.zip rest).foldl (fun s (k, b) => s.updEnt k fun e => { e with delayed := b }) s
    let wide := decide (lim < spread)
    let d := 0x10 * b2n lost + (was &&& 0x20) + 0x40 * b2n wide
    let s := s.setDefects g 7 (p % 8) d
    if lost || wide || !s.serverGood p then s
    else
      let s := s.gfpFeed p (interleave parts)
      s.setDefects g 7 (p % 8) (d &&& 0x50 + 0x20 * b2n ((s.client p).gfp.st != 2))
  | none =>
    let late := bufs.any fun b => decide (lim + 1 < b.length)
    let s := ks.foldl (fun s k => s.updEnt k fun e => { e with delayed := e.delayed.drop (e.delayed.length - (lim + 2)) }) s
    s.setDefects g 7 (p % 8) (0x10 * b2n lost + (was &&& 0x20) + (if late then 0x40 else was &&& 0x40))

/-- A member VC-4's payload enters its delay buffer (R103). -/
def State.memberFrame (s : State) (f : XptFrame) : State :=
  if f.layer != 6 then s else
  let g := f.group.val
  match s.memberOf g (f.index / 256) (f.index % 256) with
  | none => s
  | some (p, _) =>
    let s := s.updEnt (mkEnt g 6 f.index) fun e =>
      match f.mfi with
      | none => { e with mfi := some ((e.mfi.map (·.1)).getD 0, false) }
      | some m =>
        { e with mfi := some (m, e.mfi.all fun o => m == (o.1 + 1) % 4096)
                 delayed := e.delayed ++ [(m, s.cyc, f.payload)] }
    s.concat p

/-- A 100GbE client's stream passes its PCS (R109). -/
def State.clientFrame (s : State) (f : XptFrame) : State :=
  let g := f.group.val
  let p := 8 * g + f.index
  if f.layer != 7 || s.clientKind p != 1 || !s.serverGood p then s
  else
    let r := (s.client p).pcs.feed f.blocks
    let s := s.updClient p fun c => { c with pcs := r.1, rxFrames := c.rxFrames ++ r.2.frames }
    (s.bumpNz ⟨2, 1, 2⟩ p r.2.errors).setDefects g 7 f.index (0x20 * b2n (!r.1.lock))

/-- R100, R103, R106 to R109: a received frame of an entity; a kind-2 client's arrives as those of its members. -/
def execTransportFrameReceived (dt : Nat) (f : XptFrame) (s : State) : Host.Outcome State Fault Refusal :=
  let s := s.pass dt
  let g := f.group.val
  let own := f.layer == 7 && s.clientKind (8 * g + f.index) == 2
  if !s.framerLive g || !s.entExists g f.layer f.index || s.chip.d2dDown || own then ans s else
  let s := (((s.runSeconds.overhead f).justify f).pointer f)
  let s := if f.layer = 7 then s else s.setDefects g f.layer f.index (s.seenDefects f)
  let s := if bit (s.entDefects g f.layer f.index) 0 && f.layer == 1 then s.portToLock (s.lineOf f.index) 2 else s
  ans (((s.msiCheck f).memberFrame f).clientFrame f)

/-! ### Sent frames (R101, R105, R107, R110) -/

/-- What lane `n`'s identifier sends of each slot: the tributary port number of an allocated one, else unallocated (R94, R110). -/
def State.msiSent (s : State) (n : Nat) : List (Bool × Nat) :=
  if s.lineSignal n = 1 ∧ s.linePt n = 0x07 then []
  else (List.range (if s.lineSignal n = 1 then 80 else 20)).map fun i =>
    let slot := s.laneSlot n + i
    match (s.tribs (n / 8)).find? fun (_, r) =>
        r.kind != 0 && r.line == s.lineOf n && decide (r.first ≤ slot) && decide (slot < r.first + kindSlots r.kind) with
    | some (t, _) => (true, s.tpn (n / 8) t)
    | none => (false, 0)

/-- An ODU tributary that carries 100GbE for no client is sent as OCI (R110): STAT 6, else 1. -/
def State.statSent (s : State) (g layer ix : Nat) : Nat :=
  let idle (t : Nat) : Bool := (s.trib g t).payload == 0 && (s.clientOfTrib g t).isNone
  if layer = 3 then (if idle ix then 6 else 1)
  else if s.lineSignal ix = 1 ∧ s.linePt ix = 0x07 ∧ (s.zeroTrib ix).any idle then 6 else 1

/-- Overhead that a layer's frame sends beside its far-end fields. -/
def State.outHead (s : State) (g layer ix : Nat) : XptOut :=
  let tti := (s.ent (mkEnt g layer ix)).ttiSent
  if layer = 2 then { tti := tti, stat := s.statSent g 2 ix, pt := s.linePt ix, msi := s.msiSent ix }
  else if layer = 3 then { tti := tti, stat := s.statSent g 3 ix, pt := (s.trib g ix).pt }
  else { tti := tti }

/-- Signal label of a member VC-4: GFP (G.707; PRESUMED, log 47). -/
def labelGfp : Nat := 0x1B

/-- The frame of a member VC-4 carries its share of the client's container, all members from one frame clock (R105); any other VC-4
is unequipped (R110). -/
def State.outPath (s : State) (g ix : Nat) (o : XptOut) : XptOut :=
  let o := { o with ptr := sentPointer }
  match s.memberOf g (ix / 256) (ix % 256) with
  | none => o
  | some (p, m) =>
    let c := (s.ent (mkEnt g 7 (p % 8))).out
    let x := s.clientX p
    { o with label := labelGfp, mfi := c.mfi, payload := (List.range 2340).map fun i => c.payload.getD (i * x + m) 0 }

/-- Justification of a sent frame follows the fill of the buffer before it (R101). -/
def State.outGmp (s : State) (k : Nat) (r : GmpRate) : State :=
  let e := s.ent k
  let x := r.send e.txFill
  s.updEnt k fun e => { e with txFill := x.2, txCm := x.1, out := { e.out with gmpJc := gmpEncode e.txCm x.1 } }

/-- Payload of a client: frames that wait, the rest of the capacity filled with idle (R110). -/
def State.outClient (s : State) (p : Nat) : State :=
  let k := mkEnt (p / 8) 7 (p % 8)
  if s.clientKind p = 1 then
    let s := s.outGmp k gmpOfClient
    let n := (s.client p).txBits + 640 * (s.ent k).txCm
    let r := (s.client p).takeBlocks (n / 66)
    (s.updClient p fun _ => { r.1 with txBits := n % 66 }).updEnt k fun e => { e with out := { e.out with blocks := r.2 } }
  else
    let r := (s.client p).takeBytes (2340 * s.clientX p)
    (s.updClient p fun _ => r.1).updEnt k fun e => { e with out := { e.out with payload := r.2, mfi := e.sent % 4096 } }

/-- R101, R107, R110: the next frame of an entity is sent: the oldest violation count not yet returned, the defect indication, its
overhead, justification and payload. -/
def execTransportFrameSend (dt : Nat) (g : Fin 6) (layer index : Nat) (s : State) : Host.Outcome State Fault Refusal :=
  let s := s.pass dt
  if !s.framerLive g || !s.entSends g layer index then ans s else
  let k := mkEnt g layer index
  let head := s.outHead g layer index
  let out := if layer = 6 then s.outPath g index head else head
  let bdi := layer != 4 && layer != 7 && s.entFail g layer index
  let s := s.updEnt k fun e =>
    { e with sent := e.sent + 1, lastBei := e.beiPending.headD 0, beiPending := e.beiPending.tail, lastBdi := bdi, out := out }
  if layer = 3 then ans (s.outGmp k (gmpOfKind (s.trib g index).kind))
  else if layer = 7 then ans (s.outClient (8 * g + index))
  else ans s

/-! ### Commands (R385) -/

/-- Bytes of a performance record (R115). -/
def Bin.record (b : Bin) (ent : Nat) : List Byte :=
  let layer := entLayer ent
  let fe (x : Nat) : Nat := if layer = 7 then 0 else x
  let pj (x : Nat) : Nat := if layer = 6 then x else 0
  leBytes 8 (b.start % 2 ^ 48 + b2n b.day * 2 ^ 48 + b2n b.suspect * 2 ^ 49 + b2n b.unaligned * 2 ^ 50 + b2n (!b.final) * 2 ^ 51)
    ++ leBytes 4 ent ++ leBytes 4 b.neBbe ++ leBytes 4 b.neEs ++ leBytes 4 b.neSes ++ leBytes 4 b.neUas
    ++ leBytes 4 (fe b.feBbe) ++ leBytes 4 (fe b.feEs) ++ leBytes 4 (fe b.feSes) ++ leBytes 4 (fe b.feUas)
    ++ leBytes 4 (pj b.pjePos) ++ leBytes 4 (pj b.pjeNeg) ++ leBytes 12 0

/-- ENTITY of a payload names an entity of the map; `oh` restricts the layers to those with a trail trace. -/
def State.entityOk (s : State) (e : Nat) (oh : Bool) : Bool :=
  decide (e < 2 ^ 20) && s.entExists (entGroup e) (entLayer e) (entIndex e)
    && (if oh then [1, 2, 3, 4, 6].contains (entLayer e) else entLayer e != 7 || s.clientKind (8 * entGroup e + entIndex e) == 2)

/-- The group is another partition's. -/
def State.foreignGroup (s : State) (c : Cmd) (g : Nat) : Bool := s.partOn && s.groupPart g != c.part

def xptOhSetBody (s : State) (c : Cmd) (x : Nat) : Out :=
  let e := bits x 0 32
  if !s.entityOk e true || bits x 32 32 != 0 || (entLayer e == 4 && bits x 192 384 != 0) then .fail s stBadArg
  else if s.foreignGroup c (entGroup e) then .fail s stProtected
  else .ok (s.updEnt e fun v => { v with ttiSent := bits x 64 512 })

def xptOhSetSpec : OpSpec := { code := 0x0210, entryLen := fixedLen 72, body := xptOhSetBody }

/-- R385: the trail trace identifier to send. -/
def execXptOhSet (i : Issue) (s : State) : Host.Outcome State Fault Refusal := ans (s.runCommand xptOhSetSpec i)

def xptOhReadOk (s : State) (c : Cmd) (x : Nat) : Nat :=
  if !s.entityOk (bits x 0 32) true || bits x 32 32 != 0 then stBadArg
  else if s.foreignGroup c (entGroup (bits x 0 32)) then stProtected else stOk

def xptOhReadBody (s : State) (c : Cmd) (x : Nat) : Out :=
  let st := xptOhReadOk s c x
  if st ≠ stOk then .fail s st else .okResp s 0 (leBytes 64 (s.ent (bits x 0 32)).ttiRecv)

def xptOhReadSpec : OpSpec :=
  { code := 0x0211, entryLen := fixedLen 8, reads := true
    respLen := fun s c x => if xptOhReadOk s c x = stOk then 64 else 0, body := xptOhReadBody }

/-- R385: the last identifier received complete. -/
def execXptOhRead (i : Issue) (s : State) : Host.Outcome State Fault Refusal := ans (s.runCommand xptOhReadSpec i)

def pmReadOk (s : State) (c : Cmd) (x : Nat) : Nat :=
  let num := bits x 48 8
  if !s.entityOk (bits x 0 32) false || bits x 34 6 != 0 || bits x 56 8 != 0
      || (if bit x 33 then bits x 40 8 != 0 || num != 0 else decide (num < 1 ∨ 96 < num)) then stBadArg
  else if s.foreignGroup c (entGroup (bits x 0 32)) then stProtected else stOk

/-- The records that PM_READ returns, newest first. -/
def pmRecords (s : State) (x : Nat) : List Bin :=
  let e := s.ent (bits x 0 32)
  if bit x 33 then (if bit x 32 then e.cur24 else e.cur15).toList
  else ((e.hist (bit x 32)).drop (bits x 40 8)).take (bits x 48 8)

def pmReadBody (s : State) (c : Cmd) (x : Nat) : Out :=
  let st := pmReadOk s c x
  if st ≠ stOk then .fail s st
  else .okResp s (pmRecords s x).length ((pmRecords s x).flatMap (·.record (bits x 0 32)))

def pmReadSpec : OpSpec :=
  { code := 0x0212, entryLen := fixedLen 8, reads := true
    respLen := fun s c x => if pmReadOk s c x = stOk then 64 * (pmRecords s x).length else 0, body := pmReadBody }

/-- R115, R385: performance records of an entity. -/
def execPmRead (i : Issue) (s : State) : Host.Outcome State Fault Refusal := ans (s.runCommand pmReadSpec i)

end Sys2Proof.Machine
end

