-- ==== Sys2Proof/Machine/Groups.lean ====
section
/-! DEFINITION. Switching a lane group (R73, R413): the checks that refuse it, STARTING, QUIESCING and OFF, with the guard rule
that each STARTING tests again (R289). Shared with the power commands of R441. -/

namespace Sys2Proof.Machine

/-- Is the last direction asked for ON? -/
def Domain.wantsOn (d : Domain) : Bool := (d.todo.getLast?).getD (d.st == .on || d.st == .starting)

/-! ### Ports of a group -/

/-- Ports of a group: client ports on a framer group (R57). -/
def State.groupPorts (s : State) (g : Nat) : List Nat := ((List.range 8).map (8 * g + ·)).filter s.portExists

/-- First lanes of the ports whose lanes a group's STARTING brings up: type and lane (R65, R91). -/
def State.groupLines (s : State) (g : Nat) : List (Nat × Nat) :=
  if s.xptGroup g then
    (((List.range 8).map (8 * g + ·)).filter fun n => s.lineSignal n == 1 || s.lineSignal n == 2).map fun n => (n, 14)
  else (s.groupPorts g).map fun p => (p, s.laneField p)

/-- Some port of the group has a queue with a non-zero guaranteed rate (R23). -/
def State.groupPromises (s : State) (g : Nat) : Bool := (s.groupPorts g).any s.portPromises

/-! ### The guard rule (R286, R289) -/

/-- Lowest type that the ladder can reach from the GROUP_CFG type (R286). -/
def ladderFloor (floor : Nat) : Nat → Nat → Nat
  | 0, t => t
  | n + 1, t =>
    let c := typeLadder t
    if c = 0 ∨ typeRateCode c < floor then t else ladderFloor floor n c

def State.lowestRate (s : State) (p : Nat) : Nat :=
  let cfg := s.reg (0x00200000 + 0x40 * p)
  s.rateAt p (if bit cfg 4 then ladderFloor (bits cfg 5 3) 5 (s.laneField p) else s.laneField p)

/-- Smallest guard band of a port in ns: T_frame at the lowest reachable rate, rounded up. -/
def State.guardMin (s : State) (p : Nat) : Nat :=
  ceilDiv (frameQ (addBytes (s.maxFrame p) (s.egress p).oPort) (s.lowestRate p)) qNs

/-- R289: a port whose list in force fails the guard rule runs with all gates open. -/
def State.recheckGuard (s : State) (p : Nat) : State :=
  match (s.gate p).cur with
  | none => s
  | some l =>
    if decide (s.guardMin p ≤ l.guard) || (s.gate p).suspended then s
    else ((s.syncV p).updGate p fun g => { g with suspended := true }).raise (s.portPart p) evGateListSuspended p (s.curType p)

/-! ### Switching -/

/-- LANE_CFG and LANE_TXEQ of a lane as they act: LOOPBACK 3 as 0, MAIN reduced to fit (R74). -/
def State.laneDrive (s : State) (n : Nat) : Drive :=
  let c := s.reg (0x00200000 + 0x40 * n)
  let q := s.reg (0x0020000C + 0x40 * n)
  let pre := bits q 0 4
  let post := bits q 16 5
  { txInvert := bit c 0, rxInvert := bit c 1, loopback := if bits c 2 2 = 3 then 0 else bits c 2 2
    pre := pre, main := min (bits q 8 6) (63 - pre - post), post := post }

/-- One port of a starting group: its type, flags and maximum frame are taken over, its lanes enter TX_ON. -/
def State.startLine (s : State) (n typ : Nat) : State :=
  let s := s.updPort n fun t =>
    { t with typ := typ, attempt := none, adapted := false, failedAt := none, noLockRun := 0, blocked := false
             remoteFault := false, looped := [] }
  (s.lanesOf n).foldl (fun s m => s.updLane m fun l =>
    { l.enter .txOn s.cyc with
      rate := typeRateCode typ, typ := typ, prbsLock := false, attempts := 0, drive := s.laneDrive m }) s

/-- An entity of a group whose signals start afresh: no pointer, status or payload type is known (R108). -/
def XEnt.restart (e : XEnt) : XEnt :=
  { e with defects := 0, parity := [], status := {}, pt := { acc := 256 }, far := {}, ptr := {}, mfi := none, delayed := []
           txFill := 0, beiPending := [], out := {} }

/-- The framer's signals of a group start afresh; no client is delineated yet (R109). -/
def State.startClients (s : State) (g : Nat) : State :=
  let ents := s.xpt.ents.foldl (fun m (k, e) => NMap.put m {} k (if entGroup k = g then e.restart else e)) []
  { s with xpt := { s.xpt with
      clients := s.xpt.clients.filter fun (p, _) => p / 8 != g
      ents := (s.clientsOf g 1 ++ s.clientsOf g 2).foldl
        (fun m p => NMap.upd m {} (mkEnt g 7 (p % 8)) fun e => { e with defects := 0x20 }) ents } }

/-- The lanes and ports of a group come up (R73, R86, R95, R289). -/
def State.groupLinesUp (s : State) (g : Nat) : State :=
  let s := (s.groupLines g).foldl (fun s p => s.startLine p.1 p.2) s
  let s := (s.groupPorts g).foldl (fun s p =>
    (s.updPort p fun t => { t with maxFrame := s.regF (0x00400000 + 0x20 * p) 0 14 }).recheckGuard p) s
  if s.xptGroup g then
    ((List.range 8).map (8 * g + ·) ++ (List.range 32).map (48 + 32 * g + ·)).foldl
      (fun s l => if s.levelExists l then s.levelSearch l else s) (s.startClients g)
  else s

/-- The group enters STARTING (R73). -/
def State.groupStart (s : State) (g : Nat) : State :=
  (s.updGroup g fun d => { d with st := .starting, since := s.cyc, turn := d.turn + 1 }).groupLinesUp g

/-- A port of a quiescing group leaves PCS_UP with cause 5, and its lanes go OFF. -/
def State.disableLine (s : State) (n : Nat) : State :=
  let up := s.pcsUp n
  let s := (s.moveLanes n .off).updLanes n fun l => { l with prbsLock := false }
  let s := s.updPort n fun t => { t with attempt := none, failedAt := none, looped := [] }
  if !up then s
  else if s.isFramerLine n then s.raise (s.portPart n) evLinkDown n (5 * 256)
  else s.goesDown n 0 5

/-- The ports of a group go down and its lanes OFF (R72). -/
def State.groupLinesDown (s : State) (g : Nat) : State :=
  let s := if s.xptGroup g then
      (s.groupPorts g).foldl (fun s p => if s.clientUp p then (s.setClient p false).goesDown p 0 5 else s) s
    else s
  (s.groupLines g).foldl (fun s p => s.disableLine p.1) s

/-- The group enters QUIESCING (R72, R73). -/
def State.groupStop (s : State) (g : Nat) : State :=
  (s.updGroup g fun d => { d with st := .quiescing, since := s.cyc, turn := d.turn + 1 }).groupLinesDown g

/-- The next direction of a group takes effect when its state lets it (R413). -/
def State.groupNext (s : State) (g : Nat) : State :=
  let d := s.group g
  match d.st, d.todo with
  | .off, true :: t => (s.updGroup g fun d => { d with todo := t }).groupStart g
  | .on, false :: t => (s.updGroup g fun d => { d with todo := t }).groupStop g
  | _, _ => s

/-- Switch a group; repeated requests coalesce (R413). -/
def State.groupSwitch (s : State) (g : Nat) (on : Bool) : State :=
  if (s.group g).wantsOn = on then s
  else (s.updGroup g fun d => { d with todo := d.todo ++ [on] }).groupNext g

/-- The checks that refuse an enable, with MAP_ERR recorded for a framer group (R56, R73, R96). -/
def State.groupEnableCheck (s : State) (g : Nat) : State × Bool :=
  if !s.layoutOk g then (s, false)
  else if s.xptGroup g then
    let e := s.mapErrOf g
    ({ s with xpt := { s.xpt with mapErr := s.xpt.mapErr.put 0 g e } }, e == 0)
  else (s, true)

/-- GROUP_STATUS.CFG_REJECT (R73, R86, R95). -/
def State.cfgReject (s : State) (g : Nat) : State := s.orReg (0x00201008 + 0x10 * g) 0x100

/-- MW0 offset of GROUP_CTRL (R5, R6, R74). -/
def groupCtrlOff (g : Nat) : Nat := 0x40000 + 0x1004 + 0x10 * g

/-- R73: a write of 1 to GROUP_CTRL.ENABLE before MODE_STATUS.APPLIED reads 1. -/
def execGroupEnable (dt : Nat) (fn : Fin 2) (g : Fin 6) (s : State) : Host.Outcome State Fault Refusal :=
  ans ((s.pass dt).mw0 fn (groupCtrlOff g) fun s =>
    if s.applied || !s.ownsGroup fn g || s.chip.d2dDown then s else
    let r := if (s.group g).wantsOn then (s, true) else s.groupEnableCheck g
    if r.2 then (r.1.setReg (0x00201004 + 0x10 * g) 1).groupSwitch g true else r.1.cfgReject g)

/-- R73, R23: a write of 0 to GROUP_CTRL.ENABLE before MODE_STATUS.APPLIED reads 1. -/
def execGroupDisable (dt : Nat) (fn : Fin 2) (g : Fin 6) (s : State) : Host.Outcome State Fault Refusal :=
  ans ((s.pass dt).mw0 fn (groupCtrlOff g) fun s =>
    if s.applied || !s.ownsGroup fn g || s.chip.d2dDown then s
    else if (s.group g).wantsOn && s.groupPromises g then s.cfgReject g
    else (s.setReg (0x00201004 + 0x10 * g) 0).groupSwitch g false)

/-- A domain or group has ended its transition `turn`: the commands that wait for it complete (R413, R441); RESULT counts the
dropped packets. -/
def State.powerDone (s : State) (kind ix turn dropped : Nat) : State :=
  s.endWaits (fun w => match w with | .power k i t => k == kind && i == ix && decide (t ≤ turn) | _ => false) stOk
    (min dropped 255)

/-- Every used lane of the group has passed TX_ON (R73). -/
def State.groupLit (s : State) (g : Nat) : Bool :=
  (s.groupLines g).all fun p => (s.lanesOf p.1).all fun n => (s.lane n).st != .txOn

/-- R73: the group reaches ON. -/
def execGroupStartingDone (dt : Nat) (g : Fin 6) (s : State) : Host.Outcome State Fault Refusal :=
  let s := s.pass dt
  if (s.group g).st != .starting || !s.groupLit g then ans s else
  ans (((s.updGroup g fun d => { d with st := .on }).powerDone 1 g (s.group g).turn 0).groupNext g)

/-- The group reaches OFF: its ports return to their GROUP_CFG types (R70), and a waiting enable starts it (R73, R413). -/
def State.groupOff (s : State) (g : Nat) : State :=
  let s := ((List.range 8).map (8 * g + ·)).foldl (fun s n =>
    (s.updLane n fun l => { l.enter .off s.cyc with prbsLock := false, rate := 0, typ := 0, attempts := 0 }).updPort n
      fun t => { t with typ := 0 }) s
  ((s.updGroup g fun d => { d with st := .off }).powerDone 1 g (s.group g).turn 0).groupNext g

/-- R73: the group reaches OFF. -/
def execGroupQuiescingDone (dt : Nat) (g : Fin 6) (s : State) : Host.Outcome State Fault Refusal :=
  let s := s.pass dt
  if (s.group g).st != .quiescing then ans s else ans (s.groupOff g)

end Sys2Proof.Machine
end

