-- ==== Sys2Proof/Machine/Mac.lean ====
section
/-! DEFINITION. The line MACs (03_line_lanes_and_mac.md): address entries (R79), received pause and PFC (R83, R84, R258,
R259), sent pause (R85, R219), and MAC_ADDR_SET and MAC_ADDR_READ (R385). -/

namespace Sys2Proof.Machine

/-- A counter of set 1 of a port (R87, R417). -/
def macCtr (item : Nat) : CtrName := ⟨1, 0, item⟩

def State.macCfg (s : State) (p : Nat) : Nat := s.reg (0x00400000 + 0x20 * p)
def State.macFlow (s : State) (p : Nat) : Nat := s.reg (0x00400004 + 0x20 * p)

/-- PAUSE_POLICY is OVERRIDE (R84). -/
def State.overrides (s : State) (p : Nat) : Bool := bit (s.macCfg p) 17

/-! ### Received pause (R83, R84) -/

/-- Time of `quanta` pause quanta on a port in TIME cycles, rounded up. -/
def State.quantaCyc (s : State) (p quanta : Nat) : Nat :=
  let r := s.portRate p
  if r = 0 then 0 else ceilDiv (quanta * 512 * 4 * 1000000) (r * 5)

/-- Traffic classes that a pause key holds: all for the 802.3 pause, the mapped one for a PFC priority. -/
def State.pauseMask (s : State) (p key : Nat) : Nat :=
  if key = 8 then 0xFF else 2 ^ bits (s.reg (0x00400008 + 0x20 * p)) (3 * key) 3

/-- The pause of a key ends at cycle `e`, or now when that lies ahead; the interval spent under HONOR goes to the Ledger (R84,
R258). -/
def State.endPause (s : State) (p key e : Nat) : State :=
  let from_ := (s.port p).honorFrom.find? key
  let stop := s.now - (s.cyc - e) * 81920
  let s := s.updPort p fun t =>
    { t with pauses := t.pauses.del key, honorFrom := t.honorFrom.del key, interimAt := t.interimAt.del key }
  match from_ with
  | none => s
  | some t0 => if stop ≤ t0 then s
    else s.applyInterval p (if key = 8 then 0 else 1) (s.pauseMask p key) t0 stop 0

/-- 200 ns, after which a received pause holds frames (R83). -/
def pauseDelay : Nat := 160

/-- A pause of `quanta` arrives for a key: it replaces the remaining time; 0 ends the pause (R83). -/
def State.setPause (s : State) (p key quanta : Nat) : State :=
  let s := match (s.port p).pauses.find? key with
    | some (_, e) => if quanta = 0 ∨ e ≤ s.cyc then s.endPause p key e else s
    | none => s
  if quanta = 0 then s
  else
    let cur := (s.port p).pauses.find? key
    let stop := s.cyc + pauseDelay + s.quantaCyc p quanta
    match cur with
    | some (a, _) => s.updPort p fun t => { t with pauses := t.pauses.put (0, 0) key (a, stop) }
    | none => s.updPort p fun t =>
        { t with
          pauses := t.pauses.put (0, 0) key (s.cyc + pauseDelay, stop)
          honorFrom := if s.overrides p then t.honorFrom else t.honorFrom.ins key (s.now + 200 * qNs)
          interimAt := t.interimAt.put 0 key (s.cyc + pauseDelay) }

/-- An 802.3 pause frame of the right length (R83). -/
def State.gotPause (s : State) (p quanta : Nat) : State :=
  let s := s.bump (macCtr 13) p
  if bit (s.macCfg p) 15 && s.portUp p then s.setPause p 8 quanta else s

/-- A PFC frame of the right length: enable vector and quanta by priority (R83). -/
def State.gotPfc (s : State) (p enable : Nat) (quanta : List Nat) : State :=
  let s := s.bump (macCtr 14) p
  if bit (s.macCfg p) 16 && s.portUp p then
    quanta.zipIdx.foldl (fun s (q, i) => if bit enable i then s.setPause p i q else s) s
  else s

/-- Every delimited frame takes the port's next sequence number (R28, R58, R337). -/
def State.takeSeq (s : State) (p len fcs : Nat) : State :=
  let on := s.isOn .twin
  s.updPort p fun t =>
    { t with
      seq := (t.seq + 1) % 2 ^ 40
      seqHist := if on then (t.seqHist.filter fun h => decide (s.cyc ≤ h.2.2.2 + 204800)) ++ [(len, fcs, t.seq, s.cyc)] else [] }

/-- A control frame whose FCS the command does not give: a free value (log 11). -/
def State.takeControlSeq (s : State) (p : Nat) : State :=
  s.drawn.takeSeq p 64 (Config.openValue s.freeCtr % 2 ^ 32)

/-- LOOPBACK of a port: that of its lanes, when all have the same (R74). -/
def State.loopback (s : State) (p : Nat) : Nat :=
  let l := (s.lane p).drive.loopback
  if s.xptGroup (p / 8) then 0 else if (s.lanesOf p).all fun n => (s.lane n).drive.loopback == l then l else 0

/-- The port's MAC takes frames from the line: it is up, the die-to-die link is (R16), and its receiver does not hear its own
transmitter (R74). -/
def State.lineIn (s : State) (p : Nat) : Bool := s.portUp p && !s.chip.d2dDown && s.loopback p != 1

/-- R83. -/
def execPauseReceived (dt : Nat) (port : Fin 48) (quanta : BitVec 16) (s : State) : Host.Outcome State Fault Refusal :=
  let s := s.pass dt
  if !s.lineIn port then ans s
  else ans (((s.takeControlSeq port).bumpPair (macCtr 0) port 64).gotPause port quanta.toNat)

/-- R83. -/
def execPfcReceived (dt : Nat) (port : Fin 48) (enable : BitVec 8) (quanta : Vector (BitVec 16) 8) (s : State) :
    Host.Outcome State Fault Refusal :=
  let s := s.pass dt
  if !s.lineIn port then ans s
  else ans (((s.takeControlSeq port).bumpPair (macCtr 0) port 64).gotPfc port enable.toNat (quanta.toList.map (·.toNat)))

/-- R83, R84, R258: a pause time elapses. -/
def execPauseExpiry (dt : Nat) (port : Fin 48) (cls : Option (Fin 8)) (s : State) : Host.Outcome State Fault Refusal :=
  let s := s.pass dt
  let key := (cls.map (·.val)).getD 8
  match (s.port port).pauses.find? key with
  | none => ans s
  | some (_, e) => if e ≤ s.cyc then ans (s.endPause port key e) else ans s

/-- A change of PAUSE_POLICY: intervals end at a change to OVERRIDE and begin at a change to HONOR (R84). -/
def State.policyChange (s : State) (p : Nat) : State :=
  (s.port p).pauses.foldl (fun s (key, a, e) =>
    if s.overrides p then
      match (s.port p).honorFrom.find? key with
      | none => s
      | some t0 =>
        let s := s.updPort p fun t => { t with honorFrom := t.honorFrom.del key }
        if s.now ≤ t0 then s else s.applyInterval p (if key = 8 then 0 else 1) (s.pauseMask p key) t0 s.now 0
    else if decide (s.cyc < e) && ((s.port p).honorFrom.find? key).isNone then
      s.updPort p fun t =>
        { t with honorFrom := t.honorFrom.ins key (s.now + (a - s.cyc) * 81920), interimAt := t.interimAt.put 0 key s.cyc }
    else s) s

/-- A frame of traffic class `tc` that would begin now is held by a received pause; promised queues are not under OVERRIDE. -/
def State.pausedFor (s : State) (p tc : Nat) (promised : Bool) : Bool :=
  !(promised && s.overrides p) &&
    (s.port p).pauses.any fun (key, a, e) => decide (a < s.cyc) && decide (s.cyc < e) && bit (s.pauseMask p key) tc

/-! ### Interim reports (R259) -/

/-- One running interval: interim LEDGER_EXTENDED when 10 ms have passed since its start or the last report. -/
def State.interim (s : State) (p key cause mask t0 : Nat) : State :=
  if s.cyc < (s.port p).interimAt.get 0 key + 10 * cycMs then s
  else (s.updPort p fun t => { t with interimAt := t.interimAt.put 0 key s.cyc }).raiseExtended p cause false mask t0 s.now
    (s.outstandingBounds p mask)

/-- R259: every 10 ms of a running interval. -/
def execLedgerExtendedInterim (dt : Nat) (port : Fin 48) (s : State) : Host.Outcome State Fault Refusal :=
  let s := s.pass dt
  let p := port.val
  let s := (s.port p).honorFrom.foldl (fun s (key, t0) =>
    s.interim p key (if key = 8 then 0 else 1) (s.pauseMask p key) t0) s
  match (s.port p).downAt with
  | none => ans s
  | some (_, t0) => ans (s.interim p 9 2 0xFF t0)

/-! ### Ingress occupancy and sent pause (R59, R85, R218, R219) -/

/-- A steering buffer now, and what the slice has still to take of other ports' frames: the slice takes 1.2 Tb/s, the other ports'
frames first (R59; log 41). -/
def State.steerNow (s : State) (slice : Nat) : Nat × Nat :=
  let b := s.switch.steer.get (0, 0, 0) slice
  let n := 375 * (s.cyc - b.2.2)
  (b.1 - (n - b.2.1), b.2.1 - n)

/-- Half-bytes of a steering buffer now. -/
def State.steerHalf (s : State) (slice : Nat) : Nat := (s.steerNow slice).1

/-- Bytes in a slice's staging buffer; and those of one port. -/
def stagedBytes (l : List Pkt) : Nat := (l.map (·.data.length)).foldl (· + ·) 0
def State.stagedOf (s : State) (slice p : Nat) : Nat :=
  stagedBytes ((s.stagingOf slice).filter fun k => k.pp.inPort == p)

/-- Ingress occupancy of a port in bytes. -/
def State.occupancy (s : State) (p : Nat) : Nat :=
  let k := portSlice p
  if s.isSplit p then
    s.stagedOf k p + s.stagedOf (k + 1) p + (s.steerHalf k + s.steerHalf (k + 1)) / 2
  else s.stagedOf k p

/-- PAUSE_TX as it acts: 3 acts as 0; with TWIN ON only the claim holder sends; nothing is sent while the port is down or receives a
remote fault (R63), nor PFC for no priority (log 106). -/
def State.pauseTx (s : State) (p : Nat) : Nat :=
  let m := bits (s.macCfg p) 18 2
  if m == 3 || (m == 2 && bits (s.macFlow p) 24 8 == 0) || !s.holds (s.portPart p) || !s.portUp p || (s.port p).remoteFault then 0
  else m

/-- A pause or PFC frame with these quanta is sent (R85); under near-end loopback the port receives it (R74, R83). -/
def State.countPauseTx (s : State) (p quanta : Nat) : State :=
  let f : PauseFrame := { pfc := s.pauseTx p != 1, enable := bits (s.macFlow p) 24 8, quanta := quanta }
  let s := (s.updPort p fun t => { t with pauseOut := some f }).bump (macCtr (if f.pfc then 16 else 15)) p
  if s.loopback p != 1 then s
  else
    let s := (s.takeControlSeq p).bumpPair (macCtr 0) p 64
    if f.pfc then s.gotPfc p f.enable (List.replicate 8 quanta) else s.gotPause p quanta

/-- After the occupancy has changed: XOFF sends a pause with quanta 0xFFFF, falling below XON one with quanta 0 (R85). -/
def State.pauseCheck (s : State) (p : Nat) : State :=
  let f := s.macFlow p
  let xoff := bits f 0 12
  let xon := if bits f 12 12 < xoff then bits f 12 12 else xoff - 1
  let occ := s.occupancy p
  match (s.port p).xoffSent with
  | none =>
    if s.pauseTx p != 0 && decide (xoff * 1024 ≤ occ) then
      (s.updPort p fun t => { t with xoffSent := some s.cyc }).countPauseTx p 0xFFFF
    else s
  | some _ =>
    if occ < xon * 1024 then
      let s := s.updPort p fun t => { t with xoffSent := none }
      if s.pauseTx p = 0 then s else s.countPauseTx p 0
    else s

/-- R85: half of the sent pause time has elapsed with occupancy above XON. -/
def execPauseResend (dt : Nat) (port : Fin 48) (s : State) : Host.Outcome State Fault Refusal :=
  let s := s.pass dt
  let p := port.val
  match (s.port p).xoffSent with
  | none => ans (s.pauseCheck p)
  | some t0 =>
    let f := s.macFlow p
    let xon := if bits f 12 12 < bits f 0 12 then bits f 12 12 else bits f 0 12 - 1
    if s.pauseTx p != 0 && decide (t0 + s.quantaCyc p 0xFFFF / 2 ≤ s.cyc) && decide (xon * 1024 < s.occupancy p) then
      ans ((s.updPort p fun t => { t with xoffSent := some s.cyc }).countPauseTx p 0xFFFF)
    else ans (s.pauseCheck p)

/-- R63: remote fault begins or stops on a port; a pause that the fault held back is due when it stops (R85). -/
def execRemoteFaultReceived (dt : Nat) (port : Fin 48) (fault : Bool) (s : State) : Host.Outcome State Fault Refusal :=
  let s := (s.pass dt).updPort port fun t => { t with remoteFault := fault }
  ans (if fault then s else s.pauseCheck port)

/-! ### Address entries (R79, R385) -/

/-- Entry `i` of a port: address with its first byte lowest, valid in bit 48. -/
def State.macEntry (s : State) (p i : Nat) : Nat := s.macs.get 0 (p * 16 + i)

/-- A line port of another partition. -/
def State.foreignPort (s : State) (c : Cmd) (p : Nat) : Bool := s.partOn && s.portPart p != c.part

def macAddrSetBody (s : State) (c : Cmd) (x : Nat) : Out :=
  let p := bits x 0 8
  if 48 ≤ p ∨ bits x 13 51 ≠ 0 ∨ bits x 112 16 ≠ 0 ∨ bit x 64 then .fail s stBadArg
  else if s.foreignPort c p then .fail s stProtected
  else .ok { s with macs := s.macs.put 0 (p * 16 + bits x 8 4) (bits x 64 48 + b2n (bit x 12) * 2 ^ 48) }

def macAddrSetSpec : OpSpec := { code := 0x0200, entryLen := fixedLen 16, batch := true, body := macAddrSetBody }

/-- R79, R385: one perfect-match address entry. -/
def execMacAddrSet (i : Issue) (s : State) : Host.Outcome State Fault Refusal := ans (s.runCommand macAddrSetSpec i)

def macAddrReadOk (s : State) (c : Cmd) (x : Nat) : Nat :=
  if decide (48 ≤ bits x 0 8) || bits x 8 56 != 0 then stBadArg
  else if s.foreignPort c (bits x 0 8) then stProtected else stOk

def macAddrReadBody (s : State) (c : Cmd) (x : Nat) : Out :=
  let st := macAddrReadOk s c x
  if st ≠ stOk then .fail s st
  else .okResp s 0 ((List.range 16).flatMap fun i => leBytes 8 (s.macEntry (bits x 0 8) i))

def macAddrReadSpec : OpSpec :=
  { code := 0x0201, entryLen := fixedLen 8, reads := true
    respLen := fun s c x => if macAddrReadOk s c x = stOk then 128 else 0, body := macAddrReadBody }

/-- R385: the sixteen entries of a port. -/
def execMacAddrRead (i : Issue) (s : State) : Host.Outcome State Fault Refusal := ans (s.runCommand macAddrReadSpec i)

end Sys2Proof.Machine
end

