-- ==== Sys2Proof/Machine/Parse.lean ====
section
/-! DEFINITION. The parse graph (05_parsing.md): the two banks and their activation check (R117 to R119), the walk of R126,
the parse result vector (R132), the flow hash (R133), the keys (R135, R136), and PARSE_GRAPH_WRITE and PARSE_GRAPH_ACTIVATE.
A frame is parsed whole at the instant of its step, so no write waits for frames of the other bank (R120). -/

namespace Sys2Proof.Machine

/-! ### Graph memory (R117) -/

/-- Tables: 0 nodes, 1 transitions, 2 extraction operations, 3 key profiles, 4 key chunks. -/
def graphEntries (t : Nat) : Nat := [1024, 8192, 4096, 256, 4096].getD t 0
def graphBytes (t : Nat) : Nat := [16, 16, 4, 16, 4].getD t 0

def graphKey (bank table ix : Nat) : Nat := (bank * 8 + table) * 8192 + ix

def State.graphAt (s : State) (bank table ix : Nat) : Nat := s.parse.graph.get 0 (graphKey bank table ix)

/-- The index with its most significant bit replaced by the port's partition (R118). -/
def State.ownIndex (s : State) (table part ix : Nat) : Nat :=
  if s.partOn then ix % (graphEntries table / 2) + part * (graphEntries table / 2) else ix

/-- Active bank of a partition (R119, R137). -/
def State.activeBank (s : State) (part : Nat) : Nat := if part = 0 then s.parse.activeA else s.parse.activeB

/-! ### Node fields (R122) -/

def nKind (n : Nat) : Nat := bits n 0 4
def nLayer (n : Nat) : Nat := bits n 4 4
def nLenWidth (n : Nat) : Nat := if bits n 28 4 = 0 then 16 else bits n 28 4
def nSelWidth (n i : Nat) : Nat := if i = 0 then bits n 40 5 else bits n 55 5
def nSelOff (n i : Nat) : Nat := if i = 0 then bits n 34 6 else bits n 49 6
def nSelShift (n i : Nat) : Nat := if i = 0 then bits n 45 4 else bits n 60 4

/-- Bytes of an extraction operation or a chunk: 0 means 16. -/
def len16 (l : Nat) : Nat := if l = 0 then 16 else l

/-! ### The activation check (R119) -/

/-- A range of a table lies in it, or in the partition's half of it (R119). An empty range lies outside nothing (log 109). -/
def State.rangeOk (s : State) (part table base n : Nat) : Bool :=
  let half := graphEntries table / 2
  n == 0 ||
    if s.partOn then decide (part * half ≤ base) && decide (base + n ≤ (part + 1) * half) else decide (base + n ≤ graphEntries table)

/-- A transition to a next node names one of the partition's half (R119). -/
def State.nextOk (s : State) (part e : Nat) : Bool := bits e 74 2 != 0 || s.rangeOk part 0 (bits e 64 10) 1

def State.nodeOk (s : State) (bank part n : Nat) : Bool :=
  decide (nKind n ≤ 8) && decide (nLayer n ≤ 8) && !bit n 9 && n / 2 ^ 105 == 0
    && ((List.range 2).all fun i => decide (nSelWidth n i ≤ 16) && (nSelWidth n i == 0 || decide (nSelShift n i + nSelWidth n i ≤ 16)))
    && (!(nKind n == 0 && bit n 8) || decide (bits n 24 4 + nLenWidth n ≤ 16))
    && decide (bits n 77 5 ≤ 16) && bits n 82 2 != 3 && decide (bits n 102 3 ≤ 4)
    && s.rangeOk part 1 (bits n 64 13) (bits n 77 5) && s.rangeOk part 2 (bits n 90 12) (bits n 102 3)
    && (List.range (bits n 77 5)).all fun i => s.nextOk part (s.graphAt bank 1 (bits n 64 13 + i))

/-- Width of a key in bytes (R135). -/
def keyBytes (w : Nat) : Nat := [10, 20, 40, 80].getD w 0

/-- A chunk copies within the vector and its key (R136). -/
def chunkOk (c width : Nat) : Bool :=
  decide (bits c 0 8 + len16 (bits c 16 4) ≤ 256) && decide (bits c 8 7 + len16 (bits c 16 4) ≤ keyBytes width)

/-- Descriptor k of a profile entry (R135). -/
def State.keyDescOk (s : State) (bank part d k : Nat) : Bool :=
  !bit d 3 && bits d 25 7 == 0 &&
    (!bit d 0 ||
      (decide (bits d 20 5 ≤ 16) && (k != 0 || bits d 1 2 == 1) && (k != 1 || bits d 1 2 != 3)
        && s.rangeOk part 4 (bits d 8 12) (bits d 20 5)
        && (List.range (bits d 20 5)).all fun i =>
            chunkOk (s.graphAt bank 4 (s.ownIndex 4 part (bits d 8 12) + i)) (bits d 1 2)))

/-- One listed entry of a bank. An entry that no write has made non-zero is checked only where a node's range takes it in (log 109). -/
def State.graphEntryOk (s : State) (bank part table e : Nat) : Bool :=
  match table with
  | 0 => s.nodeOk bank part e
  | 1 => e / 2 ^ 90 == 0 && s.nextOk part e
  | 2 => bits e 18 14 == 0 && decide (bits e 10 8 + len16 (bits e 6 4) ≤ 192)
  | 3 => (List.range 4).all fun k => s.keyDescOk bank part (bits e (32 * k) 32) k
  | 4 => !bit e 15 && bits e 20 12 == 0
  | _ => false

/-- Partition of a table's index. -/
def State.graphPart (s : State) (table ix : Nat) : Nat := s.halfPart (graphEntries table / 2) ix

/-- The bank, or the partition's half of it, passes the check. -/
def State.graphOk (s : State) (bank part : Nat) : Bool :=
  s.parse.graph.all fun (k, e) =>
    let table := k / 8192 % 8
    k / 65536 != bank || (s.partOn && s.graphPart table (k % 8192) != part) || s.graphEntryOk bank part table e

/-! ### The walk (R126) -/

/-- Outcomes of R128. -/
inductive WalkEnd where
  | accept | parseDepth | lenConflict | unknownNext | fragment | ipOptions | graphPunt | ipv4Csum | graphDrop
deriving DecidableEq, Repr

/-- A visited node that has passed its checks: layer, header offset, kind. -/
structure Visit where
  layer : Nat
  off : Nat
  kind : Nat
deriving DecidableEq, Repr

/-- How a walk ended: outcome, node, visit number, header offset, punt code, packet type, extracted bytes, nodes visited. -/
structure Walk where
  end_ : WalkEnd
  node : Nat := 0
  visit : Nat := 0
  off : Nat := 0
  code : Nat := 0
  ptype : Nat := 0
  vec : List Byte := []
  visits : List Visit := []
deriving DecidableEq, Repr

/-- A field read of R122. -/
def readField (f : List Byte) (at_ shift width : Nat) : Nat := bits (be16 f at_) shift width

/-- Ones' complement sum of 16-bit words. -/
def onesSum (bs : List Byte) : Nat → Nat
  | 0 => 0
  | n + 1 => onesSum bs n + be16 bs (2 * n)

/-- Fold a sum to 16 bits. -/
def fold16 (x : Nat) : Nat :=
  let y := x % 65536 + x / 65536
  let z := y % 65536 + y / 65536
  z % 65536 + z / 65536

/-- Last byte that gives the header length, when the kind reads one (R123, R126 step 2). -/
def lenByte (n o : Nat) : Option Nat :=
  match nKind n with
  | 0 => if bit n 8 then some (o + bits n 18 6 + 1) else none
  | 4 => some o
  | 6 => some (o + 1)
  | 7 => some (o + 12)
  | _ => none

/-- Header length; none for a length conflict (R123). -/
def hdrLen (n : Nat) (f : List Byte) (o : Nat) : Option Nat :=
  let pos (h : Nat) : Option Nat := if h = 0 then none else some h
  match nKind n with
  | 0 => pos (bits n 10 8 + (if bit n 8 then readField f (o + bits n 18 6) (bits n 24 4) (nLenWidth n) * 2 ^ bits n 32 2 else 0))
  | 1 => some 14
  | 2 => some 4
  | 3 => some 4
  | 4 => if byteAt f o % 16 < 5 then none else some (byteAt f o % 16 * 4)
  | 5 => some 40
  | 6 => some ((byteAt f (o + 1) + 1) * 8)
  | 7 => if byteAt f (o + 12) / 16 < 5 then none else some (byteAt f (o + 12) / 16 * 4)
  | 8 => some 8
  | _ => none

/-- First byte beyond all that the visit reads: header, select fields, extraction operations (R126 step 4). -/
def visitTop (n : Nat) (ops : List Nat) (o h : Nat) : Nat :=
  let sel (i : Nat) : Nat := if nSelWidth n i = 0 then 0 else o + nSelOff n i + 2
  ops.foldl (fun m e => max m (o + bits e 0 6 + len16 (bits e 6 4))) (max (o + h) (max (sel 0) (sel 1)))

/-- Declared end of the region that a header covers (R127). -/
def declaredEnd (n : Nat) (f : List Byte) (o : Nat) : Option Nat :=
  match nKind n with
  | 4 => some (o + be16 f (o + 2))
  | 5 => some (o + 40 + be16 f (o + 4))
  | 8 => some (o + be16 f (o + 4))
  | _ => none

/-- Step 8: the bound after the visit, none for a conflict (R127). -/
def newBound (n : Nat) (f : List Byte) (o h b : Nat) : Option Nat :=
  match declaredEnd n f o with
  | none => some b
  | some d =>
    if nKind n = 5 ∧ be16 f (o + 4) = 0 then none
    else if d = b ∨ (d < b ∧ o + h ≤ d ∧ f.length ≤ 68) then some d else none

/-- Next-header byte that IPV6 and IPV6_EXT check. -/
def nextHeader (n : Nat) (f : List Byte) (o : Nat) : Option Nat :=
  if nKind n = 5 then some (byteAt f (o + 6)) else if nKind n = 6 then some (byteAt f o) else none

/-- Select value (R125). -/
def selectValue (n : Nat) (f : List Byte) (o : Nat) : Nat :=
  let v (i : Nat) : Nat := readField f (o + nSelOff n i) (nSelShift n i) (nSelWidth n i)
  v 0 * 2 ^ nSelWidth n 1 + v 1

/-- Steps 1 to 12 for each node in turn; `fuel` counts the visits left. -/
def State.walkFrom (s : State) (bank part : Nat) (f : List Byte) : Nat → Nat → Nat → Nat → Nat → List Byte → List Visit → Walk
  | 0, node, v, o, _, vec, vs => { end_ := .parseDepth, node := node, visit := v + 1, off := o, vec := vec, visits := vs }
  | fuel + 1, node, v, o, b, vec, vs =>
    let v := v + 1
    let stop (e : WalkEnd) : Walk := { end_ := e, node := node, visit := v, off := o, vec := vec, visits := vs }
    let n := s.graphAt bank 0 node
    let lb := lenByte n o
    if lb.any (256 ≤ ·) then stop .parseDepth
    else if lb.any (b ≤ ·) then stop .lenConflict
    else match hdrLen n f o with
    | none => stop .lenConflict
    | some h =>
      let ops := (List.range (bits n 102 3)).map fun i => s.graphAt bank 2 (s.ownIndex 2 part (bits n 90 12 + i))
      let top := visitTop n ops o h
      if 256 < top then stop .parseDepth
      else if b < top then stop .lenConflict
      else if (nKind n = 4 ∧ byteAt f o / 16 ≠ 4) ∨ (nKind n = 5 ∧ byteAt f o / 16 ≠ 6) then stop .unknownNext
      else if nKind n = 4 ∧ fold16 (onesSum (slice f o h) (h / 2)) ≠ 0xFFFF then stop .ipv4Csum
      else match newBound n f o h b with
      | none => stop .lenConflict
      | some b' =>
        let nh := nextHeader n f o
        if (nKind n = 4 ∧ be16 f (o + 6) % 0x4000 ≠ 0) ∨ nh = some 44 then stop .fragment
        else if (nKind n = 4 ∧ 20 < h) ∨ nh = some 0 then stop .ipOptions
        else
          let vec' := ops.foldl (fun w e => patch w (bits e 10 8) (slice f (o + bits e 0 6) (len16 (bits e 6 4)))) vec
          let vs' := vs ++ [{ layer := nLayer n, off := o, kind := nKind n }]
          let done (e : WalkEnd) (code ptype : Nat) : Walk :=
            { end_ := e, node := node, visit := v, off := o, code := code, ptype := ptype, vec := vec', visits := vs' }
          let sel := selectValue n f o
          let ts := (List.range (bits n 77 5)).map fun i => s.graphAt bank 1 (s.ownIndex 1 part (bits n 64 13 + i))
          match ts.find? fun t => sel &&& bits t 32 32 == bits t 0 32 &&& bits t 32 32 with
          | some t =>
            match bits t 74 2 with
            | 0 => s.walkFrom bank part f fuel (s.ownIndex 0 part (bits t 64 10)) v (o + h) b' vec' vs'
            | 1 => done .accept 0 (bits t 76 6)
            | 2 => done .graphPunt (bits t 82 8) 0
            | _ => done .graphDrop 0 0
          | none =>
            let miss := if (nKind n = 4 ∨ nKind n = 5 ∨ nKind n = 6) ∧ (bits n 82 2 = 0 ∨ bits n 82 2 = 2) then 1 else bits n 82 2
            if miss = 0 then done .accept 0 (bits n 84 6)
            else if miss = 1 then done .unknownNext 0 0 else done .graphDrop 0 0

def State.parsePort (s : State) (p : Nat) : Nat := s.reg (0x00800000 + 0x10 * p)

/-- The walk of a frame of a port (R118, R126). -/
def State.walk (s : State) (p : Nat) (f : List Byte) : Walk :=
  let part := s.portPart p
  s.walkFrom (s.activeBank part) part f 24 (s.ownIndex 0 part (bits (s.parsePort p) 0 10)) 0 0 (f.length - 4)
    (List.replicate 192 0) []

/-! ### Layers, hash and vector (R132, R133) -/

/-- The node of a layer: the latest recorded. -/
def Walk.layer (w : Walk) (l : Nat) : Option Visit := w.visits.reverse.find? fun v => v.layer == l

/-- The hash layer: its node, when of kind IPV4 or IPV6; and the L4 node that goes with it. -/
def Walk.hashLayer (w : Walk) (outer : Bool) : Option (Visit × Option Visit) :=
  let l := if !outer && (w.layer 7).isSome then 7 else 3
  match w.layer l with
  | some v =>
    if v.kind = 4 ∨ v.kind = 5 then some (v, (w.layer (l + 1)).filter fun u => u.kind == 7 || u.kind == 8) else none
  | none => none

/-- Nodes visited directly after the one at `off`: the IPV6_EXT nodes of its chain. -/
def Walk.chainLast (w : Walk) (v : Visit) : Visit :=
  let rest := (w.visits.dropWhile (· != v)).drop 1
  ((rest.takeWhile fun u => u.kind == 6).getLast?).getD v

/-- Vector byte 212: IP protocol of the hash layer. -/
def Walk.protoOf (w : Walk) (f : List Byte) (v : Visit) : Nat :=
  if v.kind = 4 then byteAt f (v.off + 9)
  else
    let l := w.chainLast v
    if l.kind = 6 then byteAt f l.off else byteAt f (v.off + 6)

/-- Type field of the last ETHERNET or VLAN node visited. -/
def Walk.lastType (w : Walk) (f : List Byte) : Nat :=
  match w.visits.reverse.find? fun v => v.kind == 1 || v.kind == 2 with
  | some v => be16 f (v.off + (if v.kind = 1 then 12 else 2))
  | none => 0

/-- The 40-byte hash input for two addresses and ports. -/
def hashInput (a1 a2 p1 p2 proto fam tail : Nat) : List Byte :=
  let first := decide (a1 < a2) || (a1 == a2 && decide (p1 ≤ p2))
  let lo := if first then (a1, p1) else (a2, p2)
  let hi := if first then (a2, p2) else (a1, p1)
  beBytes 16 lo.1 ++ beBytes 16 hi.1 ++ beBytes 2 lo.2 ++ beBytes 2 hi.2 ++ beBytes 1 proto ++ beBytes 1 fam ++ beBytes 2 tail

def State.hashOuter (s : State) (p : Nat) : Bool := bit (s.parsePort p) 12

/-- The flow hash (R133). -/
def State.flowHash (s : State) (p : Nat) (f : List Byte) (w : Walk) : Nat :=
  let input :=
    match w.hashLayer (s.hashOuter p) with
    | some (v, l4) =>
      let port (i : Nat) : Nat := match l4 with | some u => be16 f (u.off + 2 * i) | none => 0
      let addr (i : Nat) : Nat :=
        if v.kind = 4 then beNat (slice f (v.off + 12 + 4 * i) 4) else beNat (slice f (v.off + 8 + 16 * i) 16)
      hashInput (addr 0) (addr 1) (port 0) (port 1) (w.protoOf f v) (if v.kind = 4 then 4 else 6) 0
    | none =>
      match w.layer 1 with
      | some v =>
        if v.kind = 1 then
          hashInput (beNat (slice f (v.off + 6) 6)) (beNat (slice f v.off 6)) 0 0 0 0 (w.lastType f)
        else hashInput 0 0 0 0 0 0 0
      | none => hashInput 0 0 0 0 0 0 0
  crc32c (s.reg 0x00801000) input

/-- MAC class of R79 as vector byte 193: class in [7:6], entry in [3:0]. -/
def State.macClass (s : State) (p : Nat) (f : List Byte) : Nat :=
  let da := leNat (f.take 6)
  match (List.range 16).find? fun i => s.macEntry p i == da + 2 ^ 48 with
  | some i => i
  | none => if bit da 0 then 0x40 else 0x80

/-- Does a layer's node have the kind? -/
def Walk.layerIs (w : Walk) (l kind : Nat) : Bool := (w.layer l).any fun v => v.kind == kind

/-- Vector bytes 192 to 255 of an accepted walk (R132). -/
def State.deviceBytes (s : State) (p : Nat) (f : List Byte) (w : Walk) (hash : Nat) : List Byte :=
  let hl := w.hashLayer (s.hashOuter p)
  let kinds := b2n (s.portPart p == 1) + 2 * b2n (s.isSplit p) + 4 * b2n (w.layerIs 3 4) + 8 * b2n (w.layerIs 3 5)
    + 16 * b2n (w.layerIs 7 4) + 32 * b2n (w.layerIs 7 5)
  let offs := (List.range 8).map fun i => ((w.layer (i + 1)).map (·.off)).getD 0xFF
  let proto := match hl with | some (v, _) => w.protoOf f v | none => 0
  let flags := match hl with | some (_, some u) => if u.kind = 7 then byteAt f (u.off + 13) else 0 | _ => 0
  let ttl := match hl with | some (v, _) => byteAt f (v.off + (if v.kind = 4 then 8 else 7)) | none => 0
  ([p, s.macClass p f, w.ptype, kinds].map (BitVec.ofNat 8)) ++ beBytes 2 (bits (s.parsePort p) 16 12) ++ beBytes 2 f.length
    ++ beBytes 4 hash ++ offs.map (BitVec.ofNat 8) ++ [proto, flags, w.visit, ttl].map (BitVec.ofNat 8) ++ List.replicate 40 0

/-- A key of a profile: the key's number, its TCAM profile, width code and bytes (R135, R136). -/
structure Key where
  num : Nat
  tprof : Nat
  width : Nat
  bytes : List Byte
deriving DecidableEq, Repr

/-- The keys that the port's profile builds from the vector. -/
def State.buildKeys (s : State) (p ptype : Nat) (vec : List Byte) : List Key :=
  let part := s.portPart p
  let bank := s.activeBank part
  let prof := s.graphAt bank 3 (s.ownIndex 3 part (bits (s.parsePort p) 13 2 * 64 + ptype))
  (List.range 4).filterMap fun k =>
    let d := bits prof (32 * k) 32
    if !bit d 0 then none else
    let w := bits d 1 2
    let bytes := (List.range (bits d 20 5)).foldl (fun key i =>
      let c := s.graphAt bank 4 (s.ownIndex 4 part (bits d 8 12 + i))
      patch key (bits c 8 7) (slice vec (bits c 0 8) (len16 (bits c 16 4)))) (List.replicate (keyBytes w) 0)
    some { num := k, tprof := bits d 4 4, width := w, bytes := bytes }

/-! ### Commands -/

/-- Payload length of PARSE_GRAPH_WRITE: 8 bytes and NUM entries (R385). -/
def graphWriteLen (_ : State) (x : Nat) : Option Nat :=
  let n := bits x 32 16
  if bits x 4 4 ≤ 4 ∧ 1 ≤ n ∧ n ≤ 4096 then some (8 + n * graphBytes (bits x 4 4)) else none

def parseGraphWriteBody (s : State) (c : Cmd) (x : Nat) : Out :=
  let t := bits x 4 4
  let size := graphBytes t
  let first := bits x 16 16
  let n := bits x 32 16
  if bits x 1 3 ≠ 0 ∨ bits x 8 8 ≠ 0 ∨ bits x 48 16 ≠ 0 ∨ graphEntries t < first + n ∨ x / 2 ^ (8 * (8 + n * size)) ≠ 0 then
    .fail s stBadArg
  else if s.partOn ∧ (s.graphPart t first ≠ c.part ∨ s.graphPart t (first + n - 1) ≠ c.part) then .fail s stProtected
  else if bits x 0 1 = s.activeBank c.part then .fail s stBadArg
  else
    let g := (List.range n).foldl (fun g i => NMap.put g 0 (graphKey (bits x 0 1) t (first + i))
      (bits x (64 + 8 * size * i) (8 * size))) s.parse.graph
    .ok { s with parse := { s.parse with graph := g } }

def parseGraphWriteSpec : OpSpec := { code := 0x0300, entryLen := graphWriteLen, body := parseGraphWriteBody }

/-- R117. -/
def execParseGraphWrite (i : Issue) (s : State) : Host.Outcome State Fault Refusal := ans (s.runCommand parseGraphWriteSpec i)

def parseGraphActivateBody (s : State) (c : Cmd) (x : Nat) : Out :=
  let b := bits x 0 1
  if bits x 1 63 ≠ 0 ∨ !s.graphOk b c.part then .fail s stBadArg
  else .ok { s with parse := { s.parse with
    activeA := if s.partOn ∧ c.part = 1 then s.parse.activeA else b
    activeB := if s.partOn ∧ c.part = 0 then s.parse.activeB else b } }

def parseGraphActivateSpec : OpSpec :=
  { code := 0x0301, entryLen := fixedLen 8, critical := State.commitAuth, body := parseGraphActivateBody }

/-- R119, R121. -/
def execParseGraphActivate (i : Issue) (s : State) : Host.Outcome State Fault Refusal :=
  ans (s.runCommand parseGraphActivateSpec i)

end Sys2Proof.Machine
end

