-- ==== Sys2Proof/Machine/Lookup.lean ====
section
/-! DEFINITION. The lookup tables (06_lookup_and_epochs.md): versions and visibility (R140), TCAM, longest-prefix and exact-match
search (R152 to R170), next hops and ECMP (R171 to R173), poisoned versions (R150) and repair (R162, R163). Epochs are commit
indices: commit order decides (R140). -/

namespace Sys2Proof.Machine

/-! ### Entries and versions -/

/-- Key of an entry by table code (R384) and name. -/
def tblKey (table name : Nat) : Nat := table * 2 ^ 400 + name

def State.versions (s : State) (key : Nat) : List Ver := s.lookup.tabs.get [] key

def State.setVersions (s : State) (key : Nat) (vs : List Ver) : State :=
  { s with lookup := { s.lookup with tabs := s.lookup.tabs.put [] key vs } }

/-- Does a packet of commit index `ep` see the version (R140, R150)? -/
def Ver.seenAt (v : Ver) (ep : Nat) : Bool := decide (v.birth ≤ ep) && v.death.all (ep < ·) && !v.poisoned

/-- The version of an entry that an epoch sees. -/
def State.visible (s : State) (key ep : Nat) : Option Ver := (s.versions key).find? (·.seenAt ep)

/-- The record that an epoch sees; an entry without a version reads as zero. -/
def State.recordAt (s : State) (key ep : Nat) : Nat := ((s.visible key ep).map (·.data)).getD 0

/-- Index of an entry, or slot of a route or an exact-match version, which the spec does not number: a free value (log 111). -/
def State.entryIndex (s : State) (key : Nat) : Nat :=
  if key / 2 ^ 400 = 3 ∨ key / 2 ^ 400 = 4 then Config.openValue s.freeCtr % 2 ^ 32 else key % 2 ^ 32

/-- Unit in which a table's version lies: prefixes, exact-match entries outside the stash, and next hops with their backing lie in H0
and H1, in a pseudo-channel that the spec does not give (a free value, log 117); the other tables are on the die. -/
def State.tableUnit (s : State) (key : Nat) : Option Nat :=
  let t := key / 2 ^ 400
  let free := Config.openValue s.freeCtr
  if t = 4 then
    match s.lookup.emPlace.find? fun e => e.1 == key with
    | some (_, _, place) => if place < 2 then some (32 + 32 * place + free % 32) else none
    | none => none
  else if t = 3 ∨ t = 5 ∨ t = 6 ∨ t = 7 then some (32 + free % 64)
  else none

/-- Invalidate for every epoch the version that `ep` sees, count and report it (R150, R176). -/
def State.poisonVisible (s : State) (key ep part : Nat) : State :=
  match s.visible key ep with
  | none => s
  | some v =>
    let s := s.setVersions key ((s.versions key).map fun u => if u.birth = v.birth then { u with poisoned := true } else u)
    (s.drawn.bump ⟨5, 1, 2⟩ part).raise part evTablePoisoned (key / 2 ^ 400)
      (s.entryIndex key + s.epochNum part v.birth * 2 ^ 32)

/-- A packet of epoch `ep` reads the entry's version: `bad` that it reads uncorrectable, as it does when a scrub has marked it; `corr`
that it reads corrected (R150, R305). The answer says that the version is lost. -/
def State.readVer (s : State) (key ep part : Nat) (bad corr : Bool) : State × Bool :=
  if (s.visible key ep).isNone then (s, false)
  else
    let lost := bad || s.recPoisoned structTable key
    let s := match s.tableUnit key with
      | none => s
      | some u => s.drawn.readOne part u structTable (s.entryIndex key) (if lost then 2 else b2n corr)
    if lost then ((s.recRewritten structTable key).poisonVisible key ep part, true) else (s, false)

/-! ### TCAM (R152 to R163) -/

/-- Rows of an entry by width code. -/
def widthRows (w : Nat) : Nat := 2 ^ w

def State.bankWidth (s : State) (b : Nat) : Nat := s.lookup.bankWidth.get 0 b

/-- Entries that a bank holds at its width. -/
def State.bankSlots (s : State) (b : Nat) : Nat := 16384 / widthRows (s.bankWidth b)

def tcamKey (bank id : Nat) : Nat := tblKey 1 (bank * 16384 + id)

/-- PRIORITY, DATA, VALUE and MASK of a TCAM record (R153). -/
def recPriority (r : Nat) : Nat := bits r 32 16
def recData (r : Nat) : Nat := bits r 64 64
def recValue (r w : Nat) : Nat := bits r 128 (8 * keyBytes w)
def recMask (r w : Nat) : Nat := bits r (128 + 8 * keyBytes w) (8 * keyBytes w)

/-! ### Prefilter maps (R158) -/

/-- Bit v: a byte that equals v matches VALUE byte `v0` under MASK byte `m`. -/
def byteMap (v0 m : Nat) : Nat :=
  (List.range 8).foldl (fun a b =>
    let zero := (2 ^ 256 - 1) / (2 ^ 2 ^ b + 1)
    if bit m b then a &&& (if bit v0 b then zero * 2 ^ 2 ^ b else zero) else a) (2 ^ 256 - 1)

/-- Block of the rows of a slot. -/
def State.rowBlock (s : State) (bank slot : Nat) : Nat := slot * widthRows (s.bankWidth bank) / 512

def mapKey (bank block byte : Nat) : Nat := (bank * 32 + block) * 128 + byte

/-- The map of a block for a key byte. -/
def State.blockMap (s : State) (bank block byte : Nat) : Nat := s.lookup.blockMaps.get 0 (mapKey bank block byte)

/-- A version is written or moved into a slot: its block's map bits are set, for each key byte that a profile may name. -/
def State.mapRow (s : State) (bank slot rec_ : Nat) : State :=
  let w := s.bankWidth bank
  let maps := (List.range (keyBytes w)).foldl (fun m j =>
    NMap.upd m 0 (mapKey bank (s.rowBlock bank slot) j)
      (· ||| byteMap (bits (recValue rec_ w) (8 * j) 8) (bits (recMask rec_ w) (8 * j) 8))) s.lookup.blockMaps
  { s with lookup := { s.lookup with blockMaps := maps } }

/-- The record of the version that a row holds. -/
def State.rowRecord (s : State) (r : Nat × Nat × Nat) : Nat :=
  (((s.versions r.2.1).find? fun v => v.birth == r.2.2).map (·.data)).getD 0

/-- The maps of a bank are recomputed from its rows. -/
def State.remapBank (s : State) (bank : Nat) : State :=
  let maps := s.lookup.blockMaps.filter fun (k, _) => k / (32 * 128) != bank
  (s.lookup.bankRows.get [] bank).foldl (fun s r => s.mapRow bank r.1 (s.rowRecord r))
    { s with lookup := { s.lookup with blockMaps := maps } }

/-- Does a search with the profile power the slot's block? A PF_BYTE beyond the key filters nothing (log 112). -/
def State.powered (s : State) (profile bank slot key : Nat) : Bool :=
  let j := bits profile 15 7
  !bit profile 14 || decide (keyBytes (s.bankWidth bank) ≤ j) || bit (s.blockMap bank (s.rowBlock bank slot) j) (bits key (8 * j) 8)

/-- A matching visible entry: priority, row address, associated data, entry key. -/
structure Hit where
  prio : Nat
  addr : Nat
  data : Nat
  key : Nat
deriving DecidableEq, Repr

/-- The visible entries of a bank that match the key, in the blocks that the profile's search powers (R154, R158). -/
def State.bankHits (s : State) (profile b w key ep : Nat) : List Hit :=
  (s.lookup.bankRows.get [] b).filterMap fun (slot, k, birth) =>
    match (s.versions k).find? fun v => v.birth == birth && v.seenAt ep with
    | none => none
    | some v =>
      if !s.powered profile b slot key then none else
      let m := recMask v.data w
      if key &&& m = recValue v.data w &&& m then
        some { prio := recPriority v.data, addr := b * 16384 + slot * widthRows w, data := recData v.data, key := k }
      else none

/-- Does `h` win over `g` (R159)? -/
def Hit.beats (h g : Hit) : Bool := decide (g.prio < h.prio) || (h.prio == g.prio && decide (h.addr < g.addr))

def bestHit : List Hit → Option Hit
  | [] => none
  | h :: t => match bestHit t with
    | none => some h
    | some g => if h.beats g then some h else some g

/-- The result of one key (R139). -/
structure Res where
  hit : Bool := false
  tie : Bool := false
  poison : Bool := false
  data : Nat := 0
deriving DecidableEq, Repr

/-- The record of search profile t that the epoch sees (R155). -/
def State.profile (s : State) (t ep : Nat) : Nat := s.recordAt (tblKey 2 t) ep

/-- Profile index with bit 3 replaced under PARTITION. -/
def State.profileIx (s : State) (part t : Nat) : Nat := if s.partOn then t % 8 + 8 * part else t

/-- Hits of a key in the banks of a mask. -/
def State.tcamHits (s : State) (profile banks w key ep : Nat) : List Hit :=
  (List.range 12).flatMap fun b => if bit banks b && s.bankWidth b == w then s.bankHits profile b w key ep else []

/-- Search of one TCAM key: `skip` are banks that another key of the packet takes; `bad` that the winner's version reads
uncorrectable, `lost` that the profile's did (R150, R156, R159). Profiles and shadows are on the die. -/
def State.searchTcam (s : State) (part ep : Nat) (k : Key) (skip : Nat) (bad lost : Bool) : State × Res :=
  let t := s.profileIx part k.tprof
  let pr := s.profile t ep
  if bits pr 12 2 != k.width then (s.bump ⟨5, 0, 1⟩ t, { poison := lost })
  else
    let banks := bits pr 0 12 - (bits pr 0 12 &&& skip)
    let key := leNat k.bytes
    let best := bestHit (s.tcamHits pr banks k.width key ep)
    let r := match best with | some h => s.readVer h.key ep part bad false | none => (s, false)
    let s := r.1
    let poison := lost || r.2
    let hits := s.tcamHits pr banks k.width key ep
    match bestHit hits with
    | none => (s, { poison := poison })
    | some h =>
      let tie := hits.any fun g => g.prio == h.prio && g.addr != h.addr
      (if tie then s.bump ⟨5, 0, 0⟩ t else s, { hit := true, tie := tie, poison := poison, data := h.data })

/-- A winning or scrubbed row contradicts its shadow: rewritten, counted, reported (R162, R163). -/
def State.tcamRepair (s : State) (part bank row : Nat) : State :=
  (s.bump ⟨5, 1, 1⟩ part).raise part evTcamRepair bank row

/-- Partition of a TCAM bank. -/
def State.bankPart (s : State) (b : Nat) : Nat := s.halfPart 6 b

/-- R163: scrubbing compares a row with its shadow. -/
def execTcamScrub (dt : Nat) (bank : Fin 12) (row : Fin 16384) (corrupt : Bool) (s : State) :
    Host.Outcome State Fault Refusal :=
  let s := s.pass dt
  if bit (s.reg 0x00A00010) 8 && corrupt then ans (s.tcamRepair (s.bankPart bank) bank row) else ans s

/-! ### Longest-prefix match (R164 to R166) -/

/-- Name of a route: partition, VRF, FAMILY, LEN and the address as a left-aligned 128-bit number. -/
def routeName (part vrf fam len addr : Nat) : Nat := addr + len * 2 ^ 128 + fam * 2 ^ 136 + vrf * 2 ^ 140 + part * 2 ^ 152

/-- Keys of the routes that match a key: the longest first is chosen by `longest`. -/
def routeMatches (name part vrf fam addr : Nat) : Bool :=
  let len := bits name 128 8
  bits name 136 4 == fam && bits name 140 12 == vrf && name / 2 ^ 152 == part
    && bits name 0 128 / 2 ^ (128 - len) == addr / 2 ^ (128 - len)

/-- The visible route of greatest LEN among the listed entries. -/
def longest (ep part vrf fam addr : Nat) : NMap (List Ver) → Option (Nat × Ver)
  | [] => none
  | (k, vs) :: t =>
    let rest := longest ep part vrf fam addr t
    if k / 2 ^ 400 = 3 ∧ routeMatches (k % 2 ^ 400) part vrf fam addr then
      match vs.find? (·.seenAt ep), rest with
      | some v, some (k', v') => if bits k' 128 8 < bits k 128 8 then some (k, v) else some (k', v')
      | some v, none => some (k, v)
      | none, r => r
    else rest

/-- KEY0 as family, VRF and left-aligned address; none for another FAMILY (R164). -/
def lpmKey (bs : List Byte) : Option (Nat × Nat × Nat) :=
  let w := be16 bs 0
  if w / 4096 = 4 then some (4, w % 4096, beNat (slice bs 2 4) * 2 ^ 96)
  else if w / 4096 = 6 then some (6, w % 4096, beNat (slice bs 2 16)) else none

/-- DATA of a route (R139). -/
def routeData (r : Nat) : Nat := bits r 24 8 + bits r 32 24 * 2 ^ 32 + 2 ^ 56

/-- Search of KEY0. -/
def State.searchLpm (s : State) (part ep : Nat) (k : Key) (bad corr : Bool) : State × Res :=
  match lpmKey k.bytes with
  | none => (s, {})
  | some (fam, vrf, addr) =>
    let first := longest ep part vrf fam addr s.lookup.tabs
    let r := match first with | some h => s.readVer h.1 ep part bad corr | none => (s, false)
    match longest ep part vrf fam addr r.1.lookup.tabs with
    | none => (r.1, { poison := r.2 })
    | some (_, v) => (r.1, { hit := true, poison := r.2, data := routeData v.data })

/-! ### Exact match (R168 to R170) -/

/-- Name of an exact-match entry: key, KWIDTH, partition. -/
def emName (part kw key : Nat) : Nat := key + kw * 2 ^ 320 + part * 2 ^ 322

/-- Search of KEY1. -/
def State.searchEm (s : State) (part ep : Nat) (k : Key) (bad corr : Bool) : State × Res :=
  let key := tblKey 4 (emName part k.width (leNat k.bytes))
  match s.visible key ep with
  | none => (s, {})
  | some v =>
    let r := s.readVer key ep part bad corr
    (r.1, if r.2 then { poison := true } else { hit := true, data := recData v.data })

/-- Candidate bucket of a key: 0 A, 1 B (R169). -/
def emBucket (key kw which : Nat) : Nat :=
  crc32c (if which = 0 then 0xFFFFFFFF else 0x5A5A5A5A) (leBytes (keyBytes kw) key) % 20971520 + which * 20971520

/-- Slots that an entry takes in a bucket. -/
def emSlots (kw : Nat) : Nat := if kw = 2 then 2 else 1

/-! ### Results of all keys (R139, R156, R162) -/

/-- The four results of a packet: KEY0 to KEY3. -/
structure Results where
  k0 : Res := {}
  k1 : Res := {}
  k2 : Res := {}
  k3 : Res := {}
deriving DecidableEq, Repr

/-- The profile of a TCAM key reads uncorrectable: its version is invalidated; none without a version. -/
def State.loseProfile (s : State) (part ep : Nat) (k : Option Key) (bad : Bool) : State × Bool :=
  match k with
  | none => (s, false)
  | some k =>
    s.readVer (tblKey 2 (s.profileIx part k.tprof)) ep part bad false

/-- The searches of one packet of a partition's epoch. -/
def State.search (s : State) (part ep : Nat) (keys : List Key) (err : RxErr) : State × Results :=
  let key (n : Nat) : Option Key := keys.find? fun k => k.num == n
  let s := match err.tcamBad with | some (b, r) => s.tcamRepair part b r | none => s
  let p2 := s.loseProfile part ep (key 2) (bit err.poison 2)
  let p3 := p2.1.loseProfile part ep (key 3) (bit err.poison 10)
  let s := p3.1
  let banksOf (k : Option Key) : Nat := match k with | some k => bits (s.profile (s.profileIx part k.tprof) ep) 0 12 | none => 0
  let b2 := banksOf (key 2)
  let s' := if b2 &&& banksOf (key 3) != 0 then s.bump ⟨5, 1, 0⟩ part else s
  let run (n : Nat) (f : State → Key → State × Res) (s : State) : State × Res :=
    match key n with | none => (s, {}) | some k => f s k
  let r0 := run 0 (fun s k => s.searchLpm part ep k (bit err.poison 3) (bit err.corr 3)) s'
  let r1 := run 1 (fun s k => s.searchEm part ep k (bit err.poison 4) (bit err.corr 4)) r0.1
  let r2 := run 2 (fun s k => s.searchTcam part ep k 0 (bit err.poison 1) p2.2) r1.1
  let r3 := run 3 (fun s k => s.searchTcam part ep k b2 (bit err.poison 9) p3.2) r2.1
  (r3.1, { k0 := r0.2, k1 := r1.2, k2 := r2.2, k3 := r3.2 })

/-! ### Next hops (R171 to R173) -/

/-- Half of an indexed table's indices (R48, R138). -/
def tableSize (t : Nat) : Nat := [0, 196608, 16, 0, 0, 4194304, 65536, 2097152, 16777216].getD t 0

/-- Is an index of a table outside the partition's half? -/
def State.otherHalf (s : State) (table part ix : Nat) : Bool := s.partOn && s.halfPart (tableSize table / 2) ix != part

/-- NH_REF has a reserved bit set (R172). -/
def nhRefBad (r : Nat) : Bool := if bit r 23 then bits r 16 7 != 0 else bit r 22

/-- NH_REF names an entry of the other partition's half. -/
def State.nhRefForeign (s : State) (part r : Nat) : Bool :=
  if bit r 23 then s.otherHalf 6 part (bits r 0 16) else s.otherHalf 5 part (bits r 0 22)

/-- Read an indexed entry at an epoch; an uncorrectable read invalidates its version first. -/
def State.readIndexed (s : State) (table ix ep part : Nat) (err : RxErr) : State × Nat :=
  let key := tblKey table ix
  let s := (s.readVer key ep part (bit err.poison table) (bit err.corr table)).1
  (s, s.recordAt key ep)

/-- The next-hop record of a reference; none counts in NH_INVALID (R173). -/
def State.resolve (s : State) (part ep ref hash : Nat) (err : RxErr) : State × Option Nat :=
  let bad (s : State) : State × Option Nat := (s.bump ⟨5, 1, 3⟩ part, none)
  let hop (s : State) (ix : Nat) : State × Option Nat :=
    let r := s.readIndexed 5 ix ep part err
    if s.otherHalf 5 part ix || !bit r.2 0 then bad r.1 else (r.1, some r.2)
  if bit ref 23 then
    let g := s.readIndexed 6 (bits ref 0 16) ep part err
    let count := bits g.2 0 9
    let m := bits hash 16 16 * count / 65536
    let ix := bits g.2 10 21 + m
    if s.otherHalf 6 part (bits ref 0 16) || count == 0 || decide (256 < count) || decide (2097151 < ix)
        || s.otherHalf 7 part ix then bad g.1
    else
      let r := g.1.readIndexed 7 ix ep part err
      if (r.1.visible (tblKey 7 ix) ep).isNone then bad r.1 else hop r.1 (bits r.2 0 22)
  else hop s (bits ref 0 22)

end Sys2Proof.Machine
end

