-- ==== Sys2Proof/Machine/Epoch.lean ====
section
/-! DEFINITION. Writing the lookup tables: staging (R142), commits and discard (R143, R149), references and the live range
(R144, R145), reclamation (R148), TCAM placement and moves (R160, R161), exact-match placement (R170), and the table commands
(R174, R384). -/

namespace Sys2Proof.Machine

/-! ### Epochs -/

/-- Commits of a partition in execution: function, ring, claim, order (R143). -/
def State.commits (s : State) (p : Nat) : List (Nat × Nat × Option Nat × Nat) :=
  s.waiting.filterMap fun (fn, r, run) =>
    match run.wait with
    | .commit claim order _ _ => if s.partOf fn = p then some (fn, r, claim, order) else none
    | _ => none

/-- Table writes of a partition that still move rows: the epoch in which each will stage and its order (R143, R161). -/
def State.writing (s : State) (p : Nat) : List (Nat × Nat) :=
  s.waiting.filterMap fun (fn, _, run) =>
    match run.wait with
    | .tcamMove _ e o => if s.partOf fn = p then some (e, o) else none
    | _ => none

/-- EPOCH_DISCARD waits. -/
def Wait.isDiscard : Wait → Bool
  | .discard _ => true
  | _ => false

/-- The pending epoch of a partition (R141). -/
def State.pendingEp (s : State) (p : Nat) : Nat :=
  (s.commits p).foldl (fun m c => max m (c.2.2.1.getD 0)) (s.epochs p).cur + 1

/-- Oldest live epoch O: the oldest with a reference, or the current one (R144). -/
def Epochs.oldest (e : Epochs) : Nat :=
  match e.refs with
  | [] => e.cur
  | (k, _) :: _ => min k e.cur

/-- Live count if `c` were current (R144). The number before the last PARTITION transition is an alias of the epoch that the transition
made current (R151). -/
def Epochs.live (e : Epochs) (c : Nat) : Nat := c - max e.origin e.oldest + 1

def State.liveLimit (s : State) : Nat := if s.partOn then 1024 else 2048

/-- Take a reference to an epoch (R145). -/
def State.takeRef (s : State) (p ep : Nat) : State :=
  s.updEpochs p fun e => { e with refs := e.refs.upd 0 ep (· + 1) }

/-- The current version of an entry, and its newest staged version. -/
def currentVer (vs : List Ver) (cur : Nat) : Option Ver := vs.find? (·.seenAt cur)
def stagedVer (vs : List Ver) (cur : Nat) : Option Ver := vs.reverse.find? fun v => decide (cur < v.birth)

/-- Stage a version in epoch `p` (R142). -/
def stageWrite (vs : List Ver) (p data : Nat) : List Ver :=
  match vs.getLast? with
  | none => [{ birth := p, data := data }]
  | some v =>
    if v.birth = p then vs.dropLast ++ [{ birth := p, data := data }]
    else vs.dropLast ++ [if v.death.isNone then { v with death := some p } else v, { birth := p, data := data }]

/-- Stage a death in epoch `p`; none when the entry has neither a current nor a staged version (R142). -/
def stageDelete (vs : List Ver) (cur p : Nat) : Option (List Ver) :=
  match vs.getLast? with
  | none => none
  | some v =>
    if v.birth = p then some vs.dropLast
    else match v.death with
      | none => some (vs.dropLast ++ [{ v with death := some p }])
      | some d => if cur < d then some vs else none

/-- Undo the changes of an epoch in an entry's versions. -/
def unstage (vs : List Ver) (ep : Nat) : List Ver :=
  (vs.filter fun v => v.birth != ep).map fun v => if v.death = some ep then { v with death := none } else v

/-- The entry has a change in epoch `p`. -/
def changedAt (vs : List Ver) (p : Nat) : Bool := vs.any fun v => v.birth == p || v.death == some p

/-! ### Ownership of entries -/

/-- Partition of an entry of a table by its name (R48, R155, R164, R168). -/
def State.namePart (s : State) (table name : Nat) : Nat :=
  if !s.partOn then 0 else
  match table with
  | 1 => if 6 ≤ name / 16384 then 1 else 0
  | 2 => if 8 ≤ name then 1 else 0
  | 3 => name / 2 ^ 152
  | 4 => name / 2 ^ 322
  | _ => s.halfPart (tableSize table / 2) name

/-- Entries of a partition. -/
def State.entriesOf (s : State) (p : Nat) : NMap (List Ver) :=
  s.lookup.tabs.filter fun (k, _) => s.namePart (k / 2 ^ 400) (k % 2 ^ 400) == p

/-- Number of changes of a partition in an epoch. -/
def State.changes (s : State) (p ep : Nat) : Nat := ((s.entriesOf p).filter fun (_, vs) => changedAt vs ep).length

/-! ### Rows and slots that versions hold -/

/-- Free the TCAM rows or exact-match slots of a version. -/
def State.releaseVer (s : State) (key birth : Nat) : State :=
  let table := key / 2 ^ 400
  let name := key % 2 ^ 400
  let lk := s.lookup
  if table = 1 then
    let rows := lk.bankRows.upd [] (name / 16384) (List.filter fun r => !(r.2.1 == key && r.2.2 == birth))
    State.remapBank { s with lookup := { lk with bankRows := rows } } (name / 16384)
  else if table = 4 then
    let kw := bits name 320 2
    match lk.emPlace.find? fun e => e.1 == key && e.2.1 == birth with
    | none => s
    | some (_, _, place) =>
      let pl := lk.emPlace.filter fun e => !(e.1 == key && e.2.1 == birth)
      if place = 2 then { s with lookup := { lk with emPlace := pl, stash := lk.stash - 1 } }
      else if place = 3 then { s with lookup := { lk with emPlace := pl } }
      else
        let b := emBucket (bits name 0 320) kw place
        { s with lookup := { lk with emPlace := pl, buckets := lk.buckets.upd 0 b (· - emSlots kw) } }
  else s

/-- Replace the versions of an entry, freeing what the versions no longer listed held. -/
def State.replaceVersions (s : State) (key : Nat) (vs : List Ver) : State :=
  let gone := (s.versions key).filter fun v => vs.all fun u => u.birth != v.birth
  (gone.foldl (fun s v => s.releaseVer key v.birth) s).setVersions key vs

/-! ### TCAM placement (R160, R161) -/

/-- Where a version goes in its bank: a free slot, or one move to make first, or no room. -/
inductive Placement where
  | slot (i : Nat)
  | move (src dst : Nat)
  | full
deriving DecidableEq, Repr

/-- First slot above `i` that is not occupied, with slots rising in the list. -/
def freeAbove (occ : List Nat) (n i : Nat) : Option Nat := ((List.range n).drop (i + 1)).find? fun j => !occ.contains j

/-- Last slot at or below `i` that is not occupied. -/
def freeBelow (occ : List Nat) (i : Nat) : Option Nat := (List.range (i + 1)).reverse.find? fun j => !occ.contains j

/-- Slot of the row directly after which a version of priority `prio` born in `ep` goes: its predecessor's, when the priority is
unchanged, else that of the last row of equal or larger priority; none at the start. The version that it replaces is no
predecessor (R142). -/
def State.placeAfter (s : State) (bank key prio ep : Nat) : Option Nat :=
  let rows := (s.lookup.bankRows.get [] bank).filter fun r => !(r.2.1 == key && r.2.2 == ep)
  let pred := ((s.versions key).filter fun v => rows.any fun r => r.2.1 == key && r.2.2 == v.birth).getLast?
  let row : Option (Nat × Nat × Nat) :=
    match pred.filter fun v => recPriority v.data == prio with
    | some v => rows.find? fun r => r.2.1 == key && r.2.2 == v.birth
    | none => (rows.filter fun r => prio ≤ recPriority (s.rowRecord r)).getLast?
  row.map (·.1)

/-- Placement after slot `i` (none: before every row). -/
def placement (occ : List Nat) (n : Nat) (after : Option Nat) : Placement :=
  let start := match after with | some i => i + 1 | none => 0
  let up := if start < n then (if occ.contains start then freeAbove occ n start else some start) else none
  let down := match after with | some i => freeBelow occ i | none => none
  let dUp := up.map (· - start)
  let dDown := match after, down with | some i, some f => some (i - f + 1) | _, _ => none
  match up, down with
  | some f, none => if f = start then .slot start else .move (f - 1) f
  | none, some f => match after with
    | some i => if f = i then .slot i else .move (f + 1) f
    | none => .full
  | some f, some g =>
    if f = start then .slot start
    else if decide (dUp.getD 0 ≤ dDown.getD 0) then .move (f - 1) f
    else .move (g + 1) g
  | none, none => .full

/-- Move one row to a free slot next to it. -/
def moveRow (rows : List (Nat × Nat × Nat)) (src dst : Nat) : List (Nat × Nat × Nat) :=
  rows.map fun r => if r.1 = src then (dst, r.2) else r

/-- Insert a row in slot order. -/
def insertRow (r : Nat × Nat × Nat) : List (Nat × Nat × Nat) → List (Nat × Nat × Nat)
  | [] => [r]
  | q :: t => if r.1 < q.1 then r :: q :: t else q :: insertRow r t

/-- Slots of a bank that rows occupy. -/
def State.occupied (s : State) (bank : Nat) : List Nat := (s.lookup.bankRows.get [] bank).map (·.1)

def State.updBank (s : State) (bank : Nat) (f : List (Nat × Nat × Nat) → List (Nat × Nat × Nat)) : State :=
  { s with lookup := { s.lookup with bankRows := s.lookup.bankRows.upd [] bank f } }

/-- Placement of a new version of a TCAM entry: into the row of the version that it replaces, where that row lies at the placement
point, else to a free slot or after moves. -/
def State.tcamPlacement (s : State) (bank key prio ep : Nat) : Placement :=
  let after := s.placeAfter bank key prio ep
  let rest := ((s.lookup.bankRows.get [] bank).filter fun r => !(r.2.1 == key && r.2.2 == ep)).map (·.1)
  match placement rest (s.bankSlots bank) after with
  | .slot i => .slot i
  | _ => placement (s.occupied bank) (s.bankSlots bank) after

/-- One row moves to a free slot next to it (R161). -/
def State.shiftRow (s : State) (bank src dst : Nat) : State :=
  match (s.lookup.bankRows.get [] bank).find? (·.1 == src) with
  | some r => (s.updBank bank fun l => moveRow l src dst).mapRow bank dst (s.rowRecord r)
  | none => s

/-- A version is written into a free slot. -/
def State.putRow (s : State) (bank slot key ep rec_ : Nat) : State :=
  (s.updBank bank (insertRow (slot, key, ep))).mapRow bank slot rec_

/-- All moves of a replacement in a full bank, at most `fuel`: the row of the version replaced is the room, and it stays until the
version that replaces it is written. -/
def State.settleRow (s : State) (bank key ep rec_ : Nat) : Nat → State
  | 0 => s
  | fuel + 1 =>
    match s.tcamPlacement bank key (recPriority rec_) ep with
    | .slot i => s.putRow bank i key ep rec_
    | .move src dst => (s.shiftRow bank src dst).settleRow bank key ep rec_ fuel
    | .full => s

/-! ### Exact-match placement (R170) -/

/-- The exact-match versions that lie in a bucket. -/
def State.bucketVers (s : State) (b : Nat) : List (Nat × Nat × Nat) :=
  s.lookup.emPlace.filter fun (k, _, pl) => decide (pl < 2) && emBucket (bits k 0 320) (bits k 320 2) pl == b

/-- A displaced version lies in its other candidate bucket. -/
def State.displace (s : State) (v : Nat × Nat × Nat) : State :=
  let kv := bits v.1 0 320
  let kw := bits v.1 320 2
  let lk := s.lookup
  let buckets := (lk.buckets.upd 0 (emBucket kv kw v.2.2) (· - emSlots kw)).upd 0 (emBucket kv kw (1 - v.2.2)) (· + emSlots kw)
  { s with lookup := { lk with buckets := buckets, emPlace := lk.emPlace.map fun e => if e = v then (e.1, e.2.1, 1 - e.2.2) else e } }

/-- Room for `need` slots in a bucket, by displacements at most `fuel` deep; none when no version of it can go. The list holds the
buckets tried. -/
def State.emFree (s : State) (seen : List Nat) (b need : Nat) : Nat → Option State × List Nat
  | 0 => (if s.lookup.buckets.get 0 b + need ≤ 2 then some s else none, seen)
  | fuel + 1 =>
    if s.lookup.buckets.get 0 b + need ≤ 2 then (some s, seen)
    else if seen.contains b then (none, seen)
    else
      let r := (s.bucketVers b).foldl (fun (t, seen) v =>
        if t.lookup.buckets.get 0 b + need ≤ 2 then (t, seen)
        else
          let kw := bits v.1 320 2
          match t.emFree seen (emBucket (bits v.1 0 320) kw (1 - v.2.2)) (emSlots kw) fuel with
          | (some u, seen) => (u.displace v, seen)
          | (none, seen) => (t, seen)) (s, b :: seen)
      (if r.1.lookup.buckets.get 0 b + need ≤ 2 then some r.1 else none, r.2)

/-- Slots in use by the partition's exact-match versions. -/
def State.emUsed (s : State) (p : Nat) : Nat :=
  (((s.entriesOf p).filter fun (k, _) => k / 2 ^ 400 == 4).map fun (k, vs) => vs.length * emSlots (bits k 320 2)).foldl
    (· + ·) 0

/-- Place a version: a free slot of bucket A, then B, then displacement of up to 64 entries, then the stash. -/
def State.placeEm (s : State) (part key kw kv birth : Nat) : State :=
  let need := emSlots kw
  let a := emBucket kv kw 0
  let b := emBucket kv kw 1
  let put (s : State) (place : Nat) : State :=
    { s with lookup := { s.lookup with emPlace := s.lookup.emPlace ++ [(key, birth, place)] } }
  let use (s : State) (bk : Nat) : State :=
    { s with lookup := { s.lookup with buckets := s.lookup.buckets.upd 0 bk (· + need) } }
  if s.lookup.buckets.get 0 a + need ≤ 2 then put (use s a) 0
  else if s.lookup.buckets.get 0 b + need ≤ 2 then put (use s b) 1
  else
    let ra := s.emFree [] a need 64
    match ra.1, (s.emFree ra.2 b need 64).1 with
    | some t, _ => put (use t a) 0
    | none, some t => put (use t b) 1
    | none, none =>
      if 4096 ≤ s.lookup.stash then put s 3
      else
        let s := put { s with lookup := { s.lookup with stash := s.lookup.stash + 1 } } 2
        if s.lookup.stash = 3073 then s.raise part evEmStashHigh 3073 else s

/-! ### Checks of a record -/

/-- Action word of an exact-match or TCAM entry (R178, R172). -/
def actionOk (w : Nat) : Bool :=
  let disp := bits w 25 3
  decide (disp ≤ 4) && [0, 3, 5, 6, 7].contains (bits w 32 4) && !bit w 36
    && (if disp = 2 ∨ disp = 3 then !bit w 24 && bits w 8 16 == 0 else !(bit w 24 && nhRefBad (bits w 0 24)))

/-- The action word names something of the other partition (R173, R178). POLICER and MIRROR_SESSION are judged whether or not they
are enabled. -/
def State.actionForeign (s : State) (part w : Nat) : Bool :=
  s.partOn &&
    (s.halfPart 0x100000 (bits w 38 21) != part || s.halfPart 8 (bits w 60 4) != part
      || (bit w 24 && s.nhRefForeign part (bits w 0 24)))

/-- Template byte of a rewrite record (R182). -/
def tmplByte (r i : Nat) : Nat := bits r (192 + 8 * i) 8

/-- Length of the header at L3_OFF in the template; none for a version other than 4 or 6 or a short IHL (R183). -/
def tmplL3Len (r off : Nat) : Option Nat :=
  let b := tmplByte r off
  if b / 16 = 4 then (if b % 16 < 5 then none else some (b % 16 * 4)) else if b / 16 = 6 then some 40 else none

/-- R183, but for what other indices hold. -/
def rewriteOk (r ix : Nat) : Bool :=
  let len := bits r 16 7
  let wide := bit r 1
  bits r 2 2 != 3 && decide (bits r 6 2 < 2) && bits r 8 2 != 3 && bits r 10 6 == 0 && bits r 23 9 == 0 && bits r 177 15 == 0
    && !(wide && ix % 2 == 1) && decide (len ≤ if wide then 104 else 40)
    && (bits r 160 8 == 255 ||
      (decide (bits r 160 8 < len) && (tmplL3Len r (bits r 160 8)).any fun h => decide (bits r 160 8 + h ≤ len)))
    && (bits r 168 8 == 255 || decide (bits r 168 8 + 8 ≤ len))

/-- A current or staged version of an entry satisfies `f`. -/
def State.holdsVer (s : State) (key cur : Nat) (f : Ver → Bool) : Bool :=
  (s.versions key).any fun v => v.death.all (cur < ·) && f v

/-- Bytes of a record of a table (R384). -/
def recordLen (s : State) (x : Nat) : Option Nat :=
  let r := x / 2 ^ 128
  match bits x 0 8 with
  | 1 => [40, 56, 96, 176][s.bankWidth (bits r 0 4)]?
  | 2 => some 8
  | 3 => some 24
  | 4 => [32, 40, 56][bits r 0 2]?
  | 5 => some 16
  | 6 => some 8
  | 7 => some 8
  | 8 => some (if bit r 1 then 128 else 64)
  | _ => none

def tableLen (s : State) (x : Nat) : Option Nat := (recordLen s x).map (16 + ·)

/-- Name of the entry that a payload names, and its partition; none when the naming fields are malformed. -/
def State.tableName (s : State) (part x : Nat) : Option (Nat × Nat) :=
  let r := x / 2 ^ 128
  let ix := bits x 32 32
  match bits x 0 8 with
  | 1 =>
    let bank := bits r 0 4
    if bank < 12 ∧ bits r 16 14 < s.bankSlots bank then some (bank * 16384 + bits r 16 14, s.bankPart bank) else none
  | 3 =>
    let fam := bits r 12 4
    let len := bits r 16 8
    let addr := if fam = 4 then beNat (leBytes 4 (bits r 64 32)) * 2 ^ 96 else beNat (leBytes 16 (bits r 64 128))
    if (fam = 4 ∧ len ≤ 32 ∧ bits r 96 96 = 0) ∨ (fam = 6 ∧ len ≤ 128) then
      if addr % 2 ^ (128 - len) = 0 then some (routeName part (bits r 0 12) fam len addr, part) else none
    else none
  | 4 =>
    let kw := bits r 0 2
    if kw = 3 then none else some (emName part kw (bits r 128 (8 * keyBytes kw)), part)
  | t =>
    if 2 ≤ t ∧ t ≤ 8 ∧ ix < tableSize t then some (ix, s.namePart t ix) else none

/-- The record of a write keeps to its layout: status of the first check that fails. -/
def State.recordCheck (s : State) (part x name : Nat) : Nat :=
  let t := bits x 0 8
  let r := x / 2 ^ 128
  let bad (b : Bool) : Nat := if b then stBadArg else stOk
  match t with
  | 1 =>
    let w := s.bankWidth (bits r 0 4)
    if bits r 4 12 ≠ 0 ∨ bits r 30 2 ≠ 0 ∨ bits r 48 16 ≠ 0 ∨ r / 2 ^ (128 + 16 * keyBytes w) ≠ 0 ∨ !actionOk (recData r) then stBadArg
    else if s.actionForeign part (recData r) then stProtected else stOk
  | 2 =>
    if r / 2 ^ 22 ≠ 0 then stBadArg
    else if s.partOn ∧ (List.range 12).any (fun b => bit r b && s.bankPart b != part) then stProtected else stOk
  | 3 =>
    if bits r 56 8 ≠ 0 ∨ nhRefBad (bits r 32 24) then stBadArg
    else if s.nhRefForeign part (bits r 32 24) then stProtected else stOk
  | 4 =>
    let kw := bits r 0 2
    if bits r 2 62 ≠ 0 ∨ r / 2 ^ (128 + 8 * keyBytes kw) ≠ 0 ∨ !actionOk (recData r) then stBadArg
    else if s.actionForeign part (recData r) then stProtected else stOk
  | 5 => bad (bit r 3 || r / 2 ^ 76 != 0)
  | 6 =>
    let n := bits r 0 9
    if bit r 9 ∨ bits r 31 33 ≠ 0 ∨ n = 0 ∨ 256 < n ∨ 2097152 < bits r 10 21 + n then stBadArg
    else if s.otherHalf 7 part (bits r 10 21) ∨ s.otherHalf 7 part (bits r 10 21 + n - 1) then stProtected else stOk
  | 7 =>
    if r / 2 ^ 22 ≠ 0 then stBadArg else if s.otherHalf 5 part (bits r 0 22) then stProtected else stOk
  | 8 =>
    let cur := (s.epochs part).cur
    if !rewriteOk r name then stBadArg
    else if name % 2 = 1 ∧ s.holdsVer (tblKey 8 (name - 1)) cur (fun v => bit v.data 1) then stBadArg
    else bad (bit r 1 && s.holdsVer (tblKey 8 (name + 1)) cur fun _ => true)
  | _ => stBadArg

/-- Header fields that must be 0 (R384). -/
def headerOk (x : Nat) (write : Bool) : Bool :=
  bits x 8 8 == 0 && bits x 18 14 == 0 && bits x 64 64 == 0
    && (if write then bits x 16 2 == 0 else bits x 16 2 != 0)

/-- Status of the checks that need no space: format, naming, ownership, record. -/
def State.tableCheck (s : State) (c : Cmd) (x : Nat) (write read : Bool) : Nat × Nat :=
  if !headerOk x (!read) then (stBadArg, 0)
  else match s.tableName c.part x with
    | none => (stBadArg, 0)
    | some (name, p) =>
      if s.partOn && p != c.part then (stProtected, 0)
      else (if write then s.recordCheck c.part x name else stOk, name)

/-! ### Capacity (R138) -/

/-- Versions of the partition's entries of an indexed table that are not current. -/
def State.poolUsed (s : State) (p table : Nat) : Nat :=
  let cur := (s.epochs p).cur
  (((s.entriesOf p).filter fun (k, _) => k / 2 ^ 400 == table).map fun (_, vs) =>
    vs.length - (if (currentVer vs cur).isSome then 1 else 0)).foldl (· + ·) 0

/-- Route units in use. -/
def State.routeUsed (s : State) (p : Nat) : Nat :=
  (((s.entriesOf p).filter fun (k, _) => k / 2 ^ 400 == 3).map fun (k, vs) =>
    vs.length * (if bits k 136 4 = 4 then 2 else 3)).foldl (· + ·) 0

/-- Version pool of an indexed table. -/
def poolSize (t : Nat) : Nat := [0, 0, 16, 0, 0, 262144, 8192, 262144, 1048576].getD t 0

/-- Does the table have room once the new version is counted? -/
def State.hasSpace (s : State) (_p table : Nat) (used need : Nat) : Bool :=
  let cap := match table with | 3 => 29360128 | 4 => 67108864 | t => poolSize t
  decide (used + need ≤ if s.partOn then cap / 2 else cap)

/-! ### TABLE_WRITE (R142, R161, R170) -/

/-- Epoch in which the command stages, fixed when it began (R143), and its place among the commands of the partition. -/
def State.stageEpoch (s : State) (c : Cmd) : Nat × Nat :=
  match s.waitOf c.fn c.ring with
  | some (.tcamMove _ e o) => (e, o)
  | _ => (s.pendingEp c.part, (s.epochs c.part).nextOrder)

/-- A command that has begun takes its place in the order. -/
def State.takeOrder (s : State) (p order : Nat) : State := s.updEpochs p fun e => { e with nextOrder := max e.nextOrder (order + 1) }

def tableWriteBody (s : State) (c : Cmd) (x : Nat) : Out :=
  let t := bits x 0 8
  let r := x / 2 ^ 128
  let chk := s.tableCheck c x true false
  let name := chk.2
  if chk.1 ≠ stOk then .fail s chk.1 else
  let key := tblKey t name
  let ep := (s.stageEpoch c).1
  let vs := s.versions key
  let again := match vs.getLast? with | some v => v.birth == ep | none => false
  let s0 := if again then s.replaceVersions key (unstage vs ep) else s
  let vs := s0.versions key
  if t = 1 then
    let bank := bits r 0 4
    match s.tcamPlacement bank key (recPriority r) ep with
    | .full => if again then .ok ((s0.settleRow bank key ep r 16384).setVersions key (stageWrite vs ep r)) else .fail s stNoSpace
    | .move _ _ => .wait (s.takeOrder c.part (s.stageEpoch c).2) (.tcamMove bank ep (s.stageEpoch c).2)
    | .slot i => .ok ((s0.putRow bank i key ep r).setVersions key (stageWrite vs ep r))
  else
    let used := match t with
      | 3 => s.routeUsed c.part | 4 => s.emUsed c.part | _ => s.poolUsed c.part t
    let need := if again then 0 else match t with
      | 3 => (if bits r 12 4 = 4 then 2 else 3) | 4 => emSlots (bits r 0 2) | _ => 1
    if !s.hasSpace c.part t used need then .fail s stNoSpace
    else
      let s1 := s0.setVersions key (stageWrite vs ep r)
      .ok (if t = 4 then s1.placeEm c.part key (bits r 0 2) (bits r 128 (8 * keyBytes (bits r 0 2))) ep else s1)

def tableWriteSpec : OpSpec := { code := 0x0400, entryLen := tableLen, batch := true, body := tableWriteBody }

/-- R142. -/
def execTableWrite (i : Issue) (s : State) : Host.Outcome State Fault Refusal := ans (s.runCommand tableWriteSpec i)

def tableDeleteBody (s : State) (c : Cmd) (x : Nat) : Out :=
  let chk := s.tableCheck c x false false
  if chk.1 ≠ stOk then .fail s chk.1 else
  let key := tblKey (bits x 0 8) chk.2
  let cur := (s.epochs c.part).cur
  match stageDelete (s.versions key) cur (s.pendingEp c.part) with
  | none => .fail s stBadArg
  | some vs => .ok (s.replaceVersions key vs)

def tableDeleteSpec : OpSpec := { code := 0x0401, entryLen := tableLen, batch := true, body := tableDeleteBody }

/-- R142. -/
def execTableDelete (i : Issue) (s : State) : Host.Outcome State Fault Refusal := ans (s.runCommand tableDeleteSpec i)

/-- One version in a TABLE_READ response: word and record (R384). -/
def State.versionBytes (s : State) (part len : Nat) (v : Option Ver) : List Byte :=
  match v with
  | none => leBytes (8 + len) 0
  | some v => leBytes 8 (s.epochNum part v.birth + 2 ^ 16) ++ leBytes (if bit v.data 1 && len == 64 then 128 else len) v.data

def tableReadResp (s : State) (c : Cmd) (x : Nat) : List Byte :=
  let chk := s.tableCheck c x false true
  if chk.1 ≠ stOk then [] else
  let t := bits x 0 8
  let key := tblKey t chk.2
  let cur := (s.epochs c.part).cur
  let len := if t = 8 then 64 else (recordLen s x).getD 0
  let one (v : Option Ver) : List Byte :=
    if t = 8 then s.versionBytes c.part 64 v
    else match v with
      | none => leBytes (8 + len) 0
      | some v => leBytes 8 (s.epochNum c.part v.birth + 2 ^ 16) ++ leBytes len v.data
  let vs := s.versions key
  (if bit x 16 then one (currentVer vs cur) else []) ++ (if bit x 17 then one (stagedVer vs cur) else [])

def tableReadBody (s : State) (c : Cmd) (x : Nat) : Out :=
  let chk := s.tableCheck c x false true
  if chk.1 ≠ stOk then .fail s chk.1 else .okResp s 0 (tableReadResp s c x)

def tableReadSpec : OpSpec :=
  { code := 0x0402, entryLen := tableLen, reads := true
    respLen := fun s c x => (tableReadResp s c x).length, body := tableReadBody }

/-- R174, R384. -/
def execTableRead (i : Issue) (s : State) : Host.Outcome State Fault Refusal := ans (s.runCommand tableReadSpec i)

/-! ### Commits (R143) -/

/-- Some packet still holds a number of before the last PARTITION transition (R151). -/
def State.aliasHeld (s : State) : Bool :=
  [s.lookup.epA, s.lookup.epB].any fun e => e.refs.get 0 (e.origin - 1) != 0

/-- The number of commit index `ep` passes over numbers that are not to be reused yet. -/
def State.skipAlias (s : State) (p ep : Nat) : Nat → State
  | 0 => s
  | n + 1 =>
    if s.aliasHeld && (s.epochs p).aliases.contains (s.epochNum p ep) then
      (s.updEpochs p fun e => { e with skips := ep :: e.skips }).skipAlias p ep n
    else s

/-- Raise the current epoch to a claimed one, with the number of changes made current. -/
def State.commitNow (s : State) (p ep : Nat) : State × Nat :=
  let n := s.changes p ep
  ((s.updEpochs p fun e => { e with cur := ep }).skipAlias p ep 2, n)

def epochCommitBody (s : State) (c : Cmd) (_x : Nat) : Out :=
  let p := c.part
  let e := s.epochs p
  let pend := s.pendingEp p
  let was : Option Nat × Nat × Option Nat × Bool :=
    match s.waitOf c.fn c.ring with
    | some (.commit claim order since st) => (claim, order, since, st)
    | _ => (if decide (0 < s.changes p pend) || (s.writing p).any (·.1 == pend) then some pend else none, e.nextOrder, none, false)
  let s := s.takeOrder p was.2.1
  let earlier := (s.commits p).any fun k => decide (k.2.2.2 < was.2.1)
  match was.1 with
  | none => if earlier then .wait s (.commit none was.2.1 none false) else .okR s (s.epochNum p e.cur)
  | some ep =>
    let writes := (s.writing p).any fun w => decide (w.1 ≤ ep)
    if earlier || writes then .wait s (.commit (some ep) was.2.1 was.2.2.1 was.2.2.2)
    else if s.liveLimit < e.live ep then
      .wait s (.commit (some ep) was.2.1 (some (was.2.2.1.getD s.cyc)) was.2.2.2)
    else
      let r := s.commitNow p ep
      .okR r.1 (r.1.epochNum p ep + r.2 % 2 ^ 28 * 2 ^ 16)

def epochCommitSpec : OpSpec :=
  { code := 0x0403, entryLen := fixedLen 0, critical := State.commitAuth, body := epochCommitBody }

/-- R143. -/
def execEpochCommit (i : Issue) (s : State) : Host.Outcome State Fault Refusal := ans (s.runCommand epochCommitSpec i)

/-- R143: a waiting commit takes its next step when what it waits for is over. -/
def execEpochCommitResume (dt : Nat) (fn : Fin 2) (ring : Fin 64) (s : State) : Host.Outcome State Fault Refusal :=
  let s := s.pass dt
  match s.waitOf fn ring with
  | some (.commit _ _ _ _) => ans (s.resume [epochCommitSpec] fn ring)
  | _ => ans s

/-- R143 step 3: a commit has waited 100 ms for the live limit. -/
def execEpochStall (dt : Nat) (fn : Fin 2) (ring : Fin 64) (s : State) : Host.Outcome State Fault Refusal :=
  let s := s.pass dt
  match (s.ring fn ring).running with
  | none => ans s
  | some run =>
    match run.wait with
    | .commit claim order (some t0) false =>
      if t0 + 100 * cycMs ≤ s.cyc then
        ans ((s.updRing fn ring fun g => { g with running := some { run with wait := .commit claim order (some t0) true } }).raise
          (s.partOf fn) evEpochStall ((s.epochs (s.partOf fn)).oldest))
      else ans s
    | _ => ans s

def epochDiscardBody (s : State) (c : Cmd) (_x : Nat) : Out :=
  let p := c.part
  let order := match s.waitOf c.fn c.ring with
    | some (.discard o) => o
    | _ => (s.epochs p).nextOrder
  if (s.writing p).any fun w => decide (w.2 < order) then .wait (s.takeOrder p order) (.discard order)
  else
    let ep := s.pendingEp p
    let es := (s.entriesOf p).filter fun (_, vs) => changedAt vs ep
    .okR (es.foldl (fun s (k, vs) => s.replaceVersions k (unstage vs ep)) s) es.length

def epochDiscardSpec : OpSpec := { code := 0x0404, entryLen := fixedLen 0, body := epochDiscardBody }

/-- R149. -/
def execEpochDiscard (i : Issue) (s : State) : Host.Outcome State Fault Refusal := ans (s.runCommand epochDiscardSpec i)

/-- R161: one move towards opening the row of the write that waits on the bank. -/
def execTcamRowMove (dt : Nat) (bank : Fin 12) (s : State) : Host.Outcome State Fault Refusal :=
  let s := s.pass dt
  let b := bank.val
  match s.waiting.find? fun w => match w.2.2.wait with | .tcamMove k _ _ => k == b | _ => false with
  | none => ans s
  | some (fn, r, run) =>
    match (tableWriteSpec.split s run.desc.entries run.payloadLen run.payload).bind (·[run.doneEntries]?) with
    | none => ans s
    | some x =>
      let rec_ := x / 2 ^ 128
      let ep := match run.wait with | .tcamMove _ e _ => e | _ => 0
      let s := match s.tcamPlacement b (tcamKey b (bits rec_ 16 14)) (recPriority rec_) ep with
        | .move src dst => s.shiftRow b src dst
        | .slot _ => s
        | .full => s
      match s.tcamPlacement b (tcamKey b (bits rec_ 16 14)) (recPriority rec_) ep with
      | .move _ _ => ans s
      | .slot _ => ans ((s.resume [tableWriteSpec] fn r).resumeWaits [epochDiscardSpec] Wait.isDiscard)
      | .full => ans ((s.resume [tableWriteSpec] fn r).resumeWaits [epochDiscardSpec] Wait.isDiscard)

/-- Free the versions of an entry that no packet can see any more. -/
def State.reclaimEntry (s : State) (o key : Nat) (vs : List Ver) : State :=
  let keep := vs.filter fun v => v.death.all (o < ·)
  if keep.length = vs.length then s else s.replaceVersions key keep

/-- R148: O has advanced: versions whose death is O or earlier are freed. -/
def execVersionReclaim (dt : Nat) (p : Fin 2) (s : State) : Host.Outcome State Fault Refusal :=
  let s := s.pass dt
  let o := (s.epochs p).oldest
  if (s.epochs p).reclaimed < o then
    let s := (s.entriesOf p).foldl (fun s (k, vs) => s.reclaimEntry o k vs) s
    ans (s.updEpochs p fun e => { e with reclaimed := o })
  else ans s

def tcamBankFormatBody (s : State) (c : Cmd) (x : Nat) : Out :=
  let b := bits x 0 4
  if 12 ≤ b ∨ bits x 4 4 ≠ 0 ∨ bits x 10 54 ≠ 0 then .fail s stBadArg
  else if s.partOn ∧ s.bankPart b ≠ c.part then .fail s stProtected
  else if !(s.lookup.bankRows.get [] b).isEmpty then .fail s stBadArg
  else .ok { s with lookup := { s.lookup with bankWidth := s.lookup.bankWidth.put 0 b (bits x 8 2) } }

def tcamBankFormatSpec : OpSpec := { code := 0x0405, entryLen := fixedLen 8, body := tcamBankFormatBody }

/-- R152. -/
def execTcamBankFormat (i : Issue) (s : State) : Host.Outcome State Fault Refusal := ans (s.runCommand tcamBankFormatSpec i)

end Sys2Proof.Machine
end

