-- ==== Sys2Proof/Machine/Record.lean ====
section
/-! DEFINITION. What packets leave behind for the host to read: slots and performance events (R423 to R425), captured frames
(R427) and flow-state records (R428). -/

namespace Sys2Proof.Machine

/-! ### Slots and performance events -/

/-- All four stage groups of a slice are ON: 0 to 3 ingress, 4 to 7 egress (R423, R437). -/
def State.sliceOn (s : State) (k : Nat) : Bool := (List.range 4).all fun j => (s.domain (152 + 4 * k + j)).st == .on

/-- Slots since the reset: 2.25 in a TIME cycle. -/
def State.slotNow (s : State) : Nat := s.cyc * 9 / 4

/-- TMC cycles since the reset: 1.75 in a TIME cycle. -/
def State.tmcNow (s : State) : Nat := s.cyc * 7 / 4

/-- Key of a programmable counter: slices, then tiles. -/
def perfKey (tile : Bool) (unit ctr : Nat) : Nat := b2n tile * 1024 + unit * 8 + ctr

def State.perf (s : State) (k : Nat) : Perf := s.tele.perf.get {} k
def State.updPerf (s : State) (k : Nat) (f : Perf → Perf) : State :=
  { s with tele := { s.tele with perf := s.tele.perf.upd {} k f } }

/-- `n` occurrences of a counter's event: 48 bits wrap, and a sampling counter is reloaded (R425, R426). -/
def Perf.count (p : Perf) (n : Nat) : Perf :=
  let v := p.value + n
  if v < 2 ^ 48 then { p with value := v }
  else if p.sampleEn then { p with value := (2 ^ 48 - p.period + (v - 2 ^ 48)) % 2 ^ 48, due := p.due + 1 }
  else { p with value := v % 2 ^ 48 }

/-- An event of a slice: packet events count for the counters of the packet's partition, slot events for all (R424). -/
def State.perfEvent (s : State) (slice ev n : Nat) (part : Option Nat) : State :=
  (List.range 8).foldl (fun s c =>
    let k := perfKey false slice c
    let p := s.perf k
    let mine := !s.partOn || part.all fun q => q == c / 4
    if p.enable && p.event == ev && mine && n != 0 then s.updPerf k (·.count n) else s) s

/-- An event of a scheduler tile. -/
def State.tileEvent (s : State) (tile ev : Nat) : State :=
  (List.range 4).foldl (fun s c =>
    let k := perfKey true tile c
    if (s.perf k).enable && (s.perf k).event == ev then s.updPerf k (·.count 1) else s) s

/-- Counter of set 0x30. -/
def sliceCtr (item : Nat) : CtrName := ⟨0x30, 0, item⟩

/-- A released frame waits at an egress slice. -/
def State.egressWaits (s : State) (k : Nat) : Bool :=
  s.tm.egress.any fun (p, e) => portSlice p + 4 == k && !e.released.isEmpty

/-- Slots of the clock for each slot that counts: an ingress slice takes every second one in THROTTLE (R445). -/
def State.slotStep (s : State) (k : Nat) : Nat := if k < 4 ∧ s.chip.thermal.st = 1 then 2 else 1

/-- Classify the slots that have passed without a packet (R423). -/
def State.syncSlots (s : State) (k : Nat) : State :=
  let n := (s.slotNow - s.tele.slotDone.get 0 k) / s.slotStep k
  if !s.sliceOn k || n == 0 then s else
  let cat := if decide (4 ≤ k) && s.egressWaits k then 3 else 2
  let s := { s with tele := { s.tele with slotDone := s.tele.slotDone.upd 0 k (· + n * s.slotStep k) } }
  ((s.bump (sliceCtr 0) k n).bump (sliceCtr (1 + cat)) k n).perfEvent k (9 + cat) n none

/-- A packet takes a slot of the category 0 RETIRED or 1 WASTED. -/
def State.takeSlot (s : State) (k cat part : Nat) : State :=
  if !s.sliceOn k then s else
  let s := s.syncSlots k
  let s := { s with tele := { s.tele with slotDone := s.tele.slotDone.upd 0 k (· + s.slotStep k) } }
  ((((s.bump (sliceCtr 0) k).bump (sliceCtr (1 + cat)) k).perfEvent k 1 1 (some part)).perfEvent k (9 + cat) 1 (some part))

/-- Entry was held by a repeated search or rewrite read: an open number, at most `most`, of the slots that have passed without a packet
are WASTED (R423; log 122). -/
def State.holdSlots (s : State) (k most : Nat) : State :=
  if !s.sliceOn k then s else
  let n := min (min most (Config.openValue s.freeCtr)) ((s.slotNow - s.tele.slotDone.get 0 k) / s.slotStep k)
  let s := s.drawn
  let s := { s with tele := { s.tele with slotDone := s.tele.slotDone.upd 0 k (· + n * s.slotStep k) } }
  ((s.bump (sliceCtr 0) k n).bump (sliceCtr 2) k n).perfEvent k 10 n none

/-! ### Capture (R427) -/

/-- RECORDS of a partition's ring, or the device's (R210, R427, R430). -/
def State.captureRecords (s : State) : Nat :=
  let all := if s.isOn .cellar then s.inn.captureGib * 2 ^ 22 else 2 ^ 20
  if s.partOn then all / 2 else all

/-- A capture record: header and the first 192 bytes. -/
def captureRecord (q point : Nat) (pp : Passport) (data : List Byte) : Nat :=
  secOf q % 2 ^ 48 + nsOf q * 2 ^ 48 + fracOf q * 2 ^ 80 + point * 2 ^ 96 + data.length % 65536 * 2 ^ 112
    + pp.encode * 2 ^ 256 + leNat (data.take 192) * 2 ^ 512

/-- A frame is discarded at a capture point: its record is written within the capacity that R214 leaves, or the H2 ring's (R427). -/
def State.captureAt (s : State) (point part : Nat) (pp : Passport) (data : List Byte) : State :=
  let cfg := s.reg 0x03000000
  let rate := min 24 (bits cfg 16 5)
  if bit cfg 31 && bit cfg point && (rate == 0 || Config.captureHash pp.seq (pp.tns + pp.tsec * 2 ^ 32) rate) then
    let n := s.captureRecords
    let kind := if s.isOn .cellar then 0 else 2
    if n = 0 ∨ !s.trafficFits part kind 2048 then s.bump ⟨0x32, 1, 0⟩ part
    else
      let s := s.noteTraffic part kind 2048
      let w := s.tele.captureWritten.get 0 part
      let rec_ := captureRecord s.now point pp data
      { s with tele := { s.tele with
          capture := s.tele.capture.put 0 (part * 2 ^ 40 + w % n) rec_
          captureWritten := s.tele.captureWritten.put 0 part (w + 1) } }
  else s

/-- Capture of a packet on its way. -/
def State.capturePkt (s : State) (point : Nat) (k : Pkt) : State := s.captureAt point k.part k.pp k.data

/-! ### Flow-state records (R428) -/

def State.flowOn (s : State) : Bool := s.inn.flowEn && s.isOn .cellar

/-- Record index of a hash: the partition's half. -/
def State.flowIndex (s : State) (part hash : Nat) : Nat :=
  if s.partOn then hash % 2 ^ 27 + part * 2 ^ 27 else hash % 2 ^ 28

/-- The record merged with its cached updates. -/
def State.flowAt (s : State) (ix : Nat) : Flow :=
  match s.tele.flowCache.find? ix with
  | some (_, f) => f
  | none => s.tele.flows.get {} ix

/-- Write a cached entry, 64 bytes, to the cellar from the capacity that R214 leaves; without any its updates are discarded and
counted. -/
def State.flowWrite (s : State) (ix : Nat) : State :=
  match s.tele.flowCache.find? ix with
  | none => s
  | some (_, f) =>
    let s := { s with tele := { s.tele with flowCache := s.tele.flowCache.del ix } }
    let part := s.halfPart (2 ^ 27) ix
    if s.trafficFits part 0 512 then
      { s.noteTraffic part 0 512 with tele := { s.tele with flows := s.tele.flows.put {} ix f } }
    else s.bump ⟨0x32, 1, 2⟩ part

/-- The cache holds its 262,144 entries. -/
def State.flowCacheFull (s : State) : Bool := decide (262144 ≤ s.tele.flowCache.length)

/-- The packet's record after the packet. -/
def Flow.add (f : Flow) (pp : Passport) (at_ flags : Nat) (fwd : Bool) : Flow :=
  { f with
    hash := pp.hash, port := pp.inPort, inUse := true, tcpFlags := f.tcpFlags ||| flags, last := at_
    packets := (f.packets + 1) % 2 ^ 64, bytes := (f.bytes + pp.length) % 2 ^ 64
    queue := if fwd then pp.queue else f.queue
    endpoint := if fwd && pp.kind != kindMulticast then pp.endpoint else f.endpoint }

/-- A stamped packet updates its record in the cache; only a forwarded one has a destination. -/
def State.flowUpdate (s : State) (part : Nat) (pp : Passport) (at_ flags : Nat) (fwd : Bool) : State :=
  if !s.flowOn then s else
  let ix := s.flowIndex part pp.hash
  let f := if (s.flowAt ix).poison then {} else s.flowAt ix
  let age := max 1 (s.regF 0x0300000C 0 16) * 1000000 * qNs
  if f.inUse && f.hash != pp.hash && decide (at_ < f.last + age) then s.bump ⟨0x32, 1, 1⟩ part
  else
    let base : Flow := if f.inUse && f.hash == pp.hash then f else { first := at_ }
    let since := match s.tele.flowCache.find? ix with | some (c, _) => c | none => s.cyc
    let s := match s.tele.flowCache.find? ix, s.tele.flowCache with
      | none, (old, _) :: _ => if s.flowCacheFull then s.flowWrite old else s
      | _, _ => s
    { s with tele := { s.tele with flowCache := s.tele.flowCache.ins ix (since, base.add pp at_ flags fwd) } }

end Sys2Proof.Machine
end

