-- ==== Sys2Proof/Machine/Policer.lean ====
section
/-! DEFINITION. Token buckets and the Tollbooth (11_scheduling_shaping_policing.md): the meters of RFC 2697 and RFC 2698 (R281,
R282), POLICER_SET (R283) and the policer counters (R284). -/

namespace Sys2Proof.Machine

/-! ### Accrual -/

/-- Tokens in 1/1,024 byte that a rate in kb/s gives in `n` TIME cycles: one for each 6,250 of rate × cycles; the remainder is
carried (R277, R281). -/
def accrue (rate n rem : Nat) : Nat × Nat := ((rem + rate * n) / 6250, (rem + rate * n) % 6250)

/-- The policer's buckets at cycle `c`: RFC 2697 overflows C into E; RFC 2698 fills both (R282). -/
def Policer.fill (p : Policer) (c : Nat) : Policer :=
  let n := c - p.at_
  let cmax := p.cbs * 1024
  let emax := p.ebs * 1024
  let a := accrue p.cir n p.remC
  if p.mode ≤ 2 then
    let spill := (p.tc + a.1) - cmax
    { p with tc := min cmax (p.tc + a.1), te := min emax (p.te + spill), at_ := c, remC := a.2 }
  else
    let b := accrue p.pir n p.remP
    { p with tc := min cmax (p.tc + a.1), te := min emax (p.te + b.1), at_ := c, remC := a.2, remP := b.2 }

/-- Colours: 0 green, 1 yellow, 2 red (R28); 3 reads as red. -/
def preColour (p : Policer) (colour : Nat) : Nat := if p.mode = 2 ∨ p.mode = 4 then min colour 2 else 0

/-- The meter's decision on a charge in bytes, on filled buckets (R282). -/
def Policer.decide (p : Policer) (colour charge : Nat) : Policer × Nat :=
  let b := charge * 1024
  let pre := preColour p colour
  if p.mode ≤ 2 then
    if pre = 0 ∧ b ≤ p.tc then ({ p with tc := p.tc - b }, 0)
    else if pre ≤ 1 ∧ b ≤ p.te then ({ p with te := p.te - b }, 1)
    else (p, 2)
  else if pre = 2 ∨ p.te < b then (p, 2)
  else if pre = 1 ∨ p.tc < b then ({ p with te := p.te - b }, 1)
  else ({ p with tc := p.tc - b, te := p.te - b }, 0)

/-- A packet passes policer `ix`: its colour and drop-eligible after it, and whether it is dropped (R282, R284). -/
def State.police (s : State) (ix : Nat) (pp : Passport) : State × Passport × Bool :=
  let p := s.policer ix
  if p.mode = 0 then (s, pp, false) else
  let r := (p.fill s.cyc).decide pp.colour (addBytes pp.length p.overhead)
  let s := (s.updPolicer ix fun _ => r.1).bumpPair ⟨0x12, 0, 2 * r.2⟩ ix pp.length
  let de := if r.2 = 1 then pp.de || !p.yellowAct else if r.2 = 2 then true else pp.de
  (s, { pp with colour := r.2, de := de }, r.2 == 2 && !p.redAct)

/-! ### POLICER_SET (R283) -/

/-- The two families of meters: 0 none, 1 single rate, 2 two rate. -/
def meterFamily (mode : Nat) : Nat := (mode + 1) / 2

/-- Fields of a record that must hold. -/
def policerOk (x : Nat) : Bool :=
  bits x 21 3 == 0 && decide (bits x 24 3 ≤ 4) && bits x 30 2 == 0 && bits x 40 24 == 0 && bits x 176 16 == 0
    && decide (-64 ≤ signed 8 (bits x 32 8)) && !(decide (3 ≤ bits x 24 3) && decide (bits x 96 32 < bits x 64 32))

/-- The new record over the old one, its buckets full or kept. -/
def policerNew (old : Policer) (x c : Nat) : Policer :=
  let o := old.fill c
  let mode := bits x 24 3
  let cbs := bits x 128 24
  let ebs := bits x 152 24
  let keep := bit x 29 && o.mode != 0
  let keep2 := keep && (mode == 0 || meterFamily o.mode == meterFamily mode)
  { mode := mode, yellowAct := bit x 27, redAct := bit x 28, overhead := signed 8 (bits x 32 8), cir := bits x 64 32
    pir := bits x 96 32, cbs := cbs, ebs := ebs, tc := if keep then min o.tc (cbs * 1024) else cbs * 1024
    te := if keep2 then min o.te (ebs * 1024) else ebs * 1024, at_ := c, remC := if keep then o.remC else 0
    remP := if keep2 then o.remP else 0 }

def policerSetBody (s : State) (c : Cmd) (x : Nat) : Out :=
  let ix := bits x 0 21
  if !policerOk x then .fail s stBadArg
  else if s.partOn && s.halfPart 0x100000 ix != c.part then .fail s stProtected
  else .ok (s.updPolicer ix fun p => policerNew p x s.cyc)

def policerSetSpec : OpSpec := { code := 0x0622, entryLen := fixedLen 24, batch := true, body := policerSetBody }

/-- R283. -/
def execPolicerSet (i : Issue) (s : State) : Host.Outcome State Fault Refusal := ans (s.runCommand policerSetSpec i)

end Sys2Proof.Machine
end

