-- ==== Sys2Proof/Machine/Byway.lean ====
section
/-! DEFINITION. The Byway (07_actions_byway_caravan.md): punt reasons and rings, policing and the punt store (R187 to R189),
whole-frame reservation and the punt record (R190, R191), and inject frames (R192, R391). -/

namespace Sys2Proof.Machine

/-! ### Punts (R187 to R189) -/

def reasonBad : Nat := 0x01
def reasonActionPunt : Nat := 0x08
def reasonActionCopy : Nat := 0x09
def reasonNhPunt : Nat := 0x0A
def reasonNoRoute : Nat := 0x0B
def reasonTtl : Nat := 0x0C
def reasonMirror : Nat := 0x0D

/-- Counter of the Byway punt set: items packets, bytes, PUNT_POLICED, PUNT_STORE_FULL, PUNT_NOT_CLAIMED (R201). -/
def puntCtr (item : Nat) : CtrName := ⟨0x09, 0, item⟩

/-- ACT_PUNT_MAP of a reason: each partition has its own copy (R200). -/
def State.puntMap (s : State) (part r : Nat) : Nat := s.reg (0x00C02000 + 4 * r + part * 2 ^ 32)

/-- Function and local punt ring of a punt under the map entry `m` (R188). -/
def State.puntRing (s : State) (part m code : Nat) : Nat × Nat :=
  let r := bits m 0 5 + (code &&& bits m 5 5)
  if s.partOn then (part, r % 16) else (0, r % 32)

/-- Bytes of the punt store in use by a partition, and its share (R189). -/
def State.puntBytes (s : State) (part : Nat) : Nat :=
  ((s.byway.store.filter fun e => e.2.2.pkt.part == part).map fun e => e.2.2.pkt.data.length).foldl (· + ·) 0
def State.puntShare (s : State) : Nat := if s.partOn then 16777216 else 33554432

/-- A frame reaches the Byway with the entry `m` of ACT_PUNT_MAP that acts for it (R200): it is counted, policed at the store's entry
when its reason asks for it, and held whole. -/
def State.punt (s : State) (m : Nat) (p : Punt) : State :=
  let k := p.pkt
  let ix := k.part * 256 + p.reason
  let s := s.bumpPair (puntCtr 0) ix k.data.length
  if s.puntShare < s.puntBytes k.part + k.data.length then (s.bump (puntCtr 3) ix).dropRef k
  else
    let pol := if s.partOn then setBits (bits m 11 21) 20 1 k.part else bits m 11 21
    let r := if bit m 10 then s.police pol k.pp else (s, k.pp, false)
    if bit m 10 && r.2.1.colour == 2 && (s.policer pol).mode != 0 then
      ((r.1.bump (puntCtr 2) ix).capturePkt 3 k).dropRef k
    else
      let q := r.1.puntRing k.part m p.code
      { r.1 with byway := { r.1.byway with
          store := r.1.byway.store ++ [(q.1, q.2, { p with pkt := { k with pp := r.2.1 } })] } }

/-! ### Reservation and record (R190, R191, R390) -/

/-- Device number of a punt or inject ring (R417). -/
def State.devRing (s : State) (fn ring : Nat) : Nat := ring + (if s.partOn then 16 * fn else 0)

def bufSize (g : Ring) : Nat := 256 * 2 ^ min 6 g.bufCode

/-- The punt record and the frame (R191). -/
def puntImage (p : Punt) (drops n : Nat) : List Byte :=
  leBytes 64 (({ p.pkt.pp with kind := kindPunt } : Passport).encode + p.reason % 256 * 2 ^ 256 + p.code % 256 * 2 ^ 264
    + p.err % 32 * 2 ^ 272 + p.node % 1024 * 2 ^ 280 + p.visit % 32 * 2 ^ 290 + p.off % 256 * 2 ^ 296
    + p.pkt.data.length % 65536 * 2 ^ 304 + drops * 2 ^ 320 + n % 256 * 2 ^ 336) ++ p.pkt.data

/-- Descriptors written back for buffers at `addrs`, with the bytes that each buffer received (R390). -/
def writeBacks (size : Nat) (first : Bool) : List (BitVec 64) → List Byte → List (Nat × List Byte)
  | [], _ => []
  | a :: t, bs =>
    let now := bs.take size
    (a.toNat + now.length % 2 ^ 15 * 2 ^ 64 + b2n first * 2 ^ 79 + b2n t.isEmpty * 2 ^ 80 + 2 ^ 127, now)
      :: writeBacks size false t (bs.drop size)

/-- BYWAY_RING_SHORT, at most once per millisecond for a ring, with the count since the last (R190). -/
def State.shortEvent (s : State) (fn ring : Nat) : State :=
  let r := 144 + ring
  let g := s.ring fn r
  if g.shortSince != 0 && g.shortLast.all fun t => decide (t + cycMs ≤ s.cyc) then
    (s.updRing fn r fun g => { g with shortSince := 0, shortLast := some s.cyc }).raise (s.partOf fn) evBywayRingShort ring
      g.shortSince
  else s

/-- A frame is dropped whole for RING_SHORT (R190). -/
def State.ringShort (s : State) (fn ring : Nat) (p : Punt) : State :=
  let s := s.updRing fn (144 + ring) fun g =>
    { g with dropsBefore := min 0xFFFF (g.dropsBefore + 1), shortSince := g.shortSince + 1 }
  (((s.bump ⟨0x0A, 0, 2⟩ (s.devRing fn ring)).capturePkt 11 p.pkt).dropRef p.pkt).shortEvent fn ring

/-- A frame is delivered into `n` posted buffers (R190, R191, R390). -/
def State.deliverPunt (s : State) (fn ring n : Nat) (p : Punt) : State :=
  let r := 144 + ring
  let s := s.updRing fn r fun g =>
    { g with
      posted := g.posted.drop n
      puntOut := let l := g.puntOut ++ writeBacks (bufSize g) true (g.posted.take n) (puntImage p g.dropsBefore n)
                 l.drop (l.length - 2 ^ g.log2)
      devIndex := (g.devIndex + n) % 2 ^ 32
      dropsBefore := 0 }
  (((s.bumpPair ⟨0x0A, 0, 0⟩ (s.devRing fn ring) p.pkt.data.length).signalRing fn r).dropRef p.pkt).shortEvent fn ring

/-- Take the first frame of a ring out of the store. -/
def takePunt (fn ring : Nat) : List (Nat × Nat × Punt) → Option (Punt × List (Nat × Nat × Punt))
  | [] => none
  | e :: t =>
    if e.1 = fn ∧ e.2.1 = ring then some (e.2.2, t)
    else (takePunt fn ring t).map fun r => (r.1, e :: r.2)

/-- A punt when the unit does not hold the partition's claim (R82, R188, R341). -/
def State.puntNotClaimed (s : State) (p : Punt) : State :=
  (if p.reason = reasonBad then s.bump (macCtr 18) p.pkt.pp.inPort
   else s.bump (puntCtr 4) (p.pkt.part * 256 + p.reason)).dropRef p.pkt

/-- R190: the frame at the head of its ring's order makes its reservation. -/
def execPuntReservation (dt : Nat) (fn : Fin 2) (ring : Fin 32) (s : State) : Host.Outcome State Fault Refusal :=
  let s := s.pass dt
  match takePunt fn ring s.byway.store with
  | none => ans s
  | some (p, rest) =>
    let s := { s with byway := { s.byway with store := rest } }
    if !s.holds p.pkt.part then ans (s.puntNotClaimed p) else
    let g := s.ring fn (144 + ring.val)
    let n := ceilDiv (64 + p.pkt.data.length) (bufSize g)
    if g.st == .running && !g.fetchStop && s.canWrite fn && decide (n ≤ g.posted.length) then
      ans (s.deliverPunt fn ring n p)
    else ans (s.ringShort fn ring p)

/-! ### Inject (R192, R391) -/

/-- Fields of an inject entry. -/
def injAddr (e : Nat) : Nat := bits e 0 64
def injLen (e : Nat) : Nat := bits e 64 16
def injCookie (e : Nat) : Nat := bits e 96 32

/-- The entry as the device writes it back: STATUS, and DONE 1. -/
def injDone (e : BitVec 256) (st : Nat) : BitVec 256 := BitVec.ofNat 256 (setBits (setBits e.toNat 192 8 st) 255 1 1)

/-- First IPv4 or IPv6 header after an Ethernet header and up to two tags, past any MPLS labels: offset and version. -/
def findIp (f : List Byte) : Option (Nat × Nat) :=
  let tag (o : Nat) : Bool := be16 f o == 0x8100 || be16 f o == 0x88A8
  let t := if tag 12 then (if tag 16 then 20 else 16) else 12
  let ver (o : Nat) : Option (Nat × Nat) :=
    if byteAt f o / 16 = 4 then some (o, 4) else if byteAt f o / 16 = 6 then some (o, 6) else none
  let rec labels : Nat → Nat → Option (Nat × Nat)
    | 0, _ => none
    | n + 1, o => if byteAt f (o + 2) % 2 = 1 then ver (o + 4) else labels n (o + 4)
  if f.length < t + 6 then none
  else if be16 f t = 0x0800 then some (t + 2, 4)
  else if be16 f t = 0x86DD then some (t + 2, 6)
  else if be16 f t = 0x8847 then labels 16 (t + 2)
  else none

/-- The mode was ON when the packet entered the parser (R40). -/
def Pkt.under (k : Pkt) (m : Mode) : Bool := bit k.modes (Mode.ix m)

/-- The packet's port is marked for the twin link, and the packet entered with TWIN ON and the fabric off (R52, R356). -/
def State.twinMarked (s : State) (k : Pkt) : Bool :=
  k.under .twin && !k.under .fabric && decide (k.pp.kind ≤ 1) && decide (k.pp.inPort < 48) && bit s.twin.fwdMask k.pp.inPort

/-- Caravan's first stage has work for the packet: copies of a multicast packet, mirror, host or twin copies (R196, R356). -/
def State.needsFirst (s : State) (k : Pkt) : Bool :=
  k.pp.kind == kindMulticast || k.sb.mirrorEn || k.sb.copy || s.twinMarked k

/-- A packet enters the switch core at a slice's or the inject input; one that the first stage must replicate waits there for it. -/
def State.enterCore (s : State) (input : Nat) (k : Pkt) : State :=
  if s.needsFirst k then
    let s := s.updInput input (· ++ [{ k with first := true }])
    { s with caravan := { s.caravan with first := s.caravan.first ++ [input] } }
  else s.updInput input (· ++ [{ k with sb := {} }])

/-- The ring's own partition owns the queue or group, and the edit pointer, of an inject frame (R48, R192). -/
def State.injectOwn (s : State) (part : Nat) (pp : Passport) : Bool :=
  let q := if pp.kind = kindMulticast then pp.dest else pp.queue
  !s.partOn || (s.halfPart 0x80000 q == part && s.halfPart 0x800000 pp.edit == part)

/-- Status of an inject entry with the bytes at its ADDR (R192, R341, R376, R391). -/
def State.injectStatus (s : State) (part e : Nat) (data : Option (List Byte)) : Nat :=
  if injAddr e % 8 ≠ 0 ∨ bits e 80 16 ≠ 0 ∨ bits e 128 128 ≠ 0 ∨ injLen e < 32 then stBadArg else
  match data with
  | none => stMemErr
  | some bs =>
    let pp := Passport.decode (leNat (bs.take 32))
    if bs.length ≠ injLen e then stMemErr
    else if pp.version ≠ 1 ∨ ¬ (pp.kind = kindInject ∨ pp.kind = kindMulticast) then stBadArg
    else if pp.length + 28 ≠ injLen e ∨ pp.length < 64 ∨ 16383 < pp.length ∨ 999999999 < pp.tns then stBadArg
    else if !s.injectOwn part pp then stProtected
    else if !s.holds part then stNotClaimed else stOk

/-- The refused frame is counted where a counter is named: BAD_PASSPORT, INJECT_NOT_CLAIMED (R29, R341). -/
def State.injectCount (s : State) (fn ring st : Nat) (data : Option (List Byte)) : State :=
  let pp := Passport.decode (leNat ((data.getD []).take 32))
  if st = stNotClaimed then s.bump ⟨0x15, 3, 0⟩ (s.devRing fn ring)
  else if st = stBadArg ∧ data.isSome ∧ (pp.version ≠ 1 ∨ ¬ (pp.kind = kindInject ∨ pp.kind = kindMulticast)) then
    s.bump ⟨0x0E, 3, 1⟩ 0
  else s

/-- A checked frame enters the switch core (R30, R147, R192, R343). -/
def State.injectFrame (s : State) (fn ring part : Nat) (bs : List Byte) : State :=
  let pp := Passport.decode (leNat (bs.take 32))
  let body := bs.drop 32
  let ep := (s.epochs part).cur
  let data := body ++ leBytes 4 (fcs32 body)
  let k : Pkt :=
    { pp := { pp with epoch := s.epochNum part ep, inPort := 0xFE, pairId := 0, seq := 0
                      claim := if s.isOn .twin then (s.claim part).num else 0 }
      data := data, ep := ep, part := part, modes := s.modesOn, arrived := s.now, ip := findIp data }
  ((s.takeRef part ep).bumpPair ⟨0x0B, 0, 0⟩ (s.devRing fn ring) data.length).enterCore 29 k

/-- R192, R391: the next entry of an inject ring is read, checked, sent or refused, and written back. -/
def execInjectFrameRead (dt : Nat) (fn : Fin 2) (ring : Fin 32) (data : Option (List Byte)) (s : State) :
    Host.Outcome State Fault Refusal :=
  let s := s.pass dt
  let r := 176 + ring.val
  let g := s.ring fn r
  match g.injects with
  | [] => ans s
  | e :: rest =>
    if g.st != .running || g.fetchStop || !s.canWrite fn || s.chip.d2dDown then ans s else
    let part := s.partOf fn
    let st := s.injectStatus part e.toNat data
    let s := s.updRing fn r fun g =>
      { g with injects := rest, devIndex := (g.devIndex + 1) % 2 ^ 32
               injectOut := let l := g.injectOut ++ [injDone e st]
                            l.drop (l.length - 2 ^ g.log2) }
    let s := s.injectCount fn ring st data
    ans (if st = stOk then s.injectFrame fn ring part (data.getD []) else s)

end Sys2Proof.Machine
end

