-- ==== Sys2Proof/Machine/Action.lean ====
section
/-! DEFINITION. The ingress action engine (07_actions_byway_caravan.md): action words (R177), precedence and the eight steps of
R179, the sideband (R180) and DECAP (R181). -/

namespace Sys2Proof.Machine

/-! ### Action words (R177) -/

def awRef (w : Nat) : Nat := bits w 0 24
def awNhEn (w : Nat) : Bool := bit w 24
def awDisp (w : Nat) : Nat := bits w 25 3
def awTcEn (w : Nat) : Bool := bit w 28
def awTc (w : Nat) : Nat := bits w 29 3
def awDecap (w : Nat) : Nat := bits w 32 4
def awPolEn (w : Nat) : Bool := bit w 37
def awPolicer (w : Nat) : Nat := bits w 38 21
def awMirEn (w : Nat) : Bool := bit w 59
def awSession (w : Nat) : Nat := bits w 60 4

/-- The action words that a packet's hits offer, in order of precedence; a poisoned result counts as a miss. -/
def Results.words (r : Results) : List Nat :=
  ([r.k2, r.k3, r.k1].filter fun k => k.hit && !k.poison).map (·.data)

/-- A route hit. -/
def Results.route (r : Results) : Option Nat := if r.k0.hit && !r.k0.poison then some r.k0.data else none

/-- What the engine decides. -/
inductive Fate where
  /-- Dropped; the item of the Action set that counts it, none when NH_INVALID has counted it. -/
  | drop (item : Option Nat)
  | punt (reason code : Nat)
  | forward
deriving DecidableEq, Repr

/-- A decision: its fate, the packet with passport, sideband and bytes as they leave. -/
structure Decision where
  fate : Fate
  pkt : Pkt
deriving DecidableEq, Repr

/-- ACT_PORT and ACT_DCMAP of a port (R200). -/
def State.actPort (s : State) (p : Nat) : Nat := s.reg (0x00C00000 + 0x10 * p)
def State.dcMap (s : State) (p tc : Nat) : Nat := s.regF (0x00C00004 + 0x10 * p) (4 * tc) 4

/-- ECN field of an IP header (R179). -/
def ecnAt (f : List Byte) (o ver : Nat) : Nat :=
  if ver = 4 then byteAt f (o + 1) % 4 else byteAt f (o + 1) / 16 % 4

/-- The first IPv4 or IPv6 node that the walk visited at or after byte `o`: offset and version. -/
def Walk.ipFrom (w : Walk) (o : Nat) : Option (Nat × Nat) :=
  (w.visits.find? fun v => decide (o ≤ v.off) && (v.kind == 4 || v.kind == 5)).map fun v => (v.off, if v.kind = 4 then 4 else 6)

/-- Steps 5 to 8 of R179 for a unicast or multicast next hop `nh`. R179 states no queue for a multicast passport: an open value. -/
def State.actForward (s : State) (p : Nat) (w : Walk) (dev : List Byte) (ws : List Nat) (sb : Sideband) (disp : Nat)
    (code nh : Nat) (k : Pkt) : Decision :=
  if bit (s.actPort p) 4 && byteAt dev 1 / 64 == 0 && (w.hashLayer (s.hashOuter p)).isSome && decide (byteAt dev 23 ≤ 1) then
    { fate := .punt reasonTtl 0, pkt := { k with sb := sb } }
  else
    let tc := match ws.find? awTcEn with | some a => awTc a | none => bits (s.actPort p) 0 3
    let pp := { k.pp with tc := tc, dclass := s.dcMap p tc }
    let decap := (ws.map awDecap).find? (· != 0)
    match decap, decap.bind w.layer with
    | some _, none => { fate := .drop (some 3), pkt := k }
    | c, v =>
      let cut := (v.map (·.off)).getD 0
      let ip := w.ipFrom cut
      let ecn := match ip with | some (o, ver) => ecnAt k.data o ver | none => 0
      let multi := bits nh 1 2 == 1
      let pp := { pp with
        length := pp.length - cut, ecn := ecn
        kind := if multi then kindMulticast else kindUnicast
        dest := if multi then bits nh 24 20 else mkDest (bits nh 4 12) (bits nh 16 8)
        queue := if multi then Config.openValue s.freeCtr % 2 ^ 20 else bits nh 24 20
        edit := if multi then 0 else bits nh 44 24 }
      let copy := disp == 3
      { fate := .forward
        pkt := { k with
          pp := pp, data := k.data.drop cut, noL2 := c == some 3 || c == some 7, ip := ip.map fun i => (i.1 - cut, i.2)
          sb := { sb with copy := copy, puntCode := if copy then code else 0 } } }

/-- The eight steps of R179 on a parsed packet; `err` names the versions that read uncorrectable (R150). -/
def State.act (s : State) (p : Nat) (w : Walk) (dev : List Byte) (r : Results) (err : RxErr) (k : Pkt) : State × Decision :=
  let ws := r.words
  let s := match r.route with
    | some d => s.bumpPair ⟨0x07, 0, 0⟩ (k.part * 256 + bits d 0 8) k.data.length
    | none => s
  let dw := (ws.find? fun a => awDisp a != 0).getD 0
  let disp := awDisp dw
  let pol := ws.find? awPolEn
  let mir := ws.find? awMirEn
  let sb : Sideband :=
    { polEn := pol.isSome, policer := (pol.map awPolicer).getD 0
      mirrorEn := mir.isSome, mirrorSession := (mir.map awSession).getD 0 }
  let k' := { k with sb := sb }
  if disp = 1 then (s, { fate := .drop (some 0), pkt := k })
  else if disp = 2 then (s, { fate := .punt reasonActionPunt (bits dw 0 8), pkt := k' })
  else
    let ref := match ws.find? awNhEn with
      | some a => some (awRef a)
      | none => r.route.map fun d => bits d 32 24
    match ref with
    | none =>
      if bit (s.actPort p) 3 then (s, { fate := .punt reasonNoRoute 0, pkt := k' })
      else (s, { fate := .drop (some 1), pkt := k })
    | some ref =>
      match s.resolve k.part k.ep ref k.pp.hash err with
      | (s, none) => (s, { fate := .drop none, pkt := k })
      | (s, some nh) =>
        if bits nh 1 2 = 2 then (s, { fate := .punt reasonNhPunt (bits nh 68 8), pkt := k' })
        else if bits nh 1 2 = 3 then (s, { fate := .drop (some 2), pkt := k })
        else (s.drawn, s.actForward p w dev ws sb disp (bits dw 0 8) nh k)

end Sys2Proof.Machine
end

