-- ==== Sys2Proof/Machine/Frame.lean ====
section
/-! DEFINITION. A frame from the line (R21): MAC checks (R79 to R83), steering of split ports (R58, R59), the stamp (R28, R321, R337),
parse outcomes (R128), lookup and actions, the punt path and the staging buffer (R218). -/

namespace Sys2Proof.Machine

/-! ### MAC checks (R81) -/

/-- The trailing FCS is that of the bytes before it. -/
def fcsGood (f : List Byte) : Bool := leNat (f.drop (f.length - 4)) == fcs32 (f.take (f.length - 4))

/-- Error flags of a frame of at least 18 bytes; a transport client's never show FEC_UNCORR (R109). -/
def State.rxFlags (s : State) (p : Nat) (f : List Byte) (err : RxErr) : Nat :=
  b2n (!fcsGood f) + 2 * b2n (decide (f.length < 64)) + 4 * b2n (decide (s.maxFrame p < f.length)) + 8 * b2n err.pcs
    + 16 * b2n (err.fec && s.hasFec p && !s.xptGroup (p / 8))

/-- Counter of each flag: RX_FCS_ERR, RX_RUNT, RX_OVERSIZE, RX_PCS_ERR, RX_FEC_UNCORR. -/
def flagItem (i : Nat) : Nat := [6, 5, 7, 9, 10].getD i 0

def State.countFlags (s : State) (p flags : Nat) : State :=
  (List.range 5).foldl (fun s i => if bit flags i then s.bump (macCtr (flagItem i)) p else s) s

/-- A received MAC control frame (R83). -/
def State.gotControl (s : State) (p : Nat) (f : List Byte) : State :=
  if f.length ≠ 64 then s.bump (macCtr 11) p
  else if be16 f 14 = 1 then s.gotPause p (be16 f 16)
  else if be16 f 14 = 0x0101 then s.gotPfc p (be16 f 16 % 256) ((List.range 8).map fun i => be16 f (18 + 2 * i))
  else s.bump (macCtr 11) p

/-! ### Stamp (R28, R321, R337) -/

/-- PAIR_ID of a partition (R358). -/
def State.pairId (s : State) (part : Nat) : Nat := s.regF 0x02C00000 (8 + 8 * part) 8

/-- Receive stamp of a port in quanta: master time less RX_ADJ in 1/16 ns. -/
def State.rxStamp (s : State) (p : Nat) : Nat :=
  ((s.now : Int) - signed 16 (s.regF (0x02800100 + 8 * p) 0 16) * 4096).toNat

/-- The packet as the ingress slice stamps it; `seq` is the frame's number. -/
def State.stamp (s : State) (p seq : Nat) (f : List Byte) : Pkt :=
  let part := s.portPart p
  let ep := (s.epochs part).cur
  let t := s.rxStamp p
  { pp := { epoch := s.epochNum part ep, length := f.length, inPort := p, tns := nsOf t, tsec := secOf t % 256
            pairId := if s.isOn .twin then s.pairId part else 0
            claim := if s.isOn .twin then (s.claim part).num else 0
            seq := seq }
    data := f, ep := ep, part := part, modes := s.modesOn, arrived := t }

/-! ### Steering (R58, R59) -/

/-- The frame enters slice `k`; none when a split port's steering buffer cannot take it. -/
def State.steerIn (s : State) (p k : Nat) (f : List Byte) : Option State :=
  let held := s.steerNow k
  let n := 2 * f.length
  if s.isSplit p && decide (2 * 262144 < held.1 + n) then none
  else
    let now := if s.isSplit p then (held.1 + n, held.2, s.cyc) else (held.1, held.2 + n, s.cyc)
    some { s with switch := { s.switch with steer := s.switch.steer.put (0, 0, 0) k now } }

/-! ### Numbering of a twin pair (R338) -/

def State.twinCfg (s : State) : Nat := s.reg 0x02C00000
def State.unit1 (s : State) : Bool := bit s.twinCfg 0

/-- The unit leads the numbering of a partition's ports. -/
def State.leads (s : State) (p : Nat) : Bool :=
  s.twin.pair == 0 || s.twin.pair == 3 || (s.claim p).num != 0 || ((s.claim p).peerClaim == 0 && !s.unit1)

/-- Frames of the port are withheld after stamping (R338). -/
def State.seqWithheld (s : State) (p : Nat) : Bool :=
  s.isOn .twin && !s.leads (s.portPart p) && (s.port p).seqSt != 2

/-! ### Ends of the fast path -/

/-- Staging space that a port may occupy, in bytes (R226). -/
def State.stageCap (s : State) (p : Nat) : Nat := min 2048 (max 16 (s.regF (0x01C00100 + 4 * p) 0 12)) * 1024

/-- What a port holds of the staging buffer of slice `k`, and the buffer, have room for `n` more bytes (R218, R226). -/
def State.stageFits (s : State) (p k n : Nat) : Bool :=
  decide (stagedBytes (s.stagingOf k) + n ≤ 2097152) && decide (s.stagedOf k p + n ≤ s.stageCap p)

/-- The source of a punted packet's mirror copy goes through the staging buffer of its slice to Caravan's first stage (log 113). -/
def State.stageMirror (s : State) (k : Nat) (pkt : Pkt) : State :=
  let p := pkt.pp.inPort
  if s.stageFits p k pkt.data.length then
    (s.takeRef pkt.part pkt.ep).updStaging k (· ++ [{ pkt with sb := { pkt.sb with polEn := false, copy := false } }])
  else s.bump ⟨0x0E, 2, 2⟩ p

/-- A punted packet passes its action-word policer and asks for its mirror copy; then it goes to the Byway (R179, R282). -/
def State.puntPkt (s : State) (k : Nat) (p : Punt) : State :=
  let pkt := p.pkt
  let r := if pkt.sb.polEn then s.police pkt.sb.policer pkt.pp else (s, pkt.pp, false)
  if r.2.2 then (r.1.capturePkt 3 pkt).dropRef pkt
  else
    let pkt := { pkt with pp := { r.2.1 with kind := kindPunt } }
    let s := if pkt.sb.mirrorEn then r.1.stageMirror k pkt else r.1
    s.punt (s.puntMap pkt.part p.reason) { p with pkt := pkt }

/-- A punt out of slice `k`. -/
def State.slicePunt (s : State) (k : Nat) (p : Punt) : State :=
  ((s.puntPkt k p).takeSlot k 0 p.pkt.part).perfEvent k 7 1 (some p.pkt.part)

/-- A drop in slice `k` at a capture point. -/
def State.sliceDrop (s : State) (k point : Nat) (pkt : Pkt) : State :=
  ((s.capturePkt point pkt).dropRef pkt).takeSlot k 1 pkt.part

/-- A follower's port that is not ALIGNED: its frame is dropped after the stamp, in a slot that counts as WASTED; the stamped packet
updates its flow-state record (R338, R360, R428). -/
def State.withhold (s : State) (p k : Nat) (pkt : Pkt) : State :=
  (((s.bump ⟨0x15, 1, 0⟩ p).flowUpdate pkt.part pkt.pp pkt.arrived 0 false).dropRef pkt).takeSlot k 1 pkt.part

/-- A forwarded frame enters the staging buffer whole, or is dropped (R218). -/
def State.stage (s : State) (p k : Nat) (pkt : Pkt) : State :=
  if !s.stageFits p k pkt.data.length then
    (((s.bump ⟨0x0E, 2, 2⟩ p).capturePkt 4 pkt).dropRef pkt).takeSlot k 3 pkt.part
  else ((s.updStaging k (· ++ [pkt])).takeSlot k 0 pkt.part).pauseCheck p

/-! ### Parse outcomes (R128) -/

/-- Reason code and first counter item of an outcome. -/
def endCode : WalkEnd → Nat × Nat
  | .accept => (0, 0) | .parseDepth => (2, 0) | .lenConflict => (3, 2) | .unknownNext => (4, 4) | .fragment => (5, 6)
  | .ipOptions => (6, 8) | .graphPunt => (7, 10) | .ipv4Csum => (0, 12) | .graphDrop => (0, 14)

/-- The outcome sends the frame to the Byway on this port. -/
def State.endPunts (s : State) (p : Nat) (e : WalkEnd) : Bool :=
  (endCode e).1 != 0 && !(e == .parseDepth && bit (s.parsePort p) 10) && !(e == .lenConflict && bit (s.parsePort p) 11)

/-- A walk that did not accept. -/
def State.parseEnd (s : State) (p k : Nat) (w : Walk) (pkt : Pkt) : State :=
  let s := (s.bumpPair ⟨0x04, 0, (endCode w.end_).2⟩ p pkt.data.length).flowUpdate pkt.part pkt.pp pkt.arrived 0 false
  if s.endPunts p w.end_ then
    s.slicePunt k { pkt := pkt, reason := (endCode w.end_).1, code := w.code, node := w.node, visit := w.visit, off := w.off }
  else s.sliceDrop k 1 pkt

/-! ### Lookup and actions -/

/-- Pivot-cache, stash and repeat events of a packet's searches (R424). -/
def State.lookupEvents (s : State) (k part : Nat) (keys : List Key) (r : Results) (err : RxErr) (ep : Nat) : State :=
  let s := if keys.any (·.num == 0) then
      s.drawn.perfEvent k (3 + Config.openValue s.freeCtr % 2) 1 (some part)
    else s
  let inStash := keys.any fun q => q.num == 1 &&
    let key := tblKey 4 (emName part q.width (leNat q.bytes))
    match s.visible key ep with
    | some v => s.lookup.emPlace.contains (key, v.birth, 2)
    | none => false
  let s := if r.k1.hit && inStash then s.perfEvent k 5 1 (some part) else s
  if err.tcamBad.isSome then (s.holdSlots k 180).perfEvent k 6 1 (some part) else s

/-- The ACT_MIRROR words of a session (R200). -/
def State.mirrorReg (s : State) (n i : Nat) : Nat := s.reg (0x00C01000 + 0x10 * n + 4 * i)

/-- What the ACT registers hold for a packet of the sideband's mirror session (R200). -/
def State.actsNow (s : State) (part n : Nat) : Acts :=
  { mir0 := s.mirrorReg n 0, mir1 := s.mirrorReg n 1, mir2 := s.mirrorReg n 2
    mapMirror := s.puntMap part reasonMirror, mapCopy := s.puntMap part reasonActionCopy }

/-- An accepted packet: keys, searches, actions and what follows (R136, R139, R179). -/
def State.lookAndAct (s : State) (p k : Nat) (w : Walk) (err : RxErr) (pkt : Pkt) : State :=
  let dev := s.deviceBytes p pkt.data w pkt.pp.hash
  let keys := s.buildKeys p w.ptype (w.vec ++ dev)
  let r := s.search pkt.part pkt.ep keys err
  let s := r.1.lookupEvents k pkt.part keys r.2 err pkt.ep
  let d := s.act p w dev r.2 err pkt
  let s := d.1.flowUpdate pkt.part d.2.pkt.pp pkt.arrived (byteAt dev 21) (d.2.fate == .forward)
  let out := { d.2.pkt with acts := s.actsNow pkt.part d.2.pkt.sb.mirrorSession }
  match d.2.fate with
  | .drop item =>
    let s := match item with | some i => s.bump ⟨0x06, 0, i⟩ p | none => s
    s.sliceDrop k 2 pkt
  | .punt reason code => s.slicePunt k { pkt := out, reason := reason, code := code }
  | .forward => s.stage p k out

/-- A good frame that is no MAC control frame (R58, R120, R133). -/
def State.goodFrame (s : State) (p seq : Nat) (f : List Byte) (err : RxErr) : State :=
  let w := s.walk p f
  let hash := s.flowHash p f w
  let k := portSlice p + (if s.isSplit p then hash % 2 else 0)
  if !s.sliceOn k then s else
  match s.steerIn p k f with
  | none => s.bump (macCtr 17) p
  | some s =>
    let s := s.takeRef (s.portPart p) (s.epochs (s.portPart p)).cur
    let pkt := s.stamp p seq f
    let pkt := { pkt with pp := { pkt.pp with hash := hash } }
    if s.seqWithheld p then s.withhold p k pkt else
    let s := s.perfEvent k 2 w.visit (some (s.portPart p))
    if w.end_ = .accept then s.lookAndAct p k w err pkt else s.parseEnd p k w pkt

/-- A frame with error flags (R81, R82). -/
def State.badFrame (s : State) (p seq flags : Nat) (f : List Byte) : State :=
  let s := s.countFlags p flags
  if bit (s.macCfg p) 14 then
    let k := portSlice p
    if !s.sliceOn k then s else
    match s.steerIn p k f with
    | none => s.bump (macCtr 17) p
    | some s =>
      let s := s.takeRef (s.portPart p) (s.epochs (s.portPart p)).cur
      if s.seqWithheld p then s.withhold p k (s.stamp p seq f)
      else
        let pkt := s.stamp p seq f
        (s.flowUpdate pkt.part pkt.pp pkt.arrived 0 false).slicePunt k { pkt := pkt, reason := reasonBad, err := flags }
  else
    let k := s.stamp p seq f
    s.captureAt 0 k.part { k.pp with version := 0, epoch := 0, length := 0, pairId := 0, claim := 0 } f

/-- What the PCS and FEC of a line port count (R61, R64, R78). -/
def State.countFec (s : State) (p : Nat) (err : RxErr) : State :=
  if !s.hasFec p then s else
  let s := (s.bumpNz ⟨2, 1, 0⟩ p err.corrCw).bumpNz ⟨2, 1, 1⟩ p err.uncorrCw
  (err.symErrs.take (s.lanesOf p).length).zipIdx.foldl (fun s (n, i) => s.bumpNz ⟨2, 0, 1⟩ (p + i) n) s

/-- What the PCS and FEC count of a frame; the FEC of a framer line's interface does not belong to a client's frame (R109). -/
def State.countLine (s : State) (p : Nat) (err : RxErr) : State :=
  let s := s.bumpNz ⟨2, 1, 2⟩ p err.errBlocks
  if s.xptGroup (p / 8) then s else s.countFec p err

/-- Codewords and blocks that no frame meets, on the line port whose first lane is `p`, a framer line too (R78, R115; log 39). -/
def State.idleLine (s : State) (p : Nat) (err : RxErr) : State :=
  if !(s.lanesAll p .pcsUp || s.lanesAll p .rxLock) || s.chip.d2dDown then s
  else (s.bumpNz ⟨2, 1, 2⟩ p err.errBlocks).countFec p err

/-- A frame that the MAC delimits on the port takes its classes and checks (R81, R82). -/
def State.gotFrame (s : State) (p : Nat) (data : List Byte) (err : RxErr) : State :=
  let seq := (s.port p).seq
  let s := s.countLine p err
  let s := s.takeSeq p data.length (leNat (data.drop (data.length - 4)))
  let bad (item : Nat) : State :=
    let k := s.stamp p seq data
    (s.bump (macCtr item) p).captureAt 0 k.part { k.pp with version := 0, epoch := 0, length := 0, pairId := 0, claim := 0 } data
  if err.jabber || decide (16383 < data.length) then bad 8
  else if data.length < 18 then bad 4
  else
    let flags := s.rxFlags p data err
    if flags ≠ 0 then s.badFrame p seq flags data else
    let s := s.bumpPair (macCtr 0) p data.length
    if be16 data 12 = 0x8808 then s.gotControl p data else s.goodFrame p seq data err

/-- R81: a frame delimited by a line MAC; no bytes stand for an interval without a frame. A framer client receives the oldest frame
that the framer has recovered (R109). Under near-end loopback the port receives the oldest frame that it has sent and not what
the line brings; under far-end loopback the line gets the frame back (R74). -/
def execFrameReceived (dt : Nat) (port : Fin 48) (data : List Byte) (err : RxErr) (s : State) :
    Host.Outcome State Fault Refusal :=
  let s := s.pass dt
  let p := port.val
  if data = [] then ans (s.idleLine p err)
  else if !s.portUp p || s.chip.d2dDown then ans s
  else if s.xptGroup (p / 8) then
    match (s.client p).rxFrames with
    | [] => ans s
    | (f, bad) :: t => ans ((s.updClient p fun c => { c with rxFrames := t }).gotFrame p f { err with pcs := err.pcs || bad })
  else if s.loopback p = 1 then
    match (s.port p).looped with
    | [] => ans s
    | f :: t => ans ((s.updPort p fun u => { u with looped := t }).gotFrame p f err)
  else if s.loopback p = 2 then ans ((s.updEgress p fun e => { e with lastTx := data }).gotFrame p data err)
  else ans (s.gotFrame p data err)

end Sys2Proof.Machine
end

