-- ==== Sys2Proof/Machine/Switch.lean ====
section
/-! DEFINITION. The switch core (08_rooms_and_switch_core.md): routes and discards (R18, R41, R51, R224, R239), landing buffers (R220),
the crossbar and its matching (R221 to R223), ECN marking at outputs (R225), the dedup window (R355), and flit errors (R16).
The spec does not say which writer port takes a packet: it is chosen by queue or group (DESIGN CHOICE, log 13). -/

namespace Sys2Proof.Machine

/-! ### Places -/

/-- Buffer of an output in bytes; the punt store takes whole frames or drops them (R189, R221). -/
def outCap (out : Nat) : Nat := if 24 ≤ out ∧ out < 32 then 1048576 else if out = 33 then 33554432 else 524288

/-- The writer port that takes a packet of a queue or group (log 13). -/
def writerOf (q : Nat) : Nat := q % 8

/-! ### Routes (R18, R41, R224, R239) -/

def State.ownEndpoint (s : State) : Nat := s.regF 0x01C01000 0 12

/-- A group whose capability word named `ep` as the direct peer when the link came UP (R41). -/
def State.isPeer (s : State) (ep : Nat) : Bool := (List.range 24).any fun j => (s.link j).peer == some ep

/-- Candidate links of an endpoint for a packet that entered under FABRIC or under DIRECT (R239). -/
def State.candidates (s : State) (fabric : Bool) (ep : Nat) (multi : Bool) : List Nat :=
  let mask := if fabric then s.fabric.reach.get 0 ep else 0xFFFFFF
  (List.range 24).filter fun j => bit mask j && (s.link j).st == .up && (!multi || decide (2 ≤ (s.link j).version))

/-- Where a packet for an endpoint goes; `lost` for want of a twin link (R224, R336). -/
inductive Route where
  | out (output : Nat)
  | fabricOff
  | unreachable
  | lost
deriving DecidableEq, Repr

/-- Route of packet `k` to an endpoint: the modes are those under which it entered (R40). -/
def State.routeTo (s : State) (k : Pkt) (ep q : Nat) (multi : Bool) : Route :=
  if ep = s.ownEndpoint then .out (24 + writerOf q)
  else if k.under .fabric || (k.under .direct && s.isPeer ep) then
    let c := s.candidates (k.under .fabric) ep multi
    match (c.drop (bits k.pp.hash 1 15 * c.length / 32768)).head? with
    | some j => .out j
    | none => .unreachable
  else .fabricOff

/-- The twin transmit output while a twin group is UP (R336). -/
def State.twinRoute (s : State) : Route := if (s.link 24).st == .up || (s.link 25).st == .up then .out 32 else .lost

/-- Route of a packet; one from the fabric or the twin link is for this device. -/
def State.routePkt (s : State) (input : Nat) (k : Pkt) : Route :=
  let q := if k.pp.kind = kindMulticast then k.pp.dest else k.pp.queue
  if 4 ≤ input ∧ input ≤ 28 then .out (24 + writerOf q)
  else match k.via with
    | .passport => s.routeTo k k.pp.endpoint q false
    | .endpoint ep => s.routeTo k ep q true
    | .host _ _ => .out 33
    | .twin => s.twinRoute

/-- The packet crosses from one partition to a queue of the other on this device (R51); it entered under PARTITION (R40). -/
def State.crosses (s : State) (k : Pkt) : Bool :=
  k.under .partition && k.via == .passport && k.pp.endpoint == s.ownEndpoint && s.queuePart k.pp.queue != k.part

/-- Discard a packet at the switch core. -/
def State.coreDrop (s : State) (k : Pkt) : State := (s.capturePkt 5 k).dropRef k

/-! ### Dedup (R355) -/

/-- Key of a window: pair id, ingress port, partition of the destination. -/
def windowKey (pair port part : Nat) : Nat := (pair * 256 + port) * 2 + part

def State.windowAge (s : State) : Nat := max 1 (s.regF 0x02C00004 16 8) * cycMs

/-- The window's answer: 0 accepted, 1 DUP_DISCARD, 2 DUP_OLD, with the window after it. -/
def Window.test (w : Window) (n now : Nat) : Nat × Window :=
  let d := (n + 2 ^ 40 - w.h) % 2 ^ 40
  let e := (w.h + 2 ^ 40 - n) % 2 ^ 40
  if 0 < d ∧ d < 2 ^ 39 then (0, { h := n, marks := (w.marks * 2 ^ min d 4096 + 1) % 2 ^ 4096, last := now })
  else if e ≤ 4095 then
    if bit w.marks e then (1, w) else (0, { w with marks := w.marks ||| 2 ^ e, last := now })
  else (2, w)

/-- Partition of a packet's destination: of its queue, or its group. -/
def State.destPart (s : State) (k : Pkt) : Nat :=
  s.queuePart (if k.pp.kind = kindMulticast then k.pp.dest else k.pp.queue)

/-- Test a packet; `false` when it has been discarded. -/
def State.dedup (s : State) (k : Pkt) : State × Bool :=
  if k.pp.pairId = 0 ∨ 1 < k.pp.kind ∨ !(s.isOn .twin || s.isOn .fabric || s.isOn .direct) then (s, true) else
  let part := s.destPart k
  let key := windowKey k.pp.pairId k.pp.inPort part
  let put (s : State) (w : Window) : State := { s with twin := { s.twin with windows := s.twin.windows.ins key w } }
  let fresh : Window := { h := k.pp.seq, marks := 1, last := s.cyc }
  match s.twin.windows.find? key with
  | none => (put s fresh, true)
  | some w =>
    if w.last + s.windowAge ≤ s.cyc then (put s fresh, true) else
    match w.test k.pp.seq s.cyc with
    | (0, w') => (put s w', true)
    | (r, _) => (((s.bump ⟨0x15, 0, r - 1⟩ (part * 256 + k.pp.pairId)).capturePkt 7 k).dropRef k, false)

/-- R355: a window that has accepted nothing for WINDOW_AGE_MS becomes empty. -/
def execDedupWindowAge (dt : Nat) (pairId : Fin 256) (inPort : Fin 256) (p : Fin 2) (s : State) :
    Host.Outcome State Fault Refusal :=
  let s := s.pass dt
  let key := windowKey pairId inPort p
  match s.twin.windows.find? key with
  | none => ans s
  | some w =>
    if w.last + s.windowAge ≤ s.cyc then ans { s with twin := { s.twin with windows := s.twin.windows.del key } } else ans s

/-! ### Output buffers and marking (R225) -/

/-- Bytes of a transfer that have crossed. -/
def Xfer.sent (x : Xfer) : Nat := 64 * (ceilDiv x.pkt.data.length 64 - x.cells)

/-- Depth of an output buffer in bytes. -/
def State.outBytes (s : State) (out : Nat) : Nat :=
  stagedBytes (s.outputOf out)
    + ((s.switch.xfers.filter fun x => pointOutput x.2.out == out).map fun x => x.2.sent).foldl (· + ·) 0

/-- CE when the output's depth exceeds its threshold and the packet is ECT (R225). -/
def State.markAt (s : State) (out : Nat) (k : Pkt) : State × Pkt :=
  let t := if out < 24 then s.regF 0x01C00004 0 10 else s.regF 0x01C00004 10 11
  let never := if out < 24 then 512 else 1024
  if 31 < out ∨ never ≤ t ∨ s.outBytes out ≤ t * 1024 ∨ ¬ (k.pp.ecn = 1 ∨ k.pp.ecn = 2) then (s, k)
  else (s.bump ⟨0x0E, 4, 0⟩ out, { k with pp := { k.pp with ecn := 3 } })

/-! ### Cells (R234 to R236) -/

/-- Bytes of passport that a packet's first cell carries. -/
def passBytes (v : Nat) : Nat := if v = 1 then 0 else if v = 2 then 24 else 32

/-- Payload bytes of a full cell. -/
def cellPayload (v : Nat) : Nat := if v = 1 then 56 else if v = 2 then 240 else 496

/-- Bytes of the next cell of a packet with `n` payload bytes left. -/
def cellBytes (v n : Nat) : Nat :=
  if v = 1 then 64 else if v = 2 then 256 else 64 * max 2 (ceilDiv (min 496 n + 16) 64)

/-- A packet of an output takes this group: of two twin groups in UP, by hash bit 17 (R336). -/
def State.takesGroup (s : State) (j : Nat) (k : Pkt) : Bool :=
  if j < 24 then true
  else if (s.link 24).st == .up && (s.link 25).st == .up then bit k.pp.hash 17 == (j == 25)
  else true

/-- Heads of a group's four FIFOs, by TC[2:1] from the highest (R240). -/
def State.fifoHeads (s : State) (j : Nat) : List Pkt :=
  [3, 2, 1, 0].filterMap fun f =>
    (s.outputOf (linkOutput j)).find? fun k => k.pp.tc / 2 == f && s.takesGroup j k

/-- Credit units that the cells which could be sent next need (R241). -/
def State.nextNeeds (s : State) (j : Nat) : List Nat :=
  let l := s.link j
  match l.sending with
  | some (_, bs) => [cellBytes l.version bs.length / 64]
  | none => (s.fifoHeads j).map fun k => cellBytes l.version (passBytes l.version + k.data.length) / 64

/-- Since when waiting data lacks credit; a recovery allows FAB_CREDIT_STALL again (R242). -/
def State.noteCredit (s : State) (j : Nat) : State :=
  let needs := s.nextNeeds j
  let l := s.link j
  let short := l.st == .up && !needs.isEmpty && needs.all fun n => decide (l.credit < n)
  s.updLink j fun l =>
    if short then { l with shortSince := some (l.shortSince.getD s.cyc) } else { l with shortSince := none, stalled := false }

/-- A packet has joined an output buffer. -/
def State.noteOutput (s : State) (out : Nat) : State :=
  if out < 24 then s.noteCredit out else if out = 32 then (s.noteCredit 24).noteCredit 25 else s

/-- A packet is complete at an output. A local one passes the dedup window first (R355); one for the host goes to the punt store. -/
def State.deliverOut (s : State) (out : Nat) (localIn : Bool) (k : Pkt) : State :=
  match k.via with
  | .host reason code =>
    s.punt (if reason = reasonMirror then k.acts.mapMirror else k.acts.mapCopy) { pkt := k, reason := reason, code := code }
  | _ =>
    if localIn && decide (24 ≤ out) && decide (out < 32) then
      match s.dedup k with
      | (s, true) => s.updOutput out (· ++ [k])
      | (s, false) => s
    else (s.updOutput out (· ++ [k])).noteOutput out

/-! ### Landing buffers (R220) -/

/-- Bytes that packets take in an input: a source and its copies take the space of the longest. -/
def heldBytes (l : List Pkt) : Nat :=
  stagedBytes (l.filter (·.grp == 0))
    + (((l.map (·.grp)).eraseDups.filter (· != 0)).map fun g =>
        ((l.filter (·.grp == g)).map (·.data.length)).foldl max 0).foldl (· + ·) 0

/-- Bytes that an input holds, with the packets that are crossing. -/
def State.inBytes (s : State) (input : Nat) : Nat :=
  heldBytes (s.inputOf input ++ (s.switch.xfers.filter fun x => pointInput x.2.inp == input).map (·.2.pkt))

/-- R220, R281: the frame at the head of a slice's staging buffer crosses when the landing buffer has space, and passes its
policer. -/
def execStagingToLanding (dt : Nat) (slice : Fin 4) (s : State) : Host.Outcome State Fault Refusal :=
  let s := s.pass dt
  let i := slice.val
  match s.stagingOf i with
  | [] => ans s
  | k :: rest =>
    if s.chip.d2dDown || decide (65536 < s.inBytes i + k.data.length) then ans s else
    let s := (s.updStaging i fun _ => rest).pauseCheck k.pp.inPort
    let r := if k.sb.polEn then s.police k.sb.policer k.pp else (s, k.pp, false)
    if r.2.2 then ans ((r.1.capturePkt 3 k).dropRef k) else ans (r.1.enterCore i { k with pp := r.2.1 })

/-! ### The crossbar (R222, R223) -/

/-- Packets of an input that may be requested: the first LOOKAHEAD of a landing buffer, the head of another input; none at or behind a
packet that waits for the first stage. -/
def State.window (s : State) (input : Nat) : List Pkt :=
  let n := if input < 4 then min 16 (max 1 (s.regF 0x01C00000 0 5)) else 1
  ((s.inputOf input).takeWhile fun k => !k.first).take n

/-- Counter of a group (R201). -/
def groupCtr (item : Nat) : CtrName := ⟨0x0C, 0, item⟩

/-- A packet or a copy that no output takes is counted: of a multicast copy the group's FAIL_UNREACHABLE, with FABRIC_OFF under R41
(R196); the want of a twin link in TWIN_LINK_DROP (R336). -/
def State.countLost (s : State) (k : Pkt) (r : Route) : State :=
  let multi := k.pp.kind == kindMulticast
  match r with
  | .out _ => s
  | .lost => s.bump ⟨0x15, 2, 2⟩ 0
  | .unreachable => if multi then s.bump (groupCtr 5) k.pp.dest else s.bump ⟨0x0E, 3, 0⟩ 0
  | .fabricOff => (if multi then s.bump (groupCtr 5) k.pp.dest else s).bump ⟨0x0E, 3, 2⟩ 0

/-- Remove what the switch core discards from an input's window (R41, R51, R224). -/
def State.purgeInput (s : State) (input : Nat) : State :=
  let loc := decide (input < 4) || input == 29
  (s.window input).foldl (fun s k =>
    if loc && s.crosses k then ((s.updInput input fun l => l.erase k).bump ⟨0x0E, 3, 3⟩ 0).coreDrop k
    else match s.routePkt input k with
    | .out _ => s
    | r => ((s.updInput input fun l => l.erase k).countLost k r).coreDrop k) s

/-- Outputs for which an input has a requestable packet, each with the first packet to it. -/
def State.requests (s : State) (input : Nat) : List (Nat × Pkt) :=
  (s.window input).foldl (fun acc k =>
    match s.routePkt input k with
    | .out o => if acc.any (·.1 == o) then acc else acc ++ [(o, k)]
    | _ => acc) []

/-- First element at or after `ptr` in cyclic order. -/
def firstFrom (ptr : Nat) (l : List Nat) : Option Nat :=
  match l.find? (ptr ≤ ·) with
  | some x => some x
  | none => l.head?

/-- Matching of one cell time: pairs of input and output points, and the pointers. -/
structure Matching where
  pairs : List (Nat × Nat) := []
  grant : NMap Nat
  accept : NMap Nat
deriving DecidableEq, Repr

/-- One request-grant-accept iteration; `want i o`: input point `i` asks for output point `o`. -/
def Matching.iterate (m : Matching) (want : Nat → Nat → Bool) (freeOut : List Nat) (first : Bool) : Matching :=
  let ins := (List.range 39).filter fun i => !m.pairs.any (·.1 == i)
  let outs := freeOut.filter fun o => !m.pairs.any (·.2 == o)
  let taken (i o : Nat) : Bool :=
    m.pairs.any fun q => pointInput q.1 == pointInput i && pointOutput q.2 == pointOutput o
  let grants := outs.filterMap fun o =>
    (firstFrom (m.grant.get 0 o) (ins.filter fun i => want i o && !taken i o)).map fun i => (i, o)
  ins.foldl (fun m i =>
    let offers := (grants.filter fun g => g.1 == i && !m.pairs.any fun q =>
      pointInput q.1 == pointInput i && pointOutput q.2 == pointOutput g.2).map (·.2)
    match firstFrom (m.accept.get 0 i) offers with
    | none => m
    | some o =>
      let m := { m with pairs := m.pairs ++ [(i, o)] }
      if first then
        { m with grant := m.grant.put 0 o ((i + 1) % 39), accept := m.accept.put 0 i ((o + 1) % 43) }
      else m) m

/-- Input point `i` asks for output point `o`: a packet that has begun keeps its two points, and while it crosses its input asks for
that output with no other packet (R222). -/
def State.wants (s : State) (req : List (List Nat)) (i o : Nat) : Bool :=
  match List.find? (fun x => pointInput x.2.inp == pointInput i && pointOutput x.2.out == pointOutput o) s.switch.xfers with
  | some (_, x) => x.inp == i && x.out == o
  | none => (req.getD (pointInput i) []).contains (pointOutput o)

/-- The output's buffer has space for one further cell. -/
def State.outRoom (s : State) (out : Nat) : Bool := decide (s.outBytes out + 64 ≤ outCap out)

/-- The pairs of one cell time, of all points (R223). -/
def State.matching (s : State) : Matching :=
  let freeOut := (List.range 43).filter fun o => s.outRoom (pointOutput o)
  let want := s.wants ((List.range 30).map fun i => (s.requests i).map (·.1))
  let m0 : Matching := { grant := s.switch.grantPtr, accept := s.switch.acceptPtr }
  ((m0.iterate want freeOut true).iterate want freeOut false).iterate want freeOut false

/-- The first cell of a packet is granted: the packet is marked by the depth at this instant (R225). -/
def State.beginXfer (s : State) (pair : Nat × Nat) : State :=
  let input := pointInput pair.1
  match (s.requests input).find? (·.1 == pointOutput pair.2) with
  | none => s
  | some (out, k) =>
    let r := s.markAt out k
    let s := r.1.updInput input fun l => l.erase k
    { s with switch := { s.switch with
        xfers := s.switch.xfers.ins (pair.1 * 64 + pair.2)
          { inp := pair.1, out := pair.2, cells := ceilDiv r.2.data.length 64, pkt := r.2 } } }

/-- One cell of a packet crosses when its output has room. -/
def State.moveCell (s : State) (x : Xfer) : State :=
  let out := pointOutput x.out
  let key := x.inp * 64 + x.out
  if !s.outRoom out then s
  else if 1 < x.cells then
    { s with switch := { s.switch with xfers := s.switch.xfers.ins key { x with cells := x.cells - 1 } } }
  else
    let s := { s with switch := { s.switch with xfers := s.switch.xfers.del key } }
    let input := pointInput x.inp
    (s.freeRx x.pkt).deliverOut out (decide (input < 4) || input == 29) { x.pkt with rxUnits := 0, grp := 0 }

/-- A matched pair carries one cell: of the packet that has begun on it, else the first cell of a packet. -/
def State.carryCell (s : State) (pair : Nat × Nat) : State :=
  let key := pair.1 * 64 + pair.2
  let s := if (s.switch.xfers.find? key).isSome then s else s.beginXfer pair
  match s.switch.xfers.find? key with
  | some x => s.moveCell x
  | none => s

/-- R223: one matching, then one cell of every matched pair. -/
def execSwitchCellTime (dt : Nat) (s : State) : Host.Outcome State Fault Refusal :=
  let s := s.pass dt
  let s := (List.range 30).foldl State.purgeInput s
  let m := s.matching
  let s := { s with switch := { s.switch with grantPtr := m.grant, acceptPtr := m.accept } }
  ans (m.pairs.foldl State.carryCell s)

/-! ### The die-to-die link (R16) -/

/-- R16: a flit is resent; after 16 failed resends of one flit the link is down. -/
def execD2dFlitCrcFail (dt : Nat) (sameFlit : Bool) (s : State) : Host.Outcome State Fault Refusal :=
  let s := s.pass dt
  if s.chip.d2dDown then ans s else
  let n := if sameFlit then s.chip.d2dFails + 1 else 0
  let s := { s with chip := { s.chip with d2dFails := n } }
  if 16 ≤ n then ans ({ s with chip := { s.chip with d2dDown := true } }.raise 0 evD2dDown)
  else ans (s.bump ⟨0x16, 2, 0⟩ 0)

end Sys2Proof.Machine
end

