-- ==== Sys2Proof/Machine/Inn.lean ====
section
/-! DEFINITION. The Innkeeper (08_rooms_and_switch_core.md): rooms, chains and pools (R202 to R205), freeing and its checks (R206 to
R208), quarantine and audit (R209), the cellar (R210 to R216), retired rooms and pages (R306), and the INN commands. Which free
room or page an allocation takes is open (log 8). -/

namespace Sys2Proof.Machine

/-! ### Spill and pull (R211 to R216) -/

/-- Spill applies to the queue now. -/
def State.spills (s : State) (q : Queue) : Bool := s.isOn .cellar && q.spillEn

/-- Rooms of the tail beyond what stays in rooms. -/
def Queue.tailRooms (q : Queue) : Nat := if q.cpages.isEmpty then q.allRooms - 16 * q.spillPages else q.tRooms

/-- The queue waits to spill a page (R211). -/
def State.spillDue (s : State) (u : Queue) : Bool :=
  s.spills u && decide (u.spillPages * 4096 < u.depth) && decide (16 ≤ u.tailRooms) && decide (16 * u.spillPages + 16 ≤ u.allRooms)

/-- Rooms that a pull of a page needs from each chain: chain, rooms already in H, number to allocate. -/
def State.pullNeeds (s : State) (u : Queue) (n : Nat) : List (Nat × Nat × Nat) :=
  let h := u.hRooms
  (unitsIn h h (h + n) 0 u.pkts).map fun (k, m, hIn) =>
    (k.chain, hIn, min m ((s.chain k.chain).count - (s.chainRooms k.chain).length))

/-- The chains' own pools that cannot give what the pull needs (R205). -/
def State.pullShort (s : State) (needs : List (Nat × Nat × Nat)) : List Nat :=
  (needs.map fun e => (s.chain e.1).pool).dedup.filter fun p =>
    !s.poolHas p (((needs.filter fun e => (s.chain e.1).pool == p).map fun e => e.2.2).foldl (· + ·) 0) true

/-- Every pool can give what the pull needs. -/
def State.pullFits (s : State) (needs : List (Nat × Nat × Nat)) : Bool := (s.pullShort needs).isEmpty

/-- Give a chain `n` new rooms after its first `hIn`. -/
def State.growChain (s : State) (c hIn n : Nat) : State :=
  let p := (s.chain c).pool
  let l := s.chainRooms c
  let t := (s.updPool p fun q => { q with used := q.used + n }).takeRooms (s.poolPart p) c n
  t.1.linkRooms c (l.take hIn ++ t.2 ++ l.drop hIn)

/-- The queue's oldest page is to be pulled: H is below PULL_AHEAD (R212). -/
def Queue.pullDue (u : Queue) : Bool := !u.cpages.isEmpty && decide (u.hRooms < 16 * u.pullAheadActs)

/-- A page of `n` rooms' worth can be pulled now: rooms for it, within the limit of R214. -/
def State.pullOpen (s : State) (part : Nat) (u : Queue) : Bool :=
  u.pullDue && s.trafficFits part 1 32768 && s.pullFits (s.pullNeeds u ((u.cpages.map (·.2)).headD 0))

/-- H of `u` runs out before H of `v` at the guaranteed rates (R214). -/
def Queue.runsOutBefore (u v : Queue) : Bool := decide (u.hRooms * v.gRate < v.hRooms * u.gRate)

/-- Some other queue's pull comes before the pull of `u`; before a spill, any does (R214). -/
def State.pullBefore (s : State) (part : Nat) (u : Option Queue) : Bool :=
  s.tm.queues.any fun (n, v) => s.queuePart n == part && u.all v.runsOutBefore && s.pullOpen part v

/-- The spill turn is queue `q`'s: round-robin among the queues of the partition that wait to spill (R214). -/
def State.spillsNow (s : State) (part q : Nat) : Bool :=
  let dist (n : Nat) : Nat := (n + 2 ^ 21 - s.inn.spillTurn.get (2 ^ 20 - 1) part - 1) % 2 ^ 20
  s.tm.queues.all fun (n, v) => s.queuePart n != part || !s.spillDue v || decide (dist q ≤ dist n)

/-- Pages of the queue that wait for a free page count in CELLAR_FULL, each once (R214). -/
def State.spillBlocked (s : State) (part q : Nat) : State :=
  let n := (s.queue q).tailRooms / 16
  ((s.bumpNz (innPart 5) part (n - (s.queue q).blocked)).updQueue q fun u => { u with blocked := n }).cellarState part true

/-- Sixteen tail rooms are copied to a page and freed; `out` says how the first of them reads. A part that reads uncorrectable loses
its packet at the head (R216, R305). -/
def State.spillPage (s : State) (part q page out : Nat) : State :=
  let u := s.queue q
  let a := if u.cpages.isEmpty then 16 * u.spillPages else u.hRooms + u.cRooms
  let h := if u.cpages.isEmpty then 16 * u.spillPages else u.hRooms
  let s := { s.drawn with inn := { s.inn with
      pages := s.inn.pages.ins page q, pageChan := s.inn.pageChan.put 7 part (page % 8), spillTurn := s.inn.spillTurn.ins part q } }
  let s := (s.noteTraffic part 0 32768).touch (s.pageUnit page)
  let s := (unitsIn h a (a + 16) 0 u.pkts).zipIdx.foldl (fun s ((k, n, hIn), i) =>
    let l := s.chainRooms k.chain
    let r := s.readChain part k.chain ((l.drop hIn).take n) (if i = 0 then out else 0)
    let s := if r.2 then r.1.updQueue q fun u =>
        { u with pkts := u.pkts.map fun p => if p.chain = k.chain then { p with poisoned := true } else p } else r.1
    if 1 < (s.chain k.chain).share then s
    else
      let s := s.linkRooms k.chain (l.take hIn ++ l.drop (hIn + n))
      s.freeRooms k.chain agentInn ((l.drop hIn).take n)) s
  (s.updQueue q fun u =>
    { u with cpages := u.cpages ++ [(page, 16)], tRooms := u.tailRooms - 16, blocked := u.blocked - 1 }).bump (innPart 3) part

/-- R211, R214: sixteen tail rooms go to a page at the end of C, in the queue's turn and within the limit; without a free page they
stay. The last free page taken raises INN_CELLAR_FULL (R227). -/
def execCellarSpill (dt : Nat) (spill : Spill) (s : State) : Host.Outcome State Fault Refusal :=
  let s := s.pass dt
  let q := spill.q.val
  let part := s.queuePart q
  if !s.spillDue (s.queue q) then ans s else
  match s.findPage part q with
  | none => ans (s.spillBlocked part q)
  | some page =>
    if !s.trafficFits part 0 32768 || s.pullBefore part none || !s.spillsNow part q then ans s else
    let s := s.spillPage part q page spill.out
    ans (if (s.findPage part q).isNone then s.cellarState part true else s)

/-- R212, R214, R216: the oldest page of C comes back into rooms at the end of H; `out` says how the page reads. -/
def execPullBack (dt : Nat) (q : Fin 1048576) (out : Fin 3) (s : State) : Host.Outcome State Fault Refusal :=
  let s := s.pass dt
  let u := s.queue q
  let part := s.queuePart q
  match u.cpages with
  | [] => ans s
  | (page, n) :: rest =>
    if !u.pullDue then ans s else
    let needs := s.pullNeeds u n
    if !s.pullFits needs then
      if u.pullStalled then ans s
      else
        let s := (s.pullShort needs).foldl (fun s p => s.bump ⟨0x0E, 0, 1⟩ p) s
        ans (s.updQueue q fun u => { u with pullStalled := true })
    else if !s.trafficFits part 1 32768 || s.pullBefore part (some u) then ans s
    else
      let o := if s.inn.poisonPages.contains page then 2 else out.val
      let h := u.hRooms
      let hit := (unitsIn h h (h + n) 0 u.pkts).map (·.1)
      let s := needs.foldl (fun s (c, hIn, m) => s.growChain c hIn m) (s.noteTraffic part 1 32768)
      let s := s.updQueue q fun u =>
        { u with
          cpages := rest, pullStalled := false, tRooms := if rest.isEmpty then 0 else u.tRooms
          pkts := if o = 2 then u.pkts.map fun k => if hit.contains k then { k with poisoned := true } else k else u.pkts }
      ans (((s.readOne part (s.pageUnit page) structPage page o).freePage q page (o == 2)).bump (innPart 4) part)

/-! ### Commands (R204, R209, R217) -/

/-- Rooms of a partition's pools, with pool `p` counted as `n`. -/
def State.poolSum (s : State) (part p n : Nat) : Nat :=
  ((List.range 32).map fun i => if s.poolPart i ≠ part then 0 else if i = p then n else (s.pool i).rooms).foldl (· + ·) 0

def innPoolSetBody (s : State) (c : Cmd) (x : Nat) : Out :=
  let p := bits x 0 5
  let rooms := bits x 8 29
  let reserve := bits x 40 16
  if bits x 5 3 ≠ 0 ∨ bits x 37 3 ≠ 0 ∨ bits x 56 8 ≠ 0 then .fail s stBadArg
  else if s.partOn && s.poolPart p != c.part then .fail s stProtected
  else if reserve < 16 ∧ s.tm.queues.any fun (_, q) => q.spillEn && q.pool == p then .fail s stBadArg
  else if (s.roomRange c.part).2 < s.poolSum c.part p rooms then .fail s stNoSpace
  else .ok (s.updPool p fun q => { q with rooms := rooms, reserve := reserve })

def innPoolSetSpec : OpSpec := { code := 0x0600, entryLen := fixedLen 8, batch := true, body := innPoolSetBody }

/-- R204. -/
def execInnPoolSet (i : Issue) (s : State) : Host.Outcome State Fault Refusal := ans (s.runCommand innPoolSetSpec i)


/-- Guaranteed rates of the partition's spilling queues (R215), with the rates that reductions hold (R262) or without. -/
def State.spillSum (s : State) (part : Nat) (heldToo : Bool) : Nat :=
  ((s.tm.queues.filter fun (i, q) => q.spillEn && s.queuePart i == part).map fun (_, q) =>
    if heldToo then s.heldRate q else q.gRate).foldl (· + ·) 0

def innQueueOk (s : State) (x : Nat) : Bool :=
  bits x 20 4 == 0 && bits x 30 2 == 0 && bits x 60 4 == 0 && bits x 88 40 == 0
    && !(bit x 29 && (decide (bits x 32 20 < max 1 (bits x 52 8)) || decide ((s.pool (bits x 24 5)).reserve < 16)))

def innQueueSetBody (s : State) (c : Cmd) (x : Nat) : Out :=
  let q := bits x 0 20
  let p := bits x 24 5
  if !innQueueOk s x then .fail s stBadArg
  else if s.partOn && (s.queuePart q != c.part || s.poolPart p != c.part) then .fail s stProtected
  else
    let s' := s.updQueue q fun u =>
      { u with pool := p, spillEn := bit x 29, spillPages := bits x 32 20, pullAhead := bits x 52 8, markKib := bits x 64 24 }
    if bit x 29 && decide (s'.pullLimit (s.queuePart q) < s'.spillSum (s.queuePart q) false) then .fail s stOvercommit
    else if bit x 29 && decide (s'.pullLimit (s.queuePart q) < s'.spillSum (s.queuePart q) true) then .wait s .capacity
    else .ok s'.landed

def innQueueSetSpec : OpSpec := { code := 0x0601, entryLen := fixedLen 16, batch := true, body := innQueueSetBody }

/-- R215, R217. -/
def execInnQueueSet (i : Issue) (s : State) : Host.Outcome State Fault Refusal := ans (s.runCommand innQueueSetSpec i)

def innAuditSpec : OpSpec := { code := 0x0602, entryLen := fixedLen 0, body := fun s _ _ => .wait s .audit }

/-- R209: INN_AUDIT begins its walk. -/
def execInnAudit (i : Issue) (s : State) : Host.Outcome State Fault Refusal := ans (s.runCommand innAuditSpec i)

/-- Lower INN_QUARANTINED by `n` (R209, R227). -/
def State.lowerQuarantined (s : State) (part n : Nat) : State :=
  let inst := (innPart 2).inst part
  let c := s.ctr 0x0E inst 2
  s.setCtr 0x0E inst 2 { c with backing := c.backing + c.acc - n, acc := 0 }

/-- R209: the audit ends: quarantined rooms that no live chain reaches return to their pools. -/
def execInnAuditDone (dt : Nat) (fn : Fin 2) (ring : Fin 64) (s : State) : Host.Outcome State Fault Refusal :=
  let s := s.pass dt
  if s.waitOf fn ring != some .audit then ans s else
  let part := s.partOf fn
  let live := s.inn.chains.flatMap fun (c, _) => s.chainRooms c
  let back := s.inn.quarantined.filter fun (r, p) => s.poolPart p == part && !live.contains r && !s.roomRetired r
  let s := { s with inn := { s.inn with quarantined := s.inn.quarantined.filter fun e => !back.contains e } }
  let s := back.foldl (fun s (r, p) => s.returnRoom p r false) s
  ans ((s.lowerQuarantined part back.length).endWait fn ring stOk 0 back.length [])

end Sys2Proof.Machine
end

