-- ==== Sys2Proof/Machine/Ledger.lean ====
section
/-! DEFINITION. The Ledger (10_ledger_admission.md): deadlines (R247, R248), the fixed term (R252), admission (R255 to R257, R272),
the rate conditions and held capacity (R261, R262), and the LEDGER commands (R265 to R269). -/

namespace Sys2Proof.Machine

/-! ### Deadlines (R247, R248) -/

/-- Reset deadline of a class in ns. -/
def resetDeadline (k : Nat) : Nat :=
  [2000, 5000, 10000, 20000, 50000, 100000, 200000, 500000, 1000000, 2000000, 5000000, 10000000, 20000000, 50000000,
    100000000, 500000000].getD k 0

/-- D(k) and HBM time of a partition in ns; a stored 0 stands for the reset value. -/
def State.deadlineNs (s : State) (part k : Nat) : Nat := (s.tm.deadlines.find? (part * 16 + k)).getD (resetDeadline k)
def State.hbmNs (s : State) (part : Nat) : Nat := (s.tm.hbmTime.find? part).getD 20000000

/-- D_eff in ns. -/
def State.dEff (s : State) (part k : Nat) : Nat :=
  if s.isOn .cellar then s.deadlineNs part k else min (s.deadlineNs part k) (s.hbmNs part)

/-- T_fix in quanta (R252, R254). -/
def State.tFix (s : State) (p : Nat) (q : Queue) : Nat :=
  s.tFrame p + (s.gateTerms p + 2200 + (if q.spillEn && (s.mode .cellar).st != .off then 13000 else 0)) * qNs

/-! ### The admission decision (R255 to R257) -/

def queueCtr (item : Nat) : CtrName := ⟨0x10, 0, item⟩
def schedPart (item : Nat) : CtrName := ⟨0x11, 1, item⟩

/-- Tile of a queue and the tile's domain (R271, R437). -/
def queueTile (q : Nat) : Nat := q / 65536
def tileDomain (t : Nat) : Nat := 220 + t

/-- Open time in which a charge is served at the scaled rate r_q (R274), in quanta. -/
def State.tagStep (s : State) (p rate charge : Nat) : Nat :=
  let c := s.schedClosed p
  if rate = 0 then 0 else ceilDiv (8 * charge * qNs * 1000000 * (c.2 - c.1)) (rate * c.2)

/-- Tags of a queue that becomes backlogged with a head of `len` bytes (R274). -/
def State.tagQueue (s : State) (p n len : Nat) : State :=
  let v := s.vNow p
  s.updQueue n fun u =>
    let vs := max v u.vf
    { u with vs := vs, vf := vs + s.tagStep p (s.heldRate u) (addBytes len (s.egress p).oPort) }

/-- Append an accepted packet to its queue: ECN mark (R225), counters, tags, admission time (R324). -/
def State.acceptPkt (s : State) (n p chain : Nat) (bound : Option Nat) (k : Pkt) : State :=
  let u := s.queue n
  let mark := u.markKib != 0xFFFFFF && decide (u.markKib * 1024 < u.depth) && (k.pp.ecn == 1 || k.pp.ecn == 2)
  let k := if mark then { k with pp := { k.pp with ecn := 3 } } else k
  let s := if mark then s.bump ⟨0x0E, 2, 3⟩ p else s
  let e : QPkt := { pkt := k, chain := chain, bound := bound, admitted := s.follower }
  let s := s.updQueue n fun u =>
    { u with pkts := u.pkts ++ [e], outstanding := u.outstanding + 1
             tRooms := if u.cpages.isEmpty then 0 else u.tRooms + e.units }
  let s := if u.pkts.isEmpty then s.tagQueue p n k.pp.length else s
  (s.bumpPair (queueCtr 0) n k.pp.length).tileEvent (queueTile n) 0x40

/-- What became of a packet offered to the Ledger (R197, R257, R272). -/
inductive Verdict where
  | admitted | detached | portDown | refused | noRoom
deriving DecidableEq, Repr

/-- Checks before the Ledger: the queue's attachment and its port (R272), then its tile (R439). -/
def State.attachCheck (s : State) (n : Nat) (k : Pkt) : Option State :=
  let d := tileDomain (queueTile n)
  let part := s.queuePart n
  match s.queuePort n with
  | none => some (s.bump (schedPart 0) part)
  | some p =>
    if p ≠ k.pp.port then some (s.bump (schedPart 1) part)
    else if (s.domain d).st == .quiescing then
      some ((s.bump (schedPart 2) part).updDomain d fun x => { x with dropped := x.dropped + 1 })
    else if (s.domain d).st != .on then some s
    else none

/-- Descriptors that admitted Caravan copies hold until they depart (R203). -/
def State.copiesHeld (s : State) : Nat :=
  ((s.tm.queues.map fun (_, q) => (q.pkts.filter (·.pkt.mcopy)).length).foldl (· + ·) 0)
    + (s.tm.egress.map fun (_, e) => ((e.released ++ e.edited).filter (·.pkt.mcopy)).length).foldl (· + ·) 0

/-- Steps 3 and 4: the depth limit, then rooms from the queue's pool, or the shared chain and a descriptor of a copy. The answer is
the state, the chain, and otherwise whether the limit refused. -/
def State.fits34 (s : State) (n : Nat) (copy : Option Nat) (k : Pkt) : State × (Nat ⊕ Bool) :=
  let u := s.queue n
  if u.qlimit != 0xFFFFFF && decide (u.qlimit * 1024 < u.depth + k.pp.length) then (s, .inr true)
  else match copy with
    | some c => (s, if s.copiesHeld < Config.copyDescriptors then .inl c else .inr false)
    | none =>
      match s.allocChain u.pool (roomsOf k.pp.length) with
      | (s, some c) => (s, .inl c)
      | (s, none) => (s, .inr false)

/-- A refusal that drops: capture of a packet that is no copy, and its epoch reference (R257, R427). -/
def State.ledgerDrop (s : State) (copy : Option Nat) (k : Pkt) : State :=
  ((if copy.isSome then s else s.capturePkt 6 k)).dropRef k

/-- Refusal at a queue: step 2 DEADLINE item 2, step 3 LIMIT 3, step 4 ROOM 4. -/
def State.countRefusal (s : State) (n item : Nat) : State := (s.bump (queueCtr item) n).tileEvent (queueTile n) 0x41

/-- Verdict of a refusal item. -/
def refusalOf (item : Nat) : Verdict := if item = 4 then .noRoom else .refused

/-- The packet is redirected to the queue's spill queue (R257). -/
def State.offerSpill (s : State) (n p : Nat) (copy : Option Nat) (k : Pkt) : State × Verdict :=
  let sq := (s.queue n).spillQ
  let s := s.bump (queueCtr 5) n
  match s.attachCheck sq k with
  | some s => (s.dropRef k, .detached)
  | none =>
    match s.fits34 sq copy k with
    | (s, .inl c) => (s.acceptPkt sq p c none k, .admitted)
    | (s, .inr limit) =>
      let item := if limit then 3 else 4
      ((s.countRefusal sq item).ledgerDrop copy k, refusalOf item)

/-- Refusal at step 2, 3 or 4: the queue's REFUSE setting is followed when it is promised. -/
def State.refuse (s : State) (n p item : Nat) (copy : Option Nat) (k : Pkt) : State × Verdict :=
  let u := s.queue n
  let s := s.countRefusal n item
  if decide (0 < u.gRate) && u.refuse then s.offerSpill n p copy k
  else (s.ledgerDrop copy k, refusalOf item)

/-- The admission computation of R255: finish and t_dep, in quanta of device time. -/
def State.horizonOf (s : State) (p : Nat) (u : Queue) (len : Nat) : Nat × Nat :=
  let finish := max s.follower u.horizon + frameQ (addBytes len (s.egress p).oPort) u.gRate
  (finish, finish + s.tFix p u)

/-- Offer a packet to the Ledger (R249, R255 to R257, R272); `copy` is the shared chain of a Caravan copy. -/
def State.offer (s : State) (copy : Option Nat) (k : Pkt) : State × Verdict :=
  let n := k.pp.queue
  let p := k.pp.port
  match s.attachCheck n k with
  | some s => (s.dropRef k, .detached)
  | none =>
    if !s.portUp p then
      (((s.bump (ledgerPort 0) p).tileEvent (queueTile n) 0x41).ledgerDrop copy k, .portDown)
    else
      let u := s.queue n
      let s := if k.pp.dclass != u.dclass then s.bump (ledgerPort 3) p else s
      let h := s.horizonOf p u k.pp.length
      let part := s.queuePart n
      if decide (0 < u.gRate) && decide (s.follower + s.dEff part u.dclass * qNs < h.2) then s.refuse n p 2 copy k
      else match s.fits34 n copy k with
        | (s, .inr limit) => s.refuse n p (if limit then 3 else 4) copy k
        | (s, .inl c) =>
          if u.gRate = 0 then (s.acceptPkt n p c none k, .admitted)
          else ((s.updQueue n fun q => { q with horizon := h.1 }).acceptPkt n p c (some h.2) k, .admitted)

/-! ### Rate conditions (R261) -/

/-- A queue's guaranteed rate, with held capacity or without. -/
def State.rateOf (s : State) (heldToo : Bool) (q : Queue) : Nat := if heldToo then s.heldRate q else q.gRate

/-- Sum of the rates of the queues attached below L3 node `ix`. -/
def State.queueSum (s : State) (heldToo : Bool) (ix : Nat) : Nat :=
  ((s.tm.queues.filter fun (_, q) => q.enable && q.parent == ix).map fun (_, q) => s.rateOf heldToo q).sum

/-- Guaranteed rates of the nodes of a level attached to node `ix` above. -/
def State.nodeSum (s : State) (level ix : Nat) : Nat :=
  ((s.tm.nodes.filter fun (k, n) => k / 2 ^ 17 == level && n.enable && n.parent == ix).map fun (_, n) => n.gRate).sum

/-- The shaper of a queue or node holds no rate below the guaranteed one. -/
def shaperFits (shRate g : Nat) : Bool := shRate == 0 || decide (g ≤ shRate)

/-- Nodes above a queue as far as they are attached. -/
def State.nodesAbove (s : State) (q : Queue) : List Node :=
  if !q.enable then [] else
  let n3 := s.nodeAt 3 q.parent
  let n2 := s.nodeAt 2 n3.parent
  let n1 := s.nodeAt 1 n2.parent
  n3 :: (if !n3.enable then [] else n2 :: (if n2.enable then [n1] else []))

/-- The rate conditions of R261, but for the one on moves. -/
def State.ratesOk (s : State) (heldToo : Bool) : Bool :=
  (s.tm.queues.all fun (_, q) =>
    let r := s.rateOf heldToo q
    r == 0 ||
      (shaperFits q.shRate r && (!q.enable || decide (s.queueSum heldToo q.parent ≤ (s.nodeAt 3 q.parent).gRate))
        && (s.nodesAbove q).all fun n => shaperFits n.shRate n.gRate))
  && (s.tm.nodes.all fun (k, n) =>
    let level := k / 2 ^ 17
    level < 2 || !n.enable || n.gRate == 0 || decide (s.nodeSum level n.parent ≤ (s.nodeAt (level - 1) n.parent).gRate))
  && ((List.range 48).all fun p =>
    let sum := ((s.portQueues p).map fun (_, q) => s.rateOf heldToo q).sum
    sum == 0 || s.sumFits p sum (s.portRate p) (s.isOn .gated))
  && ((List.range 2).all fun part => s.spillSum part heldToo == 0 || decide (s.spillSum part heldToo ≤ s.pullLimit part))

/-- Outcome of a checked change: 0 passes, 1 waits for held capacity (R262), 2 OVERCOMMIT. -/
def State.rateVerdict (s' : State) : Nat := if s'.ratesOk true then 0 else if s'.ratesOk false then 1 else 2

/-- Carry out a change that R261 checks, `s'` being the state after it. -/
def State.checked (s s' : State) (result : Nat) : Out :=
  match s'.rateVerdict with
  | 0 => .okR s'.landed result
  | 1 => .wait s .capacity
  | _ => .fail s stOvercommit

/-- The queue keeps its port and its parent: promised, with outstanding packets or a horizon ahead (R261). -/
def State.busyPromise (s : State) (q : Queue) : Bool :=
  decide (0 < s.heldRate q) && (decide (0 < q.outstanding) || decide (s.follower < q.horizon))

/-! ### Commands -/

def classSetOk (x : Nat) : Bool :=
  bits x 4 4 == 0 && bits x 9 23 == 0 && (!bit x 8 || bits x 0 4 == 0)
    && decide ((if bit x 8 then 100000 else 2000) ≤ bits x 32 32) && decide (bits x 32 32 ≤ 500000000)

/-- A promised queue of the partition has a class whose deadline exceeds `v` ns. -/
def State.classAbove (s : State) (part v : Nat) (heldToo : Bool := true) : Bool :=
  s.tm.queues.any fun (n, q) => s.queuePart n == part && decide (0 < s.rateOf heldToo q) && decide (v < s.deadlineNs part q.dclass)

def ledgerClassBody (s : State) (c : Cmd) (x : Nat) : Out :=
  let v := bits x 32 32
  if !classSetOk x then .fail s stBadArg
  else if bit x 8 then
    if !s.isOn .cellar && s.classAbove c.part v then .fail s stOvercommit
    else .ok ({ s with tm := { s.tm with hbmTime := s.tm.hbmTime.put 0 c.part v } }.landed)
  else .ok ({ s with tm := { s.tm with deadlines := s.tm.deadlines.put 0 (c.part * 16 + bits x 0 4) v } }.landed)

def ledgerClassSpec : OpSpec := { code := 0x0610, entryLen := fixedLen 8, body := ledgerClassBody }

/-- R265, R266. -/
def execLedgerClassSet (i : Issue) (s : State) : Host.Outcome State Fault Refusal := ans (s.runCommand ledgerClassSpec i)

def ledgerPortBody (s : State) (c : Cmd) (x : Nat) : Out :=
  let p := bits x 0 8
  let o := signed 8 (bits x 8 8)
  if 48 ≤ p ∨ o < -64 ∨ bits x 32 32 ≠ 0 then .fail s stBadArg
  else if s.foreignPort c p then .fail s stProtected
  else .ok (s.updEgress p fun e => { e with oPort := o, downHold := bits x 16 16 }).landed

def ledgerPortSpec : OpSpec := { code := 0x0611, entryLen := fixedLen 8, body := ledgerPortBody }

/-- R265, R267. -/
def execLedgerPortSet (i : Issue) (s : State) : Host.Outcome State Fault Refusal := ans (s.runCommand ledgerPortSpec i)

/-- A spill queue to R250, on the ports that are known. -/
def State.spillOk (s : State) (n sq : Nat) : Bool :=
  sq != n && (s.queue sq).gRate == 0 &&
    match s.queuePort n, s.queuePort sq with
    | some p, some r => p == r
    | _, _ => true

/-- Another queue names `n` as its spill queue. -/
def State.isSpillQ (s : State) (n : Nat) : Bool := s.tm.queues.any fun (i, q) => i != n && q.refuse && q.spillQ == n

def State.ledgerQueueOk (s : State) (x : Nat) : Bool :=
  let n := bits x 0 20
  let g := bits x 32 32
  bits x 20 4 == 0 && bits x 29 3 == 0 && bits x 84 12 == 0 && bits x 120 8 == 0
    && (!bit x 28 || s.spillOk n (bits x 64 20))
    && (g == 0 || (!s.isSpillQ n && (s.queuePort n).all fun p => decide (g ≤ s.portRate p)))

/-- The new admission record over the old; a reduction is held until F_0 (R262). -/
def State.withLedger (s : State) (u : Queue) (x : Nat) : Queue :=
  let g := bits x 32 32
  let live := u.held.filter fun h => decide (s.follower < h.2)
  { u with dclass := bits x 24 4, refuse := bit x 28, gRate := g, spillQ := bits x 64 20, qlimit := bits x 96 24
           held := if g < u.gRate ∧ s.follower < u.horizon then (u.gRate, u.horizon) :: live else live }

def ledgerQueueBody (s : State) (c : Cmd) (x : Nat) : Out :=
  let n := bits x 0 20
  if !s.ledgerQueueOk x then .fail s stBadArg
  else if s.partOn && (s.queuePart n != c.part || (bit x 28 && s.queuePart (bits x 64 20) != c.part)) then .fail s stProtected
  else
    let u := s.queue n
    let t := match s.queuePort n with | none => s | some p => s.syncV p
    let s' := t.updQueue n fun u => s.withLedger u x
    let s' := match s.queuePort n, u.pkts with
      | some p, k :: _ => if s.heldRate u = 0 then s'.tagQueue p n k.pkt.pp.length else s'
      | _, _ => s'
    if bits x 32 32 = u.gRate then .ok s'.landed else s.checked s' 0

def ledgerQueueSpec : OpSpec := { code := 0x0612, entryLen := fixedLen 16, batch := true, body := ledgerQueueBody }

/-- R261, R262, R265, R268. -/
def execLedgerQueueSet (i : Issue) (s : State) : Host.Outcome State Fault Refusal := ans (s.runCommand ledgerQueueSpec i)

def queueReadOk (s : State) (c : Cmd) (x : Nat) : Nat :=
  if bits x 20 44 ≠ 0 then stBadArg else if s.partOn && s.queuePart (bits x 0 20) != c.part then stProtected else stOk

/-- The record of R268 as 128 bits. -/
def ledgerRecord (n : Nat) (u : Queue) : Nat :=
  n + u.dclass * 2 ^ 24 + b2n u.refuse * 2 ^ 28 + u.gRate * 2 ^ 32 + u.spillQ * 2 ^ 64 + u.qlimit * 2 ^ 96

/-- The state word of R269. -/
def State.ledgerState (s : State) (u : Queue) : Nat :=
  min (ceilDiv (u.horizon - s.follower) qNs) 0xFFFFFFFF + min u.outstanding 0xFFFFFF * 2 ^ 32
    + b2n (u.held.any fun h => decide (s.follower < h.2)) * 2 ^ 56

def ledgerReadBody (s : State) (c : Cmd) (x : Nat) : Out :=
  let st := queueReadOk s c x
  if st ≠ stOk then .fail s st
  else
    let n := bits x 0 20
    .okResp s 0 (leBytes 16 (ledgerRecord n (s.queue n)) ++ leBytes 8 (s.ledgerState (s.queue n)))

def ledgerReadSpec : OpSpec :=
  { code := 0x0613, entryLen := fixedLen 8, reads := true
    respLen := fun s c x => if queueReadOk s c x = stOk then 24 else 0, body := ledgerReadBody }

/-- R269. -/
def execLedgerQueueRead (i : Issue) (s : State) : Host.Outcome State Fault Refusal := ans (s.runCommand ledgerReadSpec i)

end Sys2Proof.Machine
end

