-- ==== Sys2Proof/Machine/Sched.lean ====
section
/-! DEFINITION. The scheduling tree's records (R271, R278 to R280), shaper tokens (R277), gate lists and their replacement (R263,
R285 to R289), and the release of held capacity (R262). -/

namespace Sys2Proof.Machine

/-! ### Shaper tokens (R277) -/

/-- Tokens in 1/1,024 byte at cycle `c`, with the remainder carried; an inactive shaper accrues nothing. -/
def fillTokens (rate burst : Nat) (tokens : Int) (since rem c : Nat) : Int × Nat :=
  if rate = 0 then (tokens, rem) else
  let a := accrue rate (c - since) rem
  (min ((burst * 1024 : Nat) : Int) (tokens + a.1), a.2)

def Node.fill (n : Node) (c : Nat) : Node :=
  let f := fillTokens n.shRate n.shBurst n.tokens n.tokAt n.tokRem c
  { n with tokens := f.1, tokRem := f.2, tokAt := c }

def Queue.fill (q : Queue) (c : Nat) : Queue :=
  let f := fillTokens q.shRate q.shBurst q.tokens q.tokAt q.tokRem c
  { q with tokens := f.1, tokRem := f.2, tokAt := c }

/-- Tokens of an element at a cycle, an inactive shaper always holding 0 or more (R277). -/
def Node.credit (n : Node) (c : Nat) : Bool := n.shRate == 0 || decide (0 ≤ (n.fill c).tokens)
def Queue.credit (q : Queue) (c : Nat) : Bool := q.shRate == 0 || decide (0 ≤ (q.fill c).tokens)

/-- Charge a release of `len` bytes (R277). -/
def Node.charge (n : Node) (c len : Nat) : Node :=
  let n := n.fill c
  if n.shRate = 0 then n else { n with tokens := n.tokens - ((len : Int) + n.shOver) * 1024 }
def Queue.charge (q : Queue) (c len : Nat) : Queue :=
  let q := q.fill c
  if q.shRate = 0 then q else { q with tokens := q.tokens - ((len : Int) + q.shOver) * 1024 }

/-! ### Records (R278 to R280) -/

/-- Number of elements of a level (R271). -/
def levelCount (level : Nat) : Nat := [48, 4096, 16384, 131072, 1048576].getD level 0

/-- Partition of a node by its key. -/
def State.nodePart (s : State) (k : Nat) : Nat :=
  if k / 2 ^ 17 = 0 then s.portPart k else s.halfPart (levelCount (k / 2 ^ 17) / 2) (k % 2 ^ 17)

/-- Partition of an element. -/
def State.elemPart (s : State) (level ix : Nat) : Nat := if level = 0 then s.portPart ix else s.halfPart (levelCount level / 2) ix

/-- The path of a queue when it is attached. -/
def State.pathIf (s : State) (q : Queue) : Option Path4 := if s.attached q then some (s.pathOf q) else none

/-- What R280 and R261 compare: of each queue whose path a change alters, whether it holds packets with a change of its port,
and whether it is a busy promise. -/
def State.pathChanges (s s' : State) : Bool × Bool :=
  let moved := s.tm.queues.filter fun (n, q) => s.pathIf q != s'.pathIf (s'.queue n)
  (moved.any fun (n, q) => !q.pkts.isEmpty && (s.pathIf q).map (·.port) != (s'.pathIf (s'.queue n)).map (·.port),
   moved.any fun (_, q) => s.busyPromise q)

/-- Steps 3 and 4 of R280 for a change of the tree; `held3` adds another ground of step 3. The conditions on rates are tested when
something that they name changes (R261): a change of PRIO, WEIGHT, EXCESS_EN or a burst is always allowed. -/
def State.treeChange (s s' : State) (held3 rates : Bool) : Out :=
  let c := s.pathChanges s'
  if c.1 || held3 then .fail s stBadArg
  else if c.2 then .fail s stOvercommit
  else if rates then s.checked s' 0
  else .ok s'.landed

def nodeSetOk (x : Nat) : Bool :=
  let level := bits x 0 2
  bits x 2 2 == 0 && bits x 21 3 == 0 && bits x 45 3 == 0 && bits x 58 6 == 0 && bits x 160 32 == 0
    && decide (bits x 4 17 < levelCount level) && (level == 0 || decide (bits x 24 17 < levelCount (level - 1)))
    && decide (-64 ≤ signed 8 (bits x 152 8))

/-- The new node record over the old at cycle `c`. -/
def nodeNew (old : Node) (x c : Nat) : Node :=
  let o := old.fill c
  let burst := bits x 128 24
  let o := { o with shRate := bits x 96 32, shBurst := burst, shOver := signed 8 (bits x 152 8)
                    tokens := min o.tokens ((burst * 1024 : Nat) : Int) }
  if bits x 0 2 = 0 then o
  else
    { o with parent := bits x 24 17, enable := bit x 41, prio := bits x 42 3, weight := bits x 48 10, gRate := bits x 64 32
             deficit := if bits x 24 17 = old.parent then o.deficit else 0 }

def schedNodeBody (s : State) (c : Cmd) (x : Nat) : Out :=
  let level := bits x 0 2
  let ix := bits x 4 17
  if !nodeSetOk x then .fail s stBadArg
  else if s.partOn && (s.elemPart level ix != c.part || (level != 0 && s.elemPart (level - 1) (bits x 24 17) != c.part)) then
    .fail s stProtected
  else
    let s' := s.syncAllV.updNode (nodeKey level ix) fun n => nodeNew n x s.cyc
    let o := s.nodeAt level ix
    let n := s'.nodeAt level ix
    s.treeChange s' false (o.parent != n.parent || o.enable != n.enable || o.gRate != n.gRate || o.shRate != n.shRate)

def schedNodeSpec : OpSpec := { code := 0x0620, entryLen := fixedLen 24, batch := true, body := schedNodeBody }

/-- R278, R280. -/
def execSchedNodeSet (i : Issue) (s : State) : Host.Outcome State Fault Refusal := ans (s.runCommand schedNodeSpec i)

def schedQueueOk (x : Nat) : Bool :=
  bits x 20 4 == 0 && bits x 59 37 == 0 && bits x 160 32 == 0 && decide (-64 ≤ signed 8 (bits x 152 8))

/-- The new scheduling record over the old at cycle `c`. -/
def schedQueueNew (old : Queue) (x c : Nat) : Queue :=
  let o := old.fill c
  let burst := bits x 128 24
  { o with parent := bits x 24 17, enable := bit x 41, prio := bits x 42 3, tc := bits x 45 3, weight := bits x 48 10
           excessEn := bit x 58, shRate := bits x 96 32, shBurst := burst, shOver := signed 8 (bits x 152 8)
           tokens := min o.tokens ((burst * 1024 : Nat) : Int)
           deficit := if bits x 24 17 = old.parent then o.deficit else 0 }

def schedQueueBody (s : State) (c : Cmd) (x : Nat) : Out :=
  let n := bits x 0 20
  let u := s.queue n
  if !schedQueueOk x then .fail s stBadArg
  else if s.partOn && (s.queuePart n != c.part || s.elemPart 3 (bits x 24 17) != c.part) then .fail s stProtected
  else
    let s' := s.syncAllV.updQueue n fun u => schedQueueNew u x s.cyc
    s.treeChange s' (bits x 45 3 != u.tc && !u.pkts.isEmpty)
      (bits x 24 17 != u.parent || bit x 41 != u.enable || bits x 45 3 != u.tc || bits x 96 32 != u.shRate)

def schedQueueSpec : OpSpec := { code := 0x0621, entryLen := fixedLen 24, batch := true, body := schedQueueBody }

/-- R279, R280. -/
def execSchedQueueSet (i : Issue) (s : State) : Host.Outcome State Fault Refusal := ans (s.runCommand schedQueueSpec i)

/-! ### GATE_LIST_SET (R286, R287) -/

/-- The entries of a payload: gates and interval. -/
def gateEntries (x n : Nat) : List (Nat × Nat) :=
  (List.range n).map fun i => (bits x (256 + 64 * i) 8, bits x (256 + 64 * i + 32) 32)

/-- Bytes of a payload, by its COUNT. -/
def gateLen (_s : State) (x : Nat) : Option Nat := if bits x 16 9 ≤ 256 then some (32 + 8 * bits x 16 9) else none

def gateSetOk (s : State) (x : Nat) : Bool :=
  let p := bits x 0 8
  let n := bits x 16 9
  let es := gateEntries x n
  let cyc := bits x 64 32
  let g := bits x 32 32
  bits x 8 8 == 0 && bits x 25 7 == 0 && bits x 176 80 == 0
    && ((List.range n).all fun i => bits x (256 + 64 * i + 8) 24 == 0)
    && s.portExists p && decide (bits x 96 32 ≤ 999999999)
    && (n == 0 || ((es.all fun e => decide (1 ≤ e.2)) && decide (1000 ≤ cyc) && decide (cyc ≤ 1000000000)
          && (es.map (·.2)).sum == cyc && decide (g < cyc) && decide (s.guardMin p ≤ g)))

/-- The list of a payload; none for COUNT 0. -/
def gateListOf (x : Nat) : Option GateList :=
  if bits x 16 9 = 0 then none
  else some { cycle := bits x 64 32, guard := bits x 32 32, baseNs := bits x 128 48 * 1000000000 + bits x 96 32
              entries := gateEntries x (bits x 16 9) }

/-- The change raises c_port or T_gate + T_guard (R263). -/
def raises (old new : Nat × Nat × Nat) : Bool :=
  decide (old.1 * new.2.1 < new.1 * old.2.1) || decide (old.1 + old.2.2 < new.1 + new.2.2)

/-- Mark the bounds at a port as computed under the list in force, or no longer (R263). -/
def State.markBounds (s : State) (p : Nat) (old : Bool) : State :=
  let s := (s.portQueues p).foldl (fun s (n, _) => s.updQueue n fun q =>
      { q with pkts := q.pkts.map fun k => { k with oldList := old && k.bound.isSome } }) s
  let rels (l : List Rel) : List Rel := l.map fun r => { r with oldList := old && r.bound.isSome }
  s.updEgress p fun e => { e with released := rels e.released, edited := rels e.edited }

/-- A new list passes its checks now: it is pending, and a raising one waits for the bounds that are outstanding (R263, R288). -/
def State.gatePend (s : State) (p : Nat) (new : Option GateList) (raising : Bool) : State :=
  let s := s.syncV p
  let s := if raising then s.markBounds p true else s
  let b := if raising then s.oldBound p else 0
  (s.updGate p fun g => { g with pending := some { new := new, raising := raising, passed := s.follower, bound := b } }).landed

def gateSetBody (s : State) (c : Cmd) (x : Nat) : Out :=
  let p := bits x 0 8
  if !gateSetOk s x then .fail s stBadArg
  else if s.foreignPort c p then .fail s stProtected
  else if (s.gate p).pending.isSome then .wait s (.gateTurn p)
  else
    let new := gateListOf x
    let m := s.promisedMask p
    let on := s.isOn .gated
    let raising := (s.mode .gated).st != .off && raises ((s.gate p).terms on m) (termsOf on new m)
    let s' := s.gatePend p new raising
    match if raising then s'.rateVerdict else 0 with
    | 0 => .wait s' (.gateStart p)
    | 1 => .wait s .capacity
    | _ => .fail s stOvercommit

def gateSetSpec : OpSpec := { code := 0x0623, entryLen := gateLen, body := gateSetBody }

/-- The first cycle start of a list that lies at least 10 µs after `passed` (R45). -/
def startAfter (passed : Nat) (l : Option GateList) : Nat :=
  let t := passed + 10000 * qNs
  match l with
  | none => t
  | some l => l.startFrom t

/-- R286 to R288. -/
def execGateListSet (i : Issue) (s : State) : Host.Outcome State Fault Refusal := ans (s.runCommand gateSetSpec i)

/-! ### Replacement (R263, R288) -/

/-- GATE_LIST_STARTED, with the port and the first cycle start (R288, R290). -/
def State.raiseGateStarted (s : State) (p start : Nat) : State :=
  s.raise (s.portPart p) evGateListStarted p (secOf start % 2 ^ 48 + nsOf start * 2 ^ 48)

/-- The pending list is the list in force; GATE_LIST_SETs that waited behind it start again (R288). -/
def State.gateFinish (s : State) (p : Nat) (c : GateChange) (start : Nat) : State :=
  let s := (s.syncV p).updGate p fun g => { g with cur := c.new, pending := none, suspended := false, startsAt := 0, entry := 0 }
  let s := s.markBounds p false
  let s := if c.new.isSome then s.raiseGateStarted p start else s
  let result := (termsOf true c.new (s.promisedMask p)).1
  (s.endWaits (fun w => w == .gateStart p) stOk result).resumeWaits [gateSetSpec] fun w => w == .gateTurn p

/-- R263, R288: the pending list replaces the list in force at a cycle start, and starts at its own first cycle start. A late row
finds the instants that the rules fix. -/
def execGateListStart (dt : Nat) (port : Fin 48) (s : State) : Host.Outcome State Fault Refusal :=
  let s := s.pass dt
  let p := port.val
  let g := s.gate p
  match g.pending with
  | none => ans s
  | some c =>
    let x := c.start.getD (g.switchAt c)
    let t := g.newStart c x
    if s.follower < x then ans s
    else if t ≤ s.follower then ans (s.gateFinish p c t)
    else ans ((s.syncV p).updGate p fun g => { g with pending := some { c with start := some t } })

/-- R285, R12: the entry that is in force at an entry boundary. -/
def execGateEntryBoundary (dt : Nat) (port : Fin 48) (s : State) : Host.Outcome State Fault Refusal :=
  let s := s.pass dt
  match s.gateNow port with
  | none => ans s
  | some l => ans ((s.syncV port).updGate port fun g => { g with entry := (l.entryAt s.follower).1 })

end Sys2Proof.Machine
end

