-- ==== Sys2Proof/Machine/Release.lean ====
section
/-! DEFINITION. The release engine of a port (11_scheduling_shaping_policing.md): the promised phase (R274), the excess phase (R276),
gates (R285), shaper charges (R277), and the discards at the head of a queue: uncorrectable rooms (R209, R305), port-down flush
(R260) and age (R324). -/

namespace Sys2Proof.Machine

/-! ### What a port may release -/

/-- Wire time of a frame at a port in quanta (R273). -/
def State.wireQ (s : State) (p len : Nat) : Nat := frameQ (addBytes len (s.egress p).oPort) (s.portRate p)

/-- The gate of the queue stays open for the head frame, under every list that acts in its wire time (R285, R288). -/
def State.gateAllows (s : State) (p : Nat) (u : Queue) (len : Nat) : Bool :=
  openAcross u.tc s.follower (s.follower + s.wireQ p len) (s.gatePlan p)

/-- The head frame's rooms are all in H (R212, R213). -/
def Queue.headReady (u : Queue) : Bool :=
  match u.pkts with
  | [] => false
  | k :: _ => u.cpages.isEmpty || decide (k.units ≤ u.hRooms)

/-- The head was admitted 240 s ago or earlier: it is discarded, and never released (R324). -/
def State.headAged (s : State) (u : Queue) : Bool :=
  match u.pkts with
  | [] => false
  | k :: _ => decide (k.admitted + 240 * qSec ≤ s.follower)

/-- Backlogged, and its class not paused (R83, R84). -/
def State.queueWaits (s : State) (p : Nat) (u : Queue) : Bool :=
  match u.pkts with
  | [] => false
  | k :: _ => !s.pausedFor p k.pkt.pp.tc (decide (0 < s.heldRate u))

/-- Passport length of the head frame. -/
def Queue.headLen (u : Queue) : Nat :=
  match u.pkts with
  | [] => 0
  | k :: _ => k.pkt.pp.length

/-- Member of E at V (R274). -/
def State.inPromised (s : State) (p v : Nat) (u : Queue) : Bool :=
  decide (0 < s.heldRate u) && decide (u.vs ≤ v) && s.queueWaits p u

/-- Eligible in the excess phase, but for the gate (R276). -/
def State.inExcess (s : State) (p : Nat) (u : Queue) : Bool :=
  s.queueWaits p u && (u.gRate == 0 || u.excessEn) && u.credit s.cyc

/-! ### The promised phase (R274) -/

/-- The member with the smallest VF_q, ties to the lowest queue number. -/
def smallestVf : List (Nat × Queue) → Option (Nat × Queue)
  | [] => none
  | e :: t =>
    match smallestVf t with
    | none => some e
    | some b => if b.2.vf < e.2.vf then some b else some e

def State.promisedPick (s : State) (p : Nat) (ok : Queue → Bool) : Option Nat :=
  if !s.portOpen p s.follower then none
  else (smallestVf ((s.portQueues p).filter fun (_, u) => s.inPromised p (s.vNow p) u && ok u)).map (·.1)

/-! ### The excess phase (R276) -/

/-- Band, weight and deficit of a child at `level`. -/
def State.childRec (s : State) (level ix : Nat) : Nat × Nat × Int :=
  if level = 4 then ((s.queue ix).prio, (s.queue ix).weight, (s.queue ix).deficit)
  else ((s.nodeAt level ix).prio, (s.nodeAt level ix).weight, (s.nodeAt level ix).deficit)

/-- Eligible: its own shaper, and a child that is. -/
def State.eligible (s : State) (ok : Queue → Bool) : Nat → Nat → Bool
  | 0, ix => ok (s.queue ix)
  | f + 1, ix => (s.nodeAt (3 - f) ix).credit s.cyc && (s.kids (3 - f) ix).any fun i => s.eligible ok f i

/-- A child in the round: the charge of the frame that it would release, when it is eligible. -/
structure Turn where
  ix : Nat
  charge : Option Nat
  deficit : Int
  quantum : Nat
deriving DecidableEq, Repr

/-- Deficit round robin over the children of a band, the pointer at the head of the list. -/
def drr : Nat → List Turn → Option (Nat × List Turn)
  | 0, _ => none
  | _ + 1, [] => none
  | fuel + 1, c :: t =>
    let serve := c.charge.any fun b => decide ((b : Int) ≤ c.deficit)
    if serve then some (c.ix, { c with deficit := c.deficit - (c.charge.getD 0 : Nat) } :: t)
    else match t ++ [c] with
      | [] => none
      | n :: r => drr fuel ({ n with deficit := n.deficit + n.quantum } :: r)

/-- The children with the pointer's first; one that the pointer only now reaches adds its quantum. -/
def rotateTo (ptr : Option Nat) (l : List Turn) : List Turn :=
  let at_ := ptr.getD 0
  let r := (l.filter fun c => decide (at_ ≤ c.ix)) ++ (l.filter fun c => decide (c.ix < at_))
  match r with
  | [] => []
  | c :: t => if ptr = some c.ix then r else { c with deficit := c.deficit + c.quantum } :: t

/-- Choose the queue that an element releases; the state keeps the deficits and pointers of the round. -/
def State.choose (s : State) (p : Nat) (ok : Queue → Bool) : Nat → Nat → Option (Nat × State)
  | 0, ix => some (ix, s)
  | f + 1, ix =>
    let level := 3 - f
    let all := (s.kids level ix).filter fun i => s.backlogged f i
    let el := all.filter fun i => s.eligible ok f i
    match (el.map fun i => (s.childRec (level + 1) i).1).min? with
    | none => none
    | some band =>
      let turns := (all.filter fun i => (s.childRec (level + 1) i).1 == band).map fun i =>
        let r := s.childRec (level + 1) i
        ({ ix := i, deficit := r.2.2, quantum := max 1 r.2.1 * 256
           charge := if el.contains i then
               (s.choose p ok f i).map fun c => addBytes (s.queue c.1).headLen (s.egress p).oPort
             else none } : Turn)
      let node := s.nodeAt level ix
      match drr (66 * turns.length + 1) (rotateTo (node.rr.find? band) turns) with
      | none => none
      | some (sel, l) =>
        let s := l.foldl (fun s c => s.setDeficit (level + 1) c.ix c.deficit) s
        let s := s.updNode (nodeKey level ix) fun n => { n with rr := n.rr.ins band sel }
        s.choose p ok f sel

def State.excessPick (s : State) (p : Nat) (ok : Queue → Bool) : Option (Nat × State) :=
  let ok' := fun u => s.inExcess p u && ok u
  if s.eligible ok' 4 p then s.choose p ok' 4 p else none

/-! ### Release -/

/-- Charge the shapers of a queue and of every element above it (R277). -/
def State.chargeAll (s : State) (n len : Nat) (path : Path4) : State :=
  let c := s.cyc
  let s := s.updQueue n fun q => q.charge c len
  [nodeKey 3 path.l3, nodeKey 2 path.l2, nodeKey 1 path.l1, nodeKey 0 path.port].foldl
    (fun s k => s.updNode k fun x => x.charge c len) s

/-- Tags after the promised phase has released a queue's head (R274). -/
def State.nextTag (s : State) (p n : Nat) : State :=
  s.updQueue n fun u =>
    { u with vs := u.vf
             vf := if u.pkts.isEmpty then u.vf
                   else u.vf + s.tagStep p (s.heldRate u) (addBytes u.headLen (s.egress p).oPort) }

/-- The finish tag of a new head after a discard of the old one, which no phase has released. -/
def State.reTag (s : State) (p n : Nat) : State :=
  s.updQueue n fun u =>
    if u.pkts.isEmpty then u
    else { u with vf := u.vs + s.tagStep p (s.heldRate u) (addBytes u.headLen (s.egress p).oPort) }

def queueDepart (item : Nat) : CtrName := ⟨0x11, 0, item⟩
def innPort (item : Nat) : CtrName := ⟨0x0E, 2, item⟩

/-- A selected head frame whose rooms or page read uncorrectable is dropped (R209, R216, R305). -/
def State.dropPoisoned (s : State) (n p : Nat) (k : QPkt) : State :=
  (((s.bump (innPort 0) p).capturePkt 9 k.pkt).dropHead n agentDiscard).dropRef k.pkt

/-- Take the head off its queue and release it (R273, R274, R277). -/
def State.releaseHead (s : State) (p n : Nat) (prom : Bool) (k : QPkt) : State :=
  let u := s.queue n
  let path := s.pathOf u
  let len := k.pkt.pp.length
  let w := max 46812 (s.wireQ p len)
  let e := s.egress p
  let start := if s.elapsedQ - e.nextRel < 81920 then e.nextRel else s.elapsedQ
  let s := (s.dropHead n agentDepart).updQueue n fun u => { u with outstanding := u.outstanding + 1 }
  let s := s.chargeAll n len path
  let s := if prom then s.nextTag p n else s
  let s := s.clearDeficits n path
  let s := s.updEgress p fun e =>
    { e with nextRel := start + w, released := e.released ++ [{ pkt := k.pkt, bound := k.bound, oldList := k.oldList, queue := n }] }
  let s := s.bumpPair (queueDepart 0) n len
  let s := if prom then s.bump (queueDepart 2) n else s
  s.tileEvent (queueTile n) (if prom then 0x42 else 0x43)

/-- Count the heads that R285 holds, once each. -/
def State.noteGateHeld (s : State) (p : Nat) : State :=
  let v := s.vNow p
  (s.portQueues p).foldl (fun s (n, u) =>
    match u.pkts with
    | [] => s
    | k :: t =>
      if !k.gateHeld && (s.inPromised p v u || s.inExcess p u) && !s.gateAllows p u u.headLen then
        ((s.updQueue n fun u => { u with pkts := { k with gateHeld := true } :: t }).bump ⟨0x11, 2, 1⟩ p).tileEvent (queueTile n)
          0x44
      else s) s

/-- A queue selected with its head in C counts PULL_LATE, once (R213). -/
def State.notePullLate (s : State) (p n : Nat) : State :=
  let u := s.queue n
  match u.pkts with
  | [] => s
  | k :: t =>
    if u.headReady || k.pullLate then s
    else ((s.updQueue n fun u => { u with pkts := { k with pullLate := true } :: t }).bump (innPort 1) p).tileEvent (queueTile n) 0x45

/-- The port's choice now: queue, promised phase, and the state after the round. -/
def State.select (s : State) (p : Nat) (ready : Bool) : Option (Nat × Bool × State) :=
  let ok := fun u : Queue => !s.headAged u && s.gateAllows p u u.headLen && (!ready || u.headReady)
  match s.promisedPick p ok with
  | some n => some (n, true, s)
  | none => (s.excessPick p ok).map fun r => (r.1, false, r.2)

/-- R273 to R277, R285, R213: a port's release opportunity; `out` says how the head's first room reads. -/
def execReleaseOpportunity (dt : Nat) (port : Fin 48) (out : Fin 3) (s : State) : Host.Outcome State Fault Refusal :=
  let s := s.pass dt
  let p := port.val
  if !s.portUp p || decide (s.elapsedQ < (s.egress p).nextRel) then ans s
  else
    let s := (s.syncV p).noteGateHeld p
    let s := match s.select p false with
      | some (n, _, _) => s.notePullLate p n
      | none => s
    match s.select p true with
    | none => ans s
    | some (n, prom, s') =>
      match (s'.queue n).pkts with
      | [] => ans s
      | k :: _ =>
        let read (s : State) : State × Bool := s.readChain (s.queuePart n) k.chain (s.chainRooms k.chain) out
        if k.poisoned || (read s).2 then
          let path := s.pathOf (s.queue n)
          ans ((((read s).1.dropPoisoned n p k).reTag p n).clearDeficits n path)
        else ans ((read s').1.releaseHead p n prom k)

/-! ### Flush and age -/

/-- R260: DOWN_HOLD_US has expired: the packets of the port are discarded. -/
def execDownFlush (dt : Nat) (port : Fin 48) (s : State) : Host.Outcome State Fault Refusal :=
  let s := s.pass dt
  match (s.port port).downAt with
  | none => ans s
  | some (c, t0) => if c + (s.egress port).downHold * cycUs ≤ s.cyc then ans (s.flushDown port t0) else ans s

/-- R324: the head packet of a queue was admitted 240 s ago or earlier: it is discarded. -/
def execAgeDiscard (dt : Nat) (q : Fin 1048576) (s : State) : Host.Outcome State Fault Refusal :=
  let s := s.pass dt
  let u := s.queue q
  match u.pkts with
  | [] => ans s
  | k :: _ =>
    if !s.headAged u then ans s
    else
      let s := ((s.dropHead q agentDiscard).dropRef k.pkt).bump ⟨0x11, 2, 0⟩ k.pkt.pp.port
      ans ((s.reTag k.pkt.pp.port q).clearDeficits q (s.pathOf u))

end Sys2Proof.Machine
end

