-- ==== Sys2Proof/Machine/Egress.lean ====
section
/-! DEFINITION. The egress side of a port: the editor (R182, R184), transmit timestamps (R321 to R329), and the MAC's transmission with
the Ledger's comparison of each departure (R63, R267, R270). TS_OP is carried out on the edited bytes as the frame leaves, when its
transmit time is known. -/

namespace Sys2Proof.Machine

/-! ### Header helpers -/

/-- A checksum after words of the covered data change from `old` to `new` (RFC 1624). -/
def csumUpdate (ck : Nat) (old new : List Nat) : Nat :=
  let sum := (65535 - ck) + (old.map (65535 - ·)).sum + new.sum
  65535 - fold16 sum

/-- 16-bit words of `n` bytes from byte `o`. -/
def words16 (f : List Byte) (o n : Nat) : List Nat := (List.range (n / 2)).map fun i => be16 f (o + 2 * i)

/-- The checksum of an IPv4 header whose own field reads 0. -/
def ipCsum (h : List Byte) : Nat := 65535 - fold16 (words16 h 0 h.length).sum

/-- Put 16 bits in network order at byte `o`. -/
def put16 (f : List Byte) (o v : Nat) : List Byte := patch f o (beBytes 2 v)

/-- Length of the Ethernet header with up to two tags of type 0x8100 or 0x88A8 (R184 step 2). -/
def l2Len (f : List Byte) : Option Nat :=
  let tag (o : Nat) : Bool := decide (o + 6 ≤ f.length) && (be16 f o == 0x8100 || be16 f o == 0x88A8)
  if f.length < 14 then none else if tag 12 then (if tag 16 then some 22 else some 18) else some 14

/-- Set the ECN field of an IP header of version `ver` at `o`. -/
def setEcn (f : List Byte) (o ver e : Nat) : List Byte :=
  let b := byteAt f (o + 1)
  patch f (o + 1) [BitVec.ofNat 8 (if ver = 4 then b / 4 * 4 + e else setBits b 4 2 e)]

/-! ### The editor (R184) -/

/-- Step 3: decrement TTL or hop limit; none when it is 0. -/
def editTtl (f : List Byte) (ip : Option (Nat × Nat)) : Option (List Byte) :=
  match ip with
  | none => some f
  | some (o, ver) =>
    let at_ := if ver = 4 then o + 8 else o + 7
    if byteAt f at_ = 0 then none
    else
      let g := patch f at_ [BitVec.ofNat 8 (byteAt f at_ - 1)]
      some (if ver = 4 then put16 g (o + 10) (csumUpdate (be16 f (o + 10)) [be16 f (o + 8)] [be16 g (o + 8)]) else g)

/-- Step 4: CE into an ECT header. -/
def editEcn (f : List Byte) (ip : Option (Nat × Nat)) (ecn : Nat) : List Byte :=
  match ip with
  | none => f
  | some (o, ver) =>
    if ecn = 3 ∧ (ecnAt f o ver = 1 ∨ ecnAt f o ver = 2) then
      let g := setEcn f o ver 3
      if ver = 4 then put16 g (o + 10) (csumUpdate (be16 f (o + 10)) [be16 f o] [be16 g o]) else g
    else f

/-- Step 5: VLAN_OP, then L2_OP; the answer also gives the length of the L2 header. -/
def editL2 (r : Nat) (f : List Byte) (l2 : Nat) : List Byte × Nat :=
  let tci := beBytes 2 (bits r 32 16)
  let v : List Byte × Nat :=
    if l2 = 0 then (f, 0)
    else if bits r 4 2 = 1 then (f.take 12 ++ beBytes 2 0x8100 ++ tci ++ f.drop 12, l2 + 4)
    else if bits r 4 2 = 2 ∧ 14 < l2 then (f.take 12 ++ f.drop 16, l2 - 4)
    else if bits r 4 2 = 3 ∧ 14 < l2 then (patch f 14 tci, l2)
    else (f, l2)
  let da := leBytes 6 (bits r 64 48)
  let sa := leBytes 6 (bits r 112 48)
  if bits r 2 2 = 1 then (patch v.1 0 (da ++ sa), v.2)
  else if bits r 2 2 = 2 then (da ++ sa ++ beBytes 2 (bits r 48 16) ++ v.1, 14)
  else v

/-- Step 6: the template after the L2 header, with the fix-ups at L3_OFF and L4_OFF. -/
def editTemplate (r : Nat) (pp : Passport) (f : List Byte) (l2 : Nat) : List Byte :=
  let tmpl := (List.range (bits r 16 7)).map fun i => BitVec.ofNat 8 (tmplByte r i)
  let f := f.take l2 ++ tmpl ++ f.drop l2
  let u := l2 + bits r 168 8
  let f := if bits r 168 8 = 255 then f else
    let f := put16 (put16 f (u + 4) (f.length - u)) (u + 6) 0
    if bit r 176 then put16 f u (0xC000 + pp.hash % 2 ^ 14) else f
  let h := l2 + bits r 160 8
  if bits r 160 8 = 255 then f
  else if byteAt f h / 16 = 4 then
    let f := put16 (setEcn (put16 f (h + 2) (f.length - h)) h 4 pp.ecn) (h + 10) 0
    put16 f (h + 10) (ipCsum (slice f h (byteAt f h % 16 * 4)))
  else setEcn (put16 f (h + 4) (f.length - h - 40)) h 6 pp.ecn

/-- Steps 1 to 6 on a frame without its FCS: the edited frame, or the counter item that drops it. -/
def edit (r : Nat) (k : Pkt) (f : List Byte) : Nat ⊕ List Byte :=
  if !bit r 0 || (k.noL2 && bits r 2 2 != 2) then .inl 0
  else match (if k.noL2 then some 0 else l2Len f) with
    | none => .inl 0
    | some l2 =>
      let ip := k.ip.filter fun (o, ver) => decide (o + (if ver = 4 then 20 else 40) ≤ f.length)
      match (if bits r 6 2 = 1 then editTtl f ip else some f) with
      | none => .inl 1
      | some g =>
        let v := editL2 r (editEcn g ip k.pp.ecn) l2
        .inr (editTemplate r k.pp v.1 v.2)

def editCtr (item : Nat) : CtrName := ⟨0x08, 0, item⟩

/-- Egress slice of a frame: a split port uses bit 0 of the flow hash (R60). -/
def State.egressSlice (s : State) (p : Nat) (k : Pkt) : Nat := portSlice p + (if s.isSplit p then k.pp.hash % 2 else 0)

/-- A released frame is dropped by the editor. -/
def State.editDrop (s : State) (p n : Nat) (k : Pkt) (item : Nat) : State :=
  (((s.bump (editCtr item) p).capturePkt 8 k).updQueue n fun u => { u with outstanding := u.outstanding - 1 }).takeSlot
    (4 + s.egressSlice p k) 1 k.part

/-- The edited frame waits for the MAC. -/
def State.editPass (s : State) (p : Nat) (e : Rel) (f : List Byte) (tsOp : Nat) : State :=
  let k := e.pkt
  let s := if (k.mcopy || k.pp.kind == kindMirror) && f.length + 4 != k.pp.length then s.bump (editCtr 3) p else s
  s.updEgress p fun g => { g with edited := g.edited ++ [{ e with edited := f, tsOp := tsOp }] }

/-- Read the rewrite version that the packet's epoch sees: `o0` and `o1` say how its copies in H0 and H1 read. Only when both are
uncorrectable is the version invalidated (R150, R293, R305). -/
def State.readRewrite (s : State) (ix ep part o0 o1 : Nat) : State :=
  if (s.visible (tblKey 8 ix) ep).isNone then s
  else
    let r := s.readTwo part structRewrite ix (rewriteUnit 0 ix) (rewriteUnit 1 ix) o0 o1
    if r.2 then
      ((r.1.recRewritten structRewrite (2 * ix)).recRewritten structRewrite (2 * ix + 1)).poisonVisible (tblKey 8 ix) ep part
    else r.1

/-- R184: the egress slice edits the port's oldest released frame and releases its epoch reference; `outs` says how the copies of
its rewrite entry read. The null entry leaves a frame unchanged, but prepends no L2 header (R181). -/
def execEgressEdit (dt : Nat) (port : Fin 48) (outs : Fin 3 × Fin 3) (s : State) : Host.Outcome State Fault Refusal :=
  let s := s.pass dt
  let p := port.val
  match (s.egress p).released with
  | [] => ans s
  | e :: rest =>
    if s.chip.d2dDown then ans s else
    let k := e.pkt
    let sl := s.egressSlice p k
    let s := s.updEgress p fun g => { g with released := rest }
    if !s.sliceOn (4 + sl) then
      ans (((s.dropRef k).updQueue e.queue fun u => { u with outstanding := u.outstanding - 1 }).updDomain (152 + 4 * (4 + sl))
        fun d => { d with dropped := d.dropped + 1 })
    else
      let body := k.data.take (k.data.length - 4)
      if k.pp.edit = 0 then
        ans ((if k.noL2 then s.editDrop p e.queue k 0 else s.editPass p e body 0).dropRef k)
      else
        let s := if outs.1 = 2 ∨ outs.2 = 2 then s.holdSlots (4 + sl) s.slotNow else s
        let s := s.readRewrite k.pp.edit k.ep k.part outs.1 outs.2
        let r := s.recordAt (tblKey 8 k.pp.edit) k.ep
        let s := s.perfEvent (4 + sl) 8 (if bit r 1 then 2 else 1) (some k.part)
        match edit r k body with
        | .inl item => ans ((s.editDrop p e.queue k item).dropRef k)
        | .inr f =>
          if s.maxFrame p < f.length + 4 then ans ((s.editDrop p e.queue k 2).dropRef k)
          else ans ((s.editPass p e f (bits r 8 2)).dropRef k)

/-! ### Transmit timestamps (R321 to R326) -/

/-- A PTP event message in an edited frame: offset of its header, and of the UDP header with the IP version when it has one. -/
def findPtp (f : List Byte) : Option (Nat × Option (Nat × Nat)) :=
  match l2Len f with
  | none => none
  | some l2 =>
    let ty := be16 f (l2 - 2)
    let r : Option (Nat × Option (Nat × Nat)) :=
      if ty = 0x88F7 then some (l2, none)
      else if ty = 0x0800 ∧ byteAt f l2 = 0x45 ∧ byteAt f (l2 + 9) = 17 ∧ be16 f (l2 + 22) = 319 then
        some (l2 + 28, some (l2 + 20, 4))
      else if ty = 0x86DD ∧ byteAt f l2 / 16 = 6 ∧ byteAt f (l2 + 6) = 17 ∧ be16 f (l2 + 42) = 319 then
        some (l2 + 48, some (l2 + 40, 6))
      else none
    r.filter fun (o, _) => decide (o + 34 ≤ f.length) && decide (byteAt f o % 16 ≤ 3)

/-- Transmit time of a frame whose first bit leaves now: the start of its destination address, plus TX_ADJ (R321). -/
def State.txTime (s : State) (p : Nat) : Nat :=
  ((s.now + frameQ 8 (s.portRate p) : Nat) + signed 16 (s.regF (0x02800100 + 8 * p) 16 16) * 4096 : Int).toNat

/-- The latest device time at or before `t` that a passport's excerpt can mean (R323). -/
def rebuildTime (t : Nat) (pp : Passport) : Nat :=
  let sec := secOf t - (secOf t + 256 - pp.tsec) % 256
  let q := mkTime sec pp.tns 0
  if q ≤ t then q else q - 256 * qSec

/-- Steps of this device between two device times: their number and sum (R325). -/
def Time.stepsBetween (t : Time) (a b : Nat) : Nat × Int :=
  let l := t.stepLog.filter fun e => decide (a ≤ e.1) && decide ((e.1 : Int) + e.2 ≤ b)
  (l.length, (l.map (·.2)).sum)

/-- Change the UDP checksum for a change of the frame from `f` to `g`: 0 over IPv4, updated over IPv6 (R325). -/
def fixUdp (udp : Option (Nat × Nat)) (f g : List Byte) : List Byte :=
  match udp with
  | none => g
  | some (u, ver) =>
    if ver = 4 then put16 g (u + 6) 0
    else
      let n := (f.length - u) / 2 * 2
      let c := csumUpdate (be16 f (u + 6)) (words16 f u n) (words16 g u n)
      put16 g (u + 6) (if c = 0 then 0xFFFF else c)

/-- Add to the correctionField of the PTP header at `o`. -/
def addCorrection (f : List Byte) (o amount : Nat) : List Byte :=
  patch f (o + 8) (beBytes 8 ((beNat (slice f (o + 8) 8) + amount) % 2 ^ 64))

def timePort (item : Nat) : CtrName := ⟨0x14, 2, item⟩

/-- TS_OP 1: the frame as it leaves at transmit time `t` (R325). -/
def State.oneStep (s : State) (p t : Nat) (pp : Passport) (f : List Byte) : State × List Byte :=
  match findPtp f with
  | none => (s.bump (timePort 0) p, f)
  | some (o, udp) =>
    if byteAt f o % 16 = 0 then
      let g := patch f (o + 34) (beBytes 6 (secOf t) ++ beBytes 4 (nsOf t))
      (s, fixUdp udp f (addCorrection g o (fracOf t)))
    else
      let a := rebuildTime t pp
      let st := s.time.stepsBetween a t
      let res : Int := (t : Int) - a - st.2
      if 16 < st.1 ∨ res < 0 ∨ (qSec : Int) ≤ res then (s.bump (timePort 1) p, f)
      else (s, fixUdp udp f (addCorrection f o res.toNat))

/-- TS_OP 2: the transmit time goes to the queue of the slice that holds the port's number (R326 to R328). -/
def State.twoStep (s : State) (p t : Nat) (pp : Passport) (f : List Byte) : State :=
  let r := match findPtp f with
    | some (o, _) => (byteAt f o % 16, be16 f (o + 30))
    | none => (15, pp.seq % 65536)
  s.pushTs (portSlice p) p r.2
    (1 + p * 4 + r.1 * 2 ^ 10 + r.2 * 2 ^ 16 + nsOf t * 2 ^ 32 + secOf t % 2 ^ 48 * 2 ^ 64 + fracOf t * 2 ^ 112)

/-! ### The MAC (R63, R80, R267, R270) -/

/-- The frame with its pad to 64 bytes and its FCS. -/
def withFcs (f : List Byte) : List Byte :=
  let g := f ++ List.replicate (60 - f.length) 0
  g ++ leBytes 4 (fcs32 g)

/-- Overhead on the wire (R267): 8 bytes on a GFP-F client port, else 20. -/
def State.wireOverhead (s : State) (p : Nat) : Nat := if s.xptGroup (p / 8) && s.clientKind p == 2 then 8 else 20

/-- The Ledger compares a departure with its bound (R270), and its wire length with the charge when its queue is promised (R267) or
gates act at the port (R285). -/
def State.departed (s : State) (p : Nat) (e : Rel) (len : Nat) : State :=
  let s := s.updQueue e.queue fun u => { u with outstanding := u.outstanding - 1 }
  let measured := e.bound.isSome || decide (0 < s.heldRate (s.queue e.queue)) || (s.gateNow p).isSome
  let s := if measured && decide (addBytes e.pkt.pp.length (s.egress p).oPort < len + s.wireOverhead p) then s.bump (ledgerPort 4) p
    else s
  match e.bound with
  | none => s
  | some b =>
    let last := s.follower + frameQ (8 + len) (s.portRate p)
    if last < b then s
    else (s.bump (ledgerPort 5) p).raise (s.portPart p) evLedgerLate p (e.queue + min (ceilDiv (last - b) qNs) 0xFFFFFFFF * 2 ^ 32)

/-- The oldest frame of the port that no received pause holds, and the frames that stay (R83, R84). -/
def State.pickTx (s : State) (p : Nat) : List Rel → Option (Rel × List Rel)
  | [] => none
  | e :: t =>
    if s.pausedFor p e.pkt.pp.tc (decide (0 < s.heldRate (s.queue e.queue))) then (s.pickTx p t).map fun r => (r.1, e :: r.2)
    else some (e, t)

/-- A frame goes onto the line, or to the framer (R110): under far-end loopback the line carries what was received, under near-end
the own receiver hears it too (R74). -/
def State.toLine (s : State) (p : Nat) (f : List Byte) : State :=
  let l := s.loopback p
  let s := if l = 2 then s else s.updEgress p fun g => { g with lastTx := f }
  if s.xptGroup (p / 8) then s.updClient p fun c => { c with txFrames := c.txFrames ++ [f] }
  else if l = 1 then s.updPort p fun t => { t with looped := t.looped ++ [f] } else s

/-- R63: the port's oldest edited frame that no pause holds begins to leave, when the port is up and gets no remote fault. -/
def execMacTransmit (dt : Nat) (port : Fin 48) (s : State) : Host.Outcome State Fault Refusal :=
  let s := s.pass dt
  let p := port.val
  if !s.portUp p || (s.port p).remoteFault then ans s else
  match s.pickTx p (s.egress p).edited with
  | none => ans s
  | some (e, rest) =>
      let s := s.updEgress p fun g => { g with edited := rest }
      let sl := 4 + s.egressSlice p e.pkt
      if s.maxFrame p < e.edited.length + 4 then
        ans (((s.bump (macCtr 12) p).updQueue e.queue fun u => { u with outstanding := u.outstanding - 1 }).takeSlot sl 0 e.pkt.part)
      else
        let t := s.txTime p
        let r := if e.tsOp = 1 then s.oneStep p t e.pkt.pp e.edited else (s, e.edited)
        let s := if e.tsOp = 2 then r.1.twoStep p t e.pkt.pp e.edited else r.1
        let f := withFcs r.2
        let s := (s.bumpPair (macCtr 2) p f.length).takeSlot sl 0 e.pkt.part
        ans ((s.toLine p f).departed p e f.length)

end Sys2Proof.Machine
end

