-- ==== Sys2Proof/Machine/Caravan.lean ====
section
/-! DEFINITION. Caravan (07_actions_byway_caravan.md): the multicast tables and their commands (R194, R195), the first stage with
mirror, host and twin copies (R185, R186, R196, R356), the second stage (R197 to R199), and the row by which packets and copies reach
the Ledger (R256). A failed copy lowers the chain's share count, as a departing one does (R198). -/

namespace Sys2Proof.Machine

/-! ### Tables (R194, R305) -/

/-- The group entry in force; 0, which is not VALID, when it or its endpoint set is poisoned. -/
def State.groupEntry (s : State) (g : Nat) : Nat :=
  let e := s.caravan.groups.get 0 g
  if s.recPoisoned structGroup g || (bit e 1 && s.recPoisoned structEset (bits e 2 16)) then 0 else e

def grpValid (e : Nat) : Bool := bit e 0
def grpEset (e : Nat) : Nat := bits e 2 16
def grpBase (e : Nat) : Nat := bits e 18 23
def grpCount (e : Nat) : Nat := bits e 41 15
def grpPool (e : Nat) : Nat := bits e 56 5

/-! ### Copies of the first stage -/

/-- Endpoints to which the first stage copies, in increasing order (R196). -/
def State.copyEndpoints (s : State) (e : Nat) : List Nat :=
  if bit e 1 then
    let m := s.caravan.esets.get 0 (grpEset e)
    (List.range 4096).filter fun i => bit m i
  else [s.ownEndpoint]

/-- A copy of a packet, with the space that it shares at its input. -/
def Pkt.copyVia (k : Pkt) (via : Via) : Pkt := { k with sb := {}, first := false, via := via }

/-- The multicast copies of a packet. -/
def State.mcastCopies (s : State) (k : Pkt) : List Pkt :=
  let e := s.groupEntry k.pp.dest
  if k.pp.kind ≠ kindMulticast ∨ !grpValid e then [] else (s.copyEndpoints e).map fun ep => k.copyVia (.endpoint ep)

/-- The mirror copy of a packet, by its session as it was when the packet entered the parser (R185, R200). -/
def State.mirrorCopy (s : State) (k : Pkt) : Option Pkt :=
  let a := k.acts
  if !k.sb.mirrorEn || !s.holds k.part || !bit a.mir0 0 then none
  else
    let trunc := 64 * bits a.mir2 24 8
    let via : Via := if bit a.mir0 1 then .host reasonMirror k.sb.mirrorSession else .passport
    some { k.copyVia via with
      pp := { k.pp with
        kind := kindMirror, pairId := 0, claim := 0, dest := mkDest (bits a.mir0 4 12) (bits a.mir0 16 8), queue := a.mir1 % 2 ^ 20
        edit := bits a.mir2 0 24
        length := if trunc ≠ 0 ∧ trunc < k.pp.length then trunc else k.pp.length }
      data := if trunc ≠ 0 then k.data.take trunc else k.data }

/-- The host copy of a packet with DISP COPY (R186). -/
def State.hostCopy (s : State) (k : Pkt) : Option Pkt :=
  if k.sb.copy && s.holds k.part then
    some { k.copyVia (.host reasonActionCopy k.sb.puntCode) with pp := { k.pp with kind := kindPunt } }
  else none

/-- The twin copy of a fast-path packet (R356). -/
def State.twinCopy (s : State) (k : Pkt) : Option Pkt := if s.twinMarked k then some (k.copyVia .twin) else none

/-- All copies that the first stage makes of a packet. -/
def State.firstCopies (s : State) (k : Pkt) : List Pkt :=
  s.mcastCopies k ++ (s.mirrorCopy k).toList ++ (s.hostCopy k).toList ++ (s.twinCopy k).toList

/-- Copies that no output takes are not made, but counted (R196, R336). -/
def State.makeCopies (s : State) (input : Nat) (l : List Pkt) : State × List Pkt :=
  l.foldl (fun (s, made) k =>
    match s.routePkt input k with
    | .out _ => (s.takeRef k.part k.ep, made ++ [k])
    | r => ((s.countLost k r).capturePkt 5 k, made)) (s, [])

/-- Counts that make no copy: an entry that is not VALID (R196), a mirror session that is not (R185). -/
def State.countNoCopy (s : State) (k : Pkt) : State :=
  let s := if k.pp.kind = kindMulticast ∧ !grpValid (s.groupEntry k.pp.dest) then s.bump (groupCtr 4) k.pp.dest else s
  if k.sb.mirrorEn && s.holds k.part && !bit k.acts.mir0 0 then s.bump ⟨0x06, 0, 4⟩ k.pp.inPort else s

/-- A unicast packet goes on itself beside its copies; the source of multicast copies and of a punt's mirror copy does not. -/
def Pkt.goesOn (k : Pkt) : Bool := k.pp.kind != kindMulticast && k.pp.kind != kindPunt

/-- The copies of packet `k` of an input take its place there, behind the packet itself when that goes on. -/
def State.replicate (s : State) (input : Nat) (k : Pkt) : State :=
  let r := (s.countNoCopy k).makeCopies input (s.firstCopies k)
  let s := r.1
  let l := (if k.goesOn then [{ k with sb := {}, first := false }] else []) ++ r.2
  let g := if l.length ≤ 1 then 0 else s.caravan.nextGrp
  let s := { s with caravan := { s.caravan with nextGrp := s.caravan.nextGrp + 1 } }
  let s := s.updInput input fun q => q.takeWhile (· != k) ++ l.map (fun c => { c with grp := g }) ++ (q.dropWhile (· != k)).drop 1
  if k.goesOn then s else s.dropRef k

/-- R196: the first stage makes the copies of the oldest packet that waits for it. -/
def execCaravanFirstStage (dt : Nat) (s : State) : Host.Outcome State Fault Refusal :=
  let s := s.pass dt
  match s.caravan.first with
  | [] => ans s
  | i :: rest =>
    let s := { s with caravan := { s.caravan with first := rest } }
    match (s.inputOf i).find? (·.first) with
    | none => ans s
    | some k => ans (s.replicate i k)

/-! ### The second stage (R197 to R199) -/

/-- The copy of a packet for one member, as a 64-bit member entry (R194, R197). -/
def State.memberCopy (s : State) (k : Pkt) (m : Nat) : Pkt :=
  { k with
    mcopy := true, sb := {}
    pp := { k.pp with
      kind := kindUnicast, dest := mkDest s.ownEndpoint (bits m 0 8), queue := bits m 8 20, edit := bits m 28 24
      dclass := bits m 52 4, length := ((k.pp.length : Int) + signed 8 (bits m 56 8)).toNat % 65536 } }

/-- Member entries of a group, `none` for one that reads uncorrectable. -/
def State.groupMembers (s : State) (e : Nat) : List (Option Nat) :=
  (List.range (grpCount e)).map fun i =>
    let ix := grpBase e + i
    if s.recPoisoned structMember ix then none else some (s.caravan.members.get 0 ix)

/-- R197: the second stage writes its oldest packet into one chain and makes a copy for each member. -/
def execCaravanSecondStage (dt : Nat) (s : State) : Host.Outcome State Fault Refusal :=
  let s := s.pass dt
  match s.caravan.second with
  | [] => ans s
  | (w, k) :: rest =>
    let s := { s with caravan := { s.caravan with second := rest } }
    let g := k.pp.dest
    let e := s.groupEntry g
    let n := grpCount e
    if !grpValid e || n == 0 then ans (((s.bump (groupCtr 4) g).capturePkt 10 k).dropRef k)
    else match s.allocChain (grpPool e) (roomsOf k.data.length) with
      | (s, none) => ans (((s.bump (groupCtr 3) g n).capturePkt 10 k).dropRef k)
      | (s, some c) =>
        let s := s.updChain c fun h => { h with share := n }
        let r := (s.groupMembers e).foldl (fun (s, l) m =>
          match m with
          | none => (((s.bump (groupCtr 4) g).releaseChain c agentCaravan), l)
          | some m => (s.takeRef k.part k.ep, l ++ [(w, c, g, s.memberCopy k m)])) (s, s.caravan.copies)
        let s := { r.1 with caravan := { r.1.caravan with copies := r.2 } }
        ans (if r.2.any fun e => e.2.1 == c then s else s.dropRef k)

/-- Sources of the second stage whose last copy is not decided: one for each chain with copies to decide (R145). -/
def State.copySources (s : State) : List Pkt :=
  ((s.caravan.copies.map fun e => e.2.1).eraseDups).filterMap fun c => (s.caravan.copies.find? fun e => e.2.1 == c).map (·.2.2.2)

/-- Counter item of a copy's outcome; a detached queue is no way to the member (log 52). -/
def Verdict.copyItem : Verdict → Nat
  | .admitted => 0
  | .portDown => 1
  | .refused => 2
  | .noRoom => 3
  | .detached => 4

/-- Decide one copy; with the last one of its chain the source releases its epoch reference (R145, R198). -/
def State.decideCopy (s : State) (c g : Nat) (k : Pkt) : State :=
  let r := if !s.portExists k.pp.port then (s.dropRef k, 4) else
    let o := s.offer (some c) k
    (o.1, o.2.copyItem)
  let s := r.1.bump (groupCtr r.2) g
  let s := if r.2 = 0 then s else (s.capturePkt 10 k).releaseChain c agentCaravan
  if s.caravan.copies.any fun e => e.2.1 == c then s else s.dropRef k

/-! ### Commands (R195, R385) -/

def State.groupPart20 (s : State) (g : Nat) : Nat := s.halfPart 0x80000 g

def mcastGroupBody (s : State) (c : Cmd) (x : Nat) : Out :=
  let g := bits x 0 20
  let e := bits x 64 128
  let last := if s.partOn && c.part == 0 then 4194304 else 8388608
  if bits x 20 44 ≠ 0 ∨ bits e 61 67 ≠ 0 ∨ 16384 < grpCount e ∨ last < grpBase e + grpCount e then .fail s stBadArg
  else if s.partOn && (s.groupPart20 g != c.part || s.poolPart (grpPool e) != c.part
      || (bit e 1 && s.halfPart 32768 (grpEset e) != c.part)
      || (grpCount e != 0 && s.halfPart 4194304 (grpBase e) != c.part)) then .fail s stProtected
  else
    let old := s.caravan.groups.get 0 g
    let s := ({ s with caravan := { s.caravan with groups := s.caravan.groups.put 0 g e } }).recRewritten structGroup g
    let chains := (s.caravan.copies.filter fun k => k.2.2.1 == g).map fun k => k.2.1
    if chains.isEmpty then .ok s else .wait s (.mcast g old chains)

def mcastGroupSpec : OpSpec := { code := 0x0500, entryLen := fixedLen 24, batch := true, body := mcastGroupBody }

/-- R195. -/
def execMcastGroupWrite (i : Issue) (s : State) : Host.Outcome State Fault Refusal := ans (s.runCommand mcastGroupSpec i)

def mcastReadOk (s : State) (c : Cmd) (x : Nat) : Nat :=
  if bits x 20 44 ≠ 0 then stBadArg else if s.partOn && s.groupPart20 (bits x 0 20) != c.part then stProtected else stOk

def mcastReadBody (s : State) (c : Cmd) (x : Nat) : Out :=
  let st := mcastReadOk s c x
  if st ≠ stOk then .fail s st else .okResp s 0 (leBytes 16 (s.caravan.groups.get 0 (bits x 0 20)))

def mcastReadSpec : OpSpec :=
  { code := 0x0501, entryLen := fixedLen 8, reads := true, respLen := fun s c x => if mcastReadOk s c x = stOk then 16 else 0
    body := mcastReadBody }

/-- R195, R385. -/
def execMcastGroupRead (i : Issue) (s : State) : Host.Outcome State Fault Refusal := ans (s.runCommand mcastReadSpec i)

/-- The member entries of a payload. -/
def memberList (x : Nat) : List (Nat × Nat) := (List.range (bits x 32 13)).map fun i => (bits x 0 23 + i, bits x (64 + 64 * i) 64)

def mcastMembersBody (s : State) (c : Cmd) (x : Nat) : Out :=
  let l := memberList x
  if bits x 23 9 ≠ 0 ∨ bits x 45 19 ≠ 0 ∨ 8388608 < bits x 0 23 + bits x 32 13 ∨ l.any fun e => decide (48 ≤ bits e.2 0 8) then
    .fail s stBadArg
  else if s.partOn && l.any fun e =>
      s.halfPart 4194304 e.1 != c.part || s.portPart (bits e.2 0 8) != c.part || s.queuePart (bits e.2 8 20) != c.part then
    .fail s stProtected
  else
    .ok (l.foldl (fun s e =>
      ({ s with caravan := { s.caravan with members := s.caravan.members.put 0 e.1 e.2 } }).recRewritten structMember e.1) s)

def mcastMembersSpec : OpSpec :=
  { code := 0x0502
    entryLen := fun _ x => if 1 ≤ bits x 32 13 ∧ bits x 32 13 ≤ 4096 then some (8 + 8 * bits x 32 13) else none
    body := mcastMembersBody }

/-- R195, R385. -/
def execMcastMembersWrite (i : Issue) (s : State) : Host.Outcome State Fault Refusal := ans (s.runCommand mcastMembersSpec i)

def mcastEsetBody (s : State) (c : Cmd) (x : Nat) : Out :=
  let n := bits x 0 16
  if bits x 16 48 ≠ 0 then .fail s stBadArg
  else if s.partOn && s.halfPart 32768 n != c.part then .fail s stProtected
  else .ok (({ s with caravan := { s.caravan with esets := s.caravan.esets.put 0 n (bits x 64 4096) } }).recRewritten structEset n)

def mcastEsetSpec : OpSpec := { code := 0x0503, entryLen := fixedLen 520, body := mcastEsetBody }

/-- R195, R385. -/
def execMcastEsetWrite (i : Issue) (s : State) : Host.Outcome State Fault Refusal := ans (s.runCommand mcastEsetSpec i)

/-! ### Writer ports (R199, R256) -/

/-- A multicast packet joins the second stage's queue, or is discarded whole (R199). -/
def State.pushSecond (s : State) (w : Nat) (k : Pkt) : State :=
  if 65536 ≤ s.caravan.second.length then (s.bump ⟨0x0D, 0, 0⟩ k.part).dropRef k
  else { s with caravan := { s.caravan with second := s.caravan.second ++ [(w, k)] } }

/-- First copy of writer port `w`, and the copies without it. -/
def takeCopy (w : Nat) : List (Nat × Nat × Nat × Pkt) → Option ((Nat × Nat × Pkt) × List (Nat × Nat × Nat × Pkt))
  | [] => none
  | (v, e) :: t => if v = w then some (e, t) else (takeCopy w t).map fun r => (r.1, (v, e) :: r.2)

/-- MCAST_GROUP_WRITEs whose old replications have ended go on (R195). -/
def State.endReplications (s : State) : State :=
  s.waiting.foldl (fun s w =>
    match w.2.2.wait with
    | .mcast g _ chains =>
      if s.caravan.copies.any fun e => e.2.2.1 == g && chains.contains e.2.1 then s else s.resumeAfter mcastGroupSpec w.1 w.2.1
    | _ => s) s

/-- R255 to R257, R272: the Ledger evaluates the next packet of a writer port: a Caravan copy, else a packet delivered to it. A row
that finds no TMC cycle left in this TIME cycle (R256) changes nothing. -/
def execLedgerAdmission (dt : Nat) (w : Fin 8) (s : State) : Host.Outcome State Fault Refusal :=
  let s := s.pass dt
  match takeCopy w s.caravan.copies with
  | some ((c, g, k), rest) =>
    match s.evalSlot w k.pp.queue with
    | none => ans s
    | some j =>
      let s := (({ s with caravan := { s.caravan with copies := rest } }).evaluated j w k.pp.queue).decideCopy c g k
      ans s.endReplications
  | none =>
    match s.outputOf (24 + w) with
    | [] => ans s
    | k :: rest =>
      if k.pp.kind = kindMulticast then ans ((s.updOutput (24 + w) fun _ => rest).pushSecond w k)
      else
        match s.evalSlot w k.pp.queue with
        | none => ans s
        | some j => ans (((s.updOutput (24 + w) fun _ => rest).evaluated j w k.pp.queue).offer none k).1

end Sys2Proof.Machine
end

