-- ==== Sys2Proof/Machine/TwinClaim.lean ====
section
/-! DEFINITION. The claim of a twin pair (14_twin.md): claim numbers (R344, R345), taking and losing a claim, who leads a port's numbering
(R338, R340), lanterns sent (R347), the failure of the peer (R347, R349), and the outputs OUT_EN (R342) and ARB_CLAIM. -/

namespace Sys2Proof.Machine

/-! ### TWIN_CFG (R358) -/

def State.lockMode (s : State) : Bool := bit s.twinCfg 1
def State.grantGate (s : State) : Bool := bit s.twinCfg 4

/-- The interlock decides: LOCK_MODE 1, and B0, since A0 has none (R4, R346). -/
def State.lockRules (s : State) : Bool := s.lockMode && s.chip.stepping == 1

/-- Partitions that have a claim. -/
def State.twinParts (s : State) : List Nat := if s.partOn then [0, 1] else [0]

/-- Claim `a` is higher than `b`: 8-bit serial arithmetic; 0x00, no claim, is lower than every number. -/
def claimHigher (a b : Nat) : Bool :=
  a != 0 && (b == 0 || (a != b && decide (1 ≤ (a + 256 - b) % 256) && decide ((a + 256 - b) % 256 ≤ 127)))

/-- The peer's last seen claim plus 1, skipping 0x00 (R344). -/
def nextClaim (c : Nat) : Nat := if c = 255 then 1 else c + 1

def State.updTwin (s : State) (f : Twin → Twin) : State := { s with twin := f s.twin }

/-! ### Roles (R338, R340) -/

/-- Every port of a partition enters a sequence state: 0 SEARCH, 2 ALIGNED. -/
def State.setSeq (s : State) (p st : Nat) : State :=
  ((List.range 48).filter fun n => s.portPart n == p).foldl (fun s n =>
    s.updPort n fun t => { t with seqSt := st, seqD := 0, samples := [] }) s

/-- Carry out a change; where it changes a leader, ports search or are aligned, and the alignment of device time is looked at anew. -/
def State.twinChange (s : State) (f : State → State) : State :=
  let t := f s
  (([0, 1].filter fun p => s.leads p != t.leads p).foldl (fun t p => t.setSeq p (if t.leads p then 2 else 0)) t).noteTod

/-- Bit p: port p is ALIGNED at this unit, or led by it (R347, R358). -/
def State.seqAligned (s : State) : Nat :=
  if !s.isOn .twin then 0 else
  (List.range 48).foldl (fun m p => if s.leads (s.portPart p) || (s.port p).seqSt == 2 then m + 2 ^ p else m) 0

/-! ### Outputs -/

/-- OUT_EN[11:0] (R341, R342). -/
def State.outEn (s : State) : Nat :=
  if !s.isOn .twin then 0 else
  (List.range 12).foldl (fun m i =>
    if bit (s.reg 0x02C00008) i && (s.claim (s.groupPart (i / 2))).active then m + 2 ^ i else m) 0

/-- The lantern that the unit sends next (R347). -/
def State.lanternWord (s : State) : Nat :=
  let c := s.twinCfg
  0xA5 + bits c 8 8 * 2 ^ 8 + bits c 16 8 * 2 ^ 16 + b2n s.unit1 * 2 ^ 24 + b2n s.lockMode * 2 ^ 25 + b2n s.partOn * 2 ^ 26
    + s.twin.pair * 2 ^ 27 + b2n ((s.mode .twin).st == .quiescing || !s.chip.sysrst) * 2 ^ 29 + s.twin.a.num * 2 ^ 32
    + s.twin.b.num * 2 ^ 40 + s.twin.a.health * 2 ^ 48 + s.twin.lanternCount * 2 ^ 64 + s.seqAligned * 2 ^ 80

/-- The 112 bits of its copy on TWHB_P/N: bits [79:0], 16 zero bits, and the CRC over them (R347). -/
def twhbBody (w : Nat) : Nat := w % 2 ^ 80 + crc16 (leBytes 12 (w % 2 ^ 80)) * 2 ^ 96

/-- Send a lantern on both paths. -/
def State.lantern (s : State) : State :=
  let s := s.updTwin fun t => { t with lanternCount := (t.lanternCount + 1) % 65536 }
  s.updTwin fun t => { t with lastLantern := s.lanternWord, lastTwhb := twhbBody s.lanternWord }

/-! ### Starting and stopping side effects (R344 to R346) -/

/-- Commands of a partition that wait for its claim complete. -/
def State.endClaimWaits (s : State) (p : Nat) (w : Wait) (status : Nat) : State :=
  s.waiting.foldl (fun s r => if r.2.2.wait = w ∧ s.partOf r.1 = p then s.endWait r.1 r.2.1 status 0 0 [] else s) s

/-- Side effects start. -/
def State.startSide (s : State) (p : Nat) : State :=
  (s.updClaim p fun c => { c with active := true, waitEnd := none }).endClaimWaits p .twinClaim stOk

/-- Side effects have stopped: the claim becomes 0x00. A claim given up before they started ends its TWIN_CLAIM with NOT_CLAIMED. -/
def State.stopSide (s : State) (p : Nat) : State :=
  let c := s.claim p
  let s := s.twinChange fun s =>
    s.updClaim p fun c => { c with num := 0, active := false, stopping := 0, waitEnd := none }
  let s := if c.stopping = 2 then s.raise p evTwinClaimLost c.num else s
  (s.endClaimWaits p .twinRelease stOk).endClaimWaits p .twinClaim stNotClaimed

/-- Give up the claim: 1 released, 2 a higher claim, 3 grant lost, 4 lock lost. -/
def State.yieldClaim (s : State) (p cause : Nat) : State :=
  let c := s.claim p
  if c.stopping ≠ 0 then s
  else
    let s := s.updClaim p fun c => { c with stopping := cause }
    if c.active then s else s.stopSide p

/-- Take a claim (R344). -/
def State.takeClaim (s : State) (p n : Nat) : State :=
  let s := if (s.claim p).stopping = 0 then s else s.stopSide p
  let s := s.twinChange fun s => s.updClaim p fun c => { c with num := n, waitGrant := false }
  let s := if p = 0 then s.updTwin fun t => { t with arbClaim := false } else s
  let s := (s.raise p evTwinClaimTaken n).lantern
  if (s.claim p).active || s.twin.pair == 3 then s.startSide p
  else s.updClaim p fun c => { c with waitEnd := some (s.cyc + if s.twin.tw.up then 12 * cycUs else 34 * cycUs) }

/-- The peer shows its claim of a partition (R345). -/
def State.seeClaim (s : State) (p n : Nat) : State :=
  let s := s.twinChange fun s => s.updClaim p fun c => { c with peerClaim := n }
  let own := (s.claim p).num
  if !s.lockMode && own != 0 && (claimHigher n own || (n == own && s.unit1)) then s.yieldClaim p 2 else s

/-- A passport with an own pair id and another claim reaches the unit (R345). -/
def State.noteClaim (s : State) (pp : Passport) : State :=
  if !s.isOn .twin || pp.pairId == 0 || pp.claim == 0 then s else
  match s.twinParts.find? fun p => s.pairId p == pp.pairId with
  | none => s
  | some p => if (s.claim p).num = pp.claim then s else s.seeClaim p pp.claim

/-! ### The peer fails (R347, R349) -/

/-- Automatic takeover of a partition. -/
def State.autoTake (s : State) (p : Nat) : State :=
  let c := s.claim p
  if !bit s.twinCfg (2 + p) || s.lockMode || c.num != 0 || c.diverged || !s.twinParts.contains p then s
  else if p = 0 ∧ s.grantGate ∧ !s.twin.grant then s.updClaim p fun c => { c with waitGrant := true }
  else s.takeClaim p (nextClaim c.peerClaim)

/-- The peer is declared failed. -/
def State.declareFailed (s : State) : State :=
  let s := s.twinChange fun s => s.updTwin fun t => { t with pair := 3 }
  let s := (s.updTwin fun t => { t with arbClaim := t.a.num == 0 }).raise 0 evTwinPeerFailed
  let s := s.twinParts.foldl (fun s p => if (s.claim p).waitEnd.isSome then s.startSide p else s) s
  s.twinParts.foldl State.autoTake s

/-- The pair enters FORMING (R333): ARB_CLAIM falls, and a takeover that waited for ARB_GRANT ends. -/
def State.enterForming (s : State) : State :=
  s.twinChange fun s => s.updTwin fun t =>
    { t with
      pair := 1, arbClaim := false, a := { t.a with waitGrant := false, diffSince := none }
      b := { t.b with waitGrant := false, diffSince := none }, lastT1 := 0, echoT1 := 0, echoT2 := 0, peerRan := 0x0E }

end Sys2Proof.Machine
end

