-- ==== Sys2Proof/Machine/Fabric.lean ====
section
/-! DEFINITION. The fabric interface and the twin link's cell layer (09_fabric_interface.md): link negotiation (R229 to R232), cells
(R234 to R237), sending (R239, R240), credit (R241, R242), reassembly (R243), electrical idle (R244) and FAB_REACH_WRITE. -/

namespace Sys2Proof.Machine

/-- Counter of a link group: items CELLS_TX, CELLS_RX, CELL_BAD, REASM_ERR, CREDIT_OVERRUN, LINK_DOWN_DROP (R246). -/
def fabCtr (item : Nat) : CtrName := ⟨0x0F, 0, item⟩

/-! ### Capability words (R231, R353) -/

/-- Versions offered: those of the stepping masked by VMASK, and on fabric links of a pair by the peer's last RAN_MASK. -/
def State.offered (s : State) (j : Nat) : Nat :=
  let base := (if s.chip.stepping = 1 then 0x0E else 0x06) &&& (2 * s.regF 0x01C01000 12 3)
  if j < 24 ∧ s.isOn .twin ∧ (s.twin.pair = 1 ∨ s.twin.pair = 2) then base &&& s.twin.peerRan else base

/-- The word that the device sends on group `j`. -/
def State.capWord (s : State) (j : Nat) : Nat :=
  s.offered j + s.ownEndpoint * 2 ^ 8 + b2n (s.isOn .direct) * 2 ^ 20 + b2n s.partOn * 2 ^ 21 + b2n (s.isOn .twin) * 2 ^ 22
    + (if j < 24 then 0x1000 else 0x2000) * 2 ^ 32 + j * 2 ^ 48

def capVersions (w : Nat) : Nat := bits w 0 8
def capEndpoint (w : Nat) : Nat := bits w 8 12
def capDirect (w : Nat) : Bool := bit w 20
def capPartition (w : Nat) : Bool := bit w 21
def capTwin (w : Nat) : Bool := bit w 22
def capFe (w : Nat) : Bool := bit w 23
def capCredits (w : Nat) : Nat := bits w 32 16
def capGroup (w : Nat) : Nat := bits w 48 5

/-- The highest version that both ends offer; 0 when there is none (R232). -/
def State.commonVersion (s : State) (j w : Nat) : Nat := highestVersion (s.offered j &&& capVersions w) 7

/-- The cause of the first check that fails; 0 when all pass (R232). -/
def State.capCause (s : State) (j w : Nat) : Nat :=
  let twinGroup := decide (24 ≤ j)
  let direct := !twinGroup && s.isOn .direct
  if (twinGroup && capFe w) || (!twinGroup && s.isOn .fabric && !capFe w) || (direct && capFe w) then 2
  else if direct && (!capDirect w || capPartition w != s.partOn || capTwin w) then 3
  else if (direct || twinGroup) && capEndpoint w == s.ownEndpoint then 4
  else if s.commonVersion j w = 0 then 1
  else if s.commonVersion j w = 1 ∧ (s.isOn .twin ∨ twinGroup) then 5
  else 0

/-- Decide a link (R232): UP with the chosen version and the peer's credit, or NO_COMMON. -/
def State.decideLink (s : State) (j w : Nat) : State :=
  let cause := s.capCause j w
  if cause = 0 then
    let v := s.commonVersion j w
    (s.updLink j fun l =>
      { l with
        st := .up, version := v, cause := 0, word := w, peer := if j < 24 ∧ s.isOn .direct then some (capEndpoint w) else none
        changedRun := 0, credit := capCredits w, peerCredits := capCredits w
        sentUnits := 0, unitsRecv := 0, returnsRecv := 0, returnedUnits := 0, toReturn := 0, stalled := false, shortSince := none
        lastGood := s.cyc, lastSent := s.cyc, lastSync := s.cyc, txIdle := false, rxIdle := false }).raise 0 evFabLinkUp j v
  else
    (s.updLink j fun l => { l with st := .noCommon, version := 0, cause := cause, word := w, peer := none, changedRun := 0 }).raise 0
      evFabNoCommon j cause

/-- The link returns to CAP; from UP it raises FAB_LINK_DOWN with cause capability change (R229, R230, R246). -/
def State.toCap (s : State) (j : Nat) : State :=
  let was := (s.link j).st
  let s := s.updLink j fun l =>
    { l with st := .cap, version := 0, cause := 0, capRun := 0, changedRun := 0, stalled := false, shortSince := none
             lastCap := none, txIdle := false, rxIdle := false }
  if was == .up then (s.flushLink j).raise 0 evFabLinkDown j 2 else s

/-- A cell with a good HCRC arrives: the partner is not idle. -/
def State.goodCell (s : State) (j : Nat) (counted : Bool) : State :=
  let s := s.updLink j fun l => { l with lastGood := s.cyc, rxIdle := false }
  if counted then s.bump (fabCtr 1) j else s

/-- R229, R232: a CAP cell arrives with this word. -/
def execCapCellReceived (dt : Nat) (j : Fin 26) (word : BitVec 64) (s : State) : Host.Outcome State Fault Refusal :=
  let s := s.pass dt
  let w := word.toNat
  let l := s.link j
  if s.chip.d2dDown then ans s else
  match l.st with
  | .down => ans s
  | .cap =>
    let run := if l.capRun ≠ 0 ∧ l.capWord = w then l.capRun + 1 else 1
    let s := (s.goodCell j true).updLink j fun l => { l with capWord := w, capRun := run }
    if run = 3 then ans (s.decideLink j w) else ans s
  | .noCommon =>
    let s := s.goodCell j true
    if w = l.word then ans (s.updLink j fun l => { l with changedRun := 0 }) else
    let run := if l.changedRun ≠ 0 ∧ l.changed = w then l.changedRun + 1 else 1
    let s := s.updLink j fun l => { l with changed := w, changedRun := run }
    if run = 3 then ans (s.toCap j) else ans s
  | .up =>
    let s := s.goodCell j true
    if w = l.word then ans s else ans (s.toCap j)

/-- MW0 offset of FAB_GROUP_CTRL[j] (R5, R245). -/
def fabCtrlOff (j : Nat) : Nat := 0x38110C + 0x10 * j

/-- R229, R245: a write of 1 to FAB_GROUP_CTRL.RENEG. -/
def execReneg (dt : Nat) (fn : Fin 2) (j : Fin 26) (s : State) : Host.Outcome State Fault Refusal :=
  ans ((s.pass dt).sharedWrite fn (fabCtrlOff j) fun s =>
    if (s.link j).st == .noCommon || (s.link j).st == .up then s.toCap j else s)

/-! ### Cells (R234 to R238) -/

/-- HCRC: the CRC-8 of R234 as one byte. -/
def hcrc (bs : List Byte) : Byte := BitVec.ofNat 8 (crc8 bs)

/-- A cell: header bytes but the last, HCRC, and a payload padded to the cell's size. -/
def mkCell (size hdrBytes hdr : Nat) (payload : List Byte) : List Byte :=
  let h := leBytes (hdrBytes - 1) hdr
  h ++ [hcrc h] ++ payload ++ List.replicate (size - hdrBytes - payload.length) 0

/-- A control cell: code and fields. -/
def State.controlCell (s : State) (j code fields : Nat) : List Byte :=
  let p := leBytes 16 (code + fields * 2 ^ 64)
  let v := (s.link j).version
  if v ≤ 1 then mkCell 64 8 (2 + s.ownEndpoint * 2 ^ 11) p
  else mkCell (if v = 2 then 256 else 128) 16 (2 + (if v = 2 then 2 else 0) * 2 ^ 4 + s.ownEndpoint * 2 ^ 8) p

/-- Send a cell that is not an idle cell (R238, R246). -/
def State.sendCell (s : State) (j : Nat) (cell : List Byte) : State :=
  (s.updLink j fun l => { l with lastCell := cell, lastSent := s.cyc }).bump (fabCtr 0) j

/-- R230, R232: every 10 µs in CAP, and in NO_COMMON, a CAP cell. -/
def execCapCellSend (dt : Nat) (j : Fin 26) (s : State) : Host.Outcome State Fault Refusal :=
  let s := s.pass dt
  let l := s.link j
  if (l.st == .cap || l.st == .noCommon) && l.lastCap.all fun t => decide (t + 10 * cycUs ≤ s.cyc) then
    ans ((s.sendCell j (s.controlCell j 1 (s.capWord j))).updLink j fun l => { l with lastCap := some s.cyc })
  else ans s

/-- The reduced passport of version 2 (R236). -/
def Passport.reduced (p : Passport) : Nat :=
  p.kind % 16 + p.colour % 4 * 2 ^ 4 + b2n p.de * 2 ^ 6 + p.ecn % 4 * 2 ^ 7 + p.tc % 8 * 2 ^ 9 + p.dclass % 16 * 2 ^ 12
    + p.queue % 2 ^ 20 * 2 ^ 16 + p.dest % 2 ^ 20 * 2 ^ 36 + p.length % 2 ^ 16 * 2 ^ 56 + p.inPort % 256 * 2 ^ 72
    + p.pairId % 256 * 2 ^ 80 + p.claim % 256 * 2 ^ 88 + p.seq % 2 ^ 40 * 2 ^ 96 + p.hash % 2 ^ 32 * 2 ^ 136
    + p.edit % 2 ^ 24 * 2 ^ 168

/-- The full passport of a version-2 packet, but for the timestamp and the epoch (R237). -/
def Passport.ofReduced (x : Nat) : Passport :=
  { version := 1, kind := bits x 0 4, colour := bits x 4 2, de := bit x 6, ecn := bits x 7 2, tc := bits x 9 3
    dclass := bits x 12 4, queue := bits x 16 20, dest := bits x 36 20, length := bits x 56 16, inPort := bits x 72 8
    pairId := bits x 80 8, claim := bits x 88 8, seq := bits x 96 40, hash := bits x 136 32, edit := bits x 168 24 }

/-- Payload bytes of a packet's cells (R236). -/
def linkBytes (v : Nat) (k : Pkt) : List Byte :=
  (if v = 1 then [] else if v = 2 then leBytes 24 k.pp.reduced else leBytes 32 k.pp.encode) ++ k.data

/-- Destination endpoint and port in a packet's cell headers. -/
def Pkt.headDest (k : Pkt) : Nat × Nat :=
  (match k.via with | .endpoint ep => ep | _ => k.pp.endpoint, if k.pp.kind = kindMulticast then 0 else k.pp.port)

/-- Header of a data cell (R234, R235). -/
def dataHeader (v own : Nat) (k : Pkt) (first last : Bool) (size n credit : Nat) : Nat :=
  let d := k.headDest
  if v = 1 then
    b2n first * 2 ^ 2 + b2n last * 2 ^ 3 + k.pp.tc % 8 * 2 ^ 5 + b2n k.pp.de * 2 ^ 8 + k.pp.ecn % 4 * 2 ^ 9 + own * 2 ^ 11
      + d.2 % 256 * 2 ^ 23 + d.1 % 4096 * 2 ^ 31 + n * 2 ^ 43 + k.pp.hash % 128 * 2 ^ 49
  else
    b2n first * 2 ^ 2 + b2n last * 2 ^ 3 + (size / 64 - 2) * 2 ^ 4 + own * 2 ^ 8 + d.1 % 4096 * 2 ^ 20 + k.pp.tc % 8 * 2 ^ 32
      + n * 2 ^ 40 + b2n (decide (0 < credit)) * 2 ^ 64 + credit * 2 ^ 65

/-! ### Sending (R240, R241) -/

/-- The packet that the group sends next: the highest FIFO whose head's first cell fits the credit. -/
def State.pickPkt (s : State) (j : Nat) : Option Pkt :=
  let l := s.link j
  (s.fifoHeads j).find? fun k => decide (cellBytes l.version (passBytes l.version + k.data.length) / 64 ≤ l.credit)

/-- Units that a version-2 or version-3 cell returns. -/
def Link.returns (l : Link) : Nat := if l.version = 1 then 0 else min 8191 l.toReturn

/-- Record units returned in a cell. -/
def Link.returned (l : Link) (n : Nat) : Link :=
  { l with toReturn := l.toReturn - n, returnedUnits := (l.returnedUnits + n) % 2 ^ 32 }

/-- Send the next cell of a packet with `bs` payload bytes left; its last cell releases the packet's epoch reference (R145). -/
def State.sendData (s : State) (j : Nat) (k : Pkt) (bs : List Byte) (first : Bool) : State :=
  let l := s.link j
  let size := cellBytes l.version bs.length
  let pay := bs.take (cellPayload l.version)
  let rest := bs.drop (cellPayload l.version)
  let n := l.returns
  let hdr := dataHeader l.version s.ownEndpoint k first rest.isEmpty size pay.length n
  let cell := mkCell size (if l.version = 1 then 8 else 16) hdr pay
  let s := (s.sendCell j cell).updLink j fun l =>
    { l.returned n with
      credit := l.credit - size / 64, sentUnits := (l.sentUnits + size / 64) % 2 ^ 32
      sending := if rest.isEmpty then none else some (k, rest) }
  (if rest.isEmpty then s.dropRef k else s).noteCredit j

/-- A cell that carries no data returns what is owed: a credit cell of version 1, an idle cell of versions 2 and 3 (R241). -/
def State.sendReturn (s : State) (j : Nat) : State :=
  let l := s.link j
  if l.version = 1 then
    let n := min 65535 l.toReturn
    (s.sendCell j (mkCell 64 8 (1 + s.ownEndpoint * 2 ^ 11) (leBytes 2 n))).updLink j fun l => l.returned n
  else
    let n := l.returns
    let size := if l.version = 2 then 256 else 128
    let cell := mkCell size 16 (3 + (size / 64 - 2) * 2 ^ 4 + s.ownEndpoint * 2 ^ 8 + 2 ^ 64 + n * 2 ^ 65) []
    s.updLink j fun l => { l.returned n with lastCell := cell }

/-- R240, R241: the group sends its next cell: the next one of the packet in transmission, the first one of the packet that
the FIFOs give, or one that only returns units. Between packets of version 1, owed units go first. -/
def execFabricCellTransmit (dt : Nat) (j : Fin 26) (s : State) : Host.Outcome State Fault Refusal :=
  let s := (s.pass dt).noteCredit j
  let l := s.link j
  if l.st != .up || l.txIdle then ans s else
  let owed (s : State) : State := if (s.link j).toReturn = 0 then s else s.sendReturn j
  match l.sending with
  | some (k, bs) =>
    if cellBytes l.version bs.length / 64 ≤ l.credit then ans (s.sendData j k bs false) else ans (owed s)
  | none =>
    if l.version = 1 ∧ l.toReturn ≠ 0 then ans (s.sendReturn j) else
    match s.pickPkt j with
    | none => ans (owed s)
    | some k =>
      let s := s.updOutput (linkOutput j) fun o => o.erase k
      ans (s.sendData j k (linkBytes l.version k) true)

/-! ### Credit (R241, R242) -/

/-- Units come back; more than the receiver's CREDITS counts in CREDIT_OVERRUN. -/
def State.addCredit (s : State) (j n : Nat) : State :=
  let l := s.link j
  let s := if l.peerCredits < l.credit + n then s.bump (fabCtr 4) j else s
  (s.updLink j fun l => { l with credit := min l.peerCredits (l.credit + n) }).noteCredit j

/-- A credit return carried by a cell. -/
def State.gotReturn (s : State) (j n : Nat) : State :=
  if n = 0 then s
  else (s.addCredit j n).updLink j fun l => { l with returnsRecv := (l.returnsRecv + n) % 2 ^ 32 }

/-- R242: every 100 µs in UP, CREDIT_SYNC; in electrical idle it waits for the exit (R244). -/
def execCreditSyncSend (dt : Nat) (j : Fin 26) (s : State) : Host.Outcome State Fault Refusal :=
  let s := s.pass dt
  let l := s.link j
  if l.st == .up && !l.txIdle && decide (l.lastSync + 100 * cycUs ≤ s.cyc) then
    ans ((s.sendCell j (s.controlCell j 2 (l.sentUnits + l.returnedUnits * 2 ^ 32))).updLink j fun l => { l with lastSync := s.cyc })
  else ans s

/-- R242: a CREDIT_SYNC arrives. -/
def execCreditSyncReceived (dt : Nat) (j : Fin 26) (sentUnits returnedUnits : BitVec 32) (s : State) :
    Host.Outcome State Fault Refusal :=
  let s := s.pass dt
  if (s.link j).st != .up || s.chip.d2dDown then ans s else
  let s := s.goodCell j true
  let l := s.link j
  let d := (sentUnits.toNat + 2 ^ 32 - l.unitsRecv) % 2 ^ 32
  let e := (returnedUnits.toNat + 2 ^ 32 - l.returnsRecv) % 2 ^ 32
  let s := if 0 < d ∧ d < 2 ^ 31 then
      s.updLink j fun l => { l with toReturn := l.toReturn + d, unitsRecv := sentUnits.toNat }
    else s
  if 0 < e ∧ e < 2 ^ 31 then ans ((s.addCredit j e).updLink j fun l => { l with returnsRecv := returnedUnits.toNat }) else ans s

/-- STALL_MS as it acts. -/
def State.stallCyc (s : State) : Nat := max 1 (s.regF 0x01C01000 16 4) * cycMs

/-- R242: waiting data has lacked credit for STALL_MS. -/
def execFabCreditStall (dt : Nat) (j : Fin 26) (s : State) : Host.Outcome State Fault Refusal :=
  let s := (s.pass dt).noteCredit j
  let l := s.link j
  match l.shortSince with
  | none => ans s
  | some t =>
    if !l.stalled && decide (t + s.stallCyc ≤ s.cyc) then
      ans ((s.updLink j fun l => { l with stalled := true }).raise 0 evFabCreditStall j)
    else ans s

/-- R238, R241: an idle cell (kind 0), a credit cell (1) or KEEPALIVE (2) arrives, with the units that it returns. -/
def execIdleOrCreditCellReceived (dt : Nat) (j : Fin 26) (kind : Fin 3) (units : Nat) (s : State) :
    Host.Outcome State Fault Refusal :=
  let s := s.pass dt
  if (s.link j).st == .down || s.chip.d2dDown then ans s
  else
    let s := s.goodCell j (kind != 0)
    if (s.link j).st == .up then ans (s.gotReturn j units) else ans s

/-! ### Keepalive and timeouts (R238) -/

/-- R238: no other cell sent for 100 µs. -/
def execKeepaliveSend (dt : Nat) (j : Fin 26) (s : State) : Host.Outcome State Fault Refusal :=
  let s := s.pass dt
  let l := s.link j
  if l.st == .up && !l.txIdle && decide (l.lastSent + 100 * cycUs ≤ s.cyc) then
    ans (s.sendCell j (s.controlCell j 4 0))
  else ans s

/-- R238: no good cell for 1 ms, and the partner has not announced idle. -/
def execReceiveTimeout (dt : Nat) (j : Fin 26) (s : State) : Host.Outcome State Fault Refusal :=
  let s := s.pass dt
  let l := s.link j
  if l.st == .up && !l.rxIdle && decide (l.lastGood + cycMs ≤ s.cyc) then ans (s.linkDown j 1) else ans s

/-! ### Electrical idle (R244) -/

def State.idleUs (s : State) : Nat := s.regF 0x01C01000 20 12

/-- Something waits to be sent on the group. -/
def State.txWaits (s : State) (j : Nat) : Bool :=
  (s.link j).sending.isSome || !(s.fifoHeads j).isEmpty || decide ((s.link j).toReturn ≠ 0)

/-- R244: nothing but idle cells for IDLE_US, no data, no CREDIT_SYNC due: IDLE_ENTER, and the lanes stop. -/
def execIdleEnter (dt : Nat) (j : Fin 26) (s : State) : Host.Outcome State Fault Refusal :=
  let s := s.pass dt
  let l := s.link j
  if l.st == .up && !l.txIdle && s.idleUs != 0 && decide (l.lastSent + s.idleUs * cycUs ≤ s.cyc) && !s.txWaits j
      && decide (s.cyc < l.lastSync + 100 * cycUs) then
    ans ((s.sendCell j (s.controlCell j 3 0)).updLink j fun l => { l with txIdle := true })
  else ans s

/-- R244: the partner announces idle. -/
def execIdleEnterReceived (dt : Nat) (j : Fin 26) (s : State) : Host.Outcome State Fault Refusal :=
  let s := s.pass dt
  if (s.link j).st == .up && !s.chip.d2dDown then ans ((s.goodCell j true).updLink j fun l => { l with rxIdle := true }) else ans s

/-- R244: a cell is ready: the lanes send a training burst and leave idle. -/
def execIdleExit (dt : Nat) (j : Fin 26) (s : State) : Host.Outcome State Fault Refusal :=
  let s := s.pass dt
  if (s.link j).txIdle && s.txWaits j then ans (s.updLink j fun l => { l with txIdle := false }) else ans s

/-- R244: the partner's lanes leave idle, and this end does not regain lock within 2 µs. -/
def execIdleExitTimeout (dt : Nat) (j : Fin 26) (s : State) : Host.Outcome State Fault Refusal :=
  let s := s.pass dt
  if (s.link j).st == .up && (s.link j).rxIdle then ans (s.linkDown j 1) else ans s

/-! ### Receiving (R237, R243) -/

/-- A received cell's header as a number. -/
def cellHeader (v : Nat) (cell : List Byte) : Nat := leNat (cell.take (if v = 1 then 8 else 16))

def hdrBytes (v : Nat) : Nat := if v = 1 then 8 else 16

/-- The cell's HCRC is right. -/
def hcrcGood (v : Nat) (cell : List Byte) : Bool :=
  decide (hdrBytes v ≤ cell.length) && (cell.drop (hdrBytes v - 1)).head? == some (hcrc (cell.take (hdrBytes v - 1)))

/-- Length that the version and the SIZE field give; 0 for a reserved SIZE. -/
def cellLength (v hdr : Nat) : Nat :=
  if v = 1 then 64 else
  let n := bits hdr 4 3
  if n = 7 ∨ (v = 2 ∧ n ≠ 2) then 0 else (n + 2) * 64

def hdrType (h : Nat) : Nat := bits h 0 2
def hdrFirst (h : Nat) : Bool := bit h 2
def hdrLast (h : Nat) : Bool := bit h 3
def hdrSrc (v h : Nat) : Nat := if v = 1 then bits h 11 12 else bits h 8 12
def hdrCount (v h : Nat) : Nat := if v = 1 then bits h 43 6 else bits h 40 9
/-- Units that a cell of version 2 or 3 returns in its header. -/
def hdrReturn (v h : Nat) : Nat := if v ≠ 1 ∧ bit h 64 then bits h 65 13 else 0

/-- Space of a cell or packet that was received and discarded is returned. -/
def State.giveBack (s : State) (j n : Nat) : State := s.updLink j fun l => { l with toReturn := l.toReturn + n }

/-- A packet is discarded in reassembly (R243). -/
def State.reasmErr (s : State) (j units : Nat) : State := (s.bump (fabCtr 3) j).giveBack j units

def State.updCtxs (s : State) (j : Nat) (f : NMap Reasm → NMap Reasm) : State := s.updLink j fun l => { l with ctxs := f l.ctxs }

/-- The passport of a complete packet, and its frame (R237). -/
def State.rebuild (s : State) (v hdr : Nat) (bs : List Byte) : Passport × List Byte :=
  let data := bs.drop (passBytes v)
  let stamp (p : Passport) : Passport := { p with tns := nsOf s.now, tsec := secOf s.now % 256 }
  if v = 1 then
    let port := bits hdr 23 8
    let tc := bits hdr 5 3
    (stamp { tc := tc, de := bit hdr 8, ecn := bits hdr 9 2, dclass := tc
             queue := (s.regF (0x01C02000 + 8 * port) 0 20 + tc) % 2 ^ 20, dest := mkDest (bits hdr 31 12) port
             length := data.length, inPort := 0xFF, hash := bits hdr 49 7
             edit := (s.regF (0x01C02004 + 8 * port) 0 24 + tc) % 2 ^ 24 }, data)
  else if v = 2 then (stamp (Passport.ofReduced (leNat (bs.take 24))), data)
  else (Passport.decode (leNat (bs.take 32)), data)

/-- A message for the twin controller (R335). -/
def State.twinMessage (s : State) (j : Nat) (p : Passport) : Bool :=
  decide (24 ≤ j) && p.kind == kindUnicast && p.inPort == 0xFF && p.endpoint == s.ownEndpoint && p.port == 0xFF

/-- A packet is complete on group `j` (R237, R243): length, passport, twin message, epoch, dedup, and the switch core's input. A twin
message's effect is that of its own row. -/
def State.reassembled (s : State) (j units v hdr : Nat) (bs : List Byte) : State :=
  let r := s.rebuild v hdr bs
  let pp := r.1
  let data := r.2
  if bs.length < passBytes v ∨ pp.length ≠ data.length ∨ 16383 < data.length then s.reasmErr j units
  else if !pp.good then (s.bump ⟨0x0E, 3, 1⟩ 0).giveBack j units
  else if s.twinMessage j pp then s.giveBack j units
  else
    let s := s.noteClaim pp
    let part := s.destPart { pp := pp }
    let ep := (s.epochs part).cur
    let k : Pkt := { pp := { pp with epoch := s.epochNum part ep }, data := data, ep := ep, part := part, modes := s.modesOn
                     arrived := s.now, ip := findIp data }
    match (s.takeRef part ep).dedup k with
    | (s, false) => s.giveBack j units
    | (s, true) => s.updInput (if j < 24 then 4 + j else 28) (· ++ [{ k with rxLink := j, rxUnits := units, viaFb := decide (j < 24) }])

/-- A good data cell joins its source's context. -/
def State.takeCell (s : State) (j v hdr units : Nat) (payload : List Byte) : State :=
  let src := hdrSrc v hdr
  let open_ := (s.link j).ctxs.find? src
  let s := match open_ with
    | some c => if hdrFirst hdr then (s.reasmErr j c.units).updCtxs j (·.del src) else s
    | none => s
  let ctx : Option Reasm := if hdrFirst hdr then some { hdr := hdr } else open_
  match ctx with
  | none => s.reasmErr j units
  | some c =>
    if hdrFirst hdr && decide (512 ≤ (s.link j).ctxs.length) then s.reasmErr j units else
    let c := { c with bytes := c.bytes ++ payload.take (hdrCount v hdr), units := c.units + units, last := s.cyc }
    if hdrLast hdr then (s.updCtxs j (·.del src)).reassembled j c.units v c.hdr c.bytes
    else s.updCtxs j (·.ins src c)

/-- What the group's FEC counts: ports 48 + j and lanes 48 + 4j + i of the lane set (R246, R78). -/
def State.countCell (s : State) (j : Nat) (err : CellErr) : State :=
  (err.symErrs.take 4).zipIdx.foldl (fun s (n, i) => s.bumpNz ⟨2, 0, 1⟩ (48 + 4 * j + i) n)
    (s.bumpNz ⟨2, 1, 0⟩ (48 + j) err.corrCw |>.bumpNz ⟨2, 1, 1⟩ (48 + j) err.uncorrCw)

/-- R243: a cell arrives. One that is bad is counted in every state of the link but DOWN, with what the group's FEC met (R246); before
UP, when cells have the layout of version 1 (R232), a good one carries no data (R230). -/
def execDataCellReceived (dt : Nat) (j : Fin 26) (cell : List Byte) (err : CellErr) (s : State) :
    Host.Outcome State Fault Refusal :=
  let s := s.pass dt
  let l := s.link j
  if l.st == .down || s.chip.d2dDown then ans s else
  let s := s.countCell j err
  let v := if l.st == .up then l.version else 1
  let hdr := cellHeader v cell
  if err.lost || !hcrcGood v cell then ans (s.bump (fabCtr 2) j) else
  let s := s.goodCell j (hdrType hdr != 3)
  if cell.length ≠ cellLength v hdr then ans (s.bump (fabCtr 2) j) else
  if l.st != .up then ans s else
  let s := s.gotReturn j (hdrReturn v hdr)
  if hdrType hdr ≠ 0 then ans s else
  let n := cell.length / 64
  let s := s.updLink j fun l => { l with unitsRecv := (l.unitsRecv + n) % 2 ^ 32 }
  ans (s.takeCell j v hdr n (cell.drop (hdrBytes v)))

/-- R243: a context has received no cell for 100 µs. -/
def execReassemblyTimeout (dt : Nat) (j : Fin 26) (src : Fin 4096) (s : State) : Host.Outcome State Fault Refusal :=
  let s := s.pass dt
  match (s.link j).ctxs.find? src with
  | none => ans s
  | some c =>
    if c.last + 100 * cycUs ≤ s.cyc then ans ((s.reasmErr j c.units).updCtxs j (·.del src)) else ans s

/-! ### FAB_REACH_WRITE (R239, R385) -/

def fabReachBody (s : State) (_c : Cmd) (x : Nat) : Out :=
  if bits x 12 20 ≠ 0 ∨ bits x 56 8 ≠ 0 then .fail s stBadArg
  else .ok { s with fabric := { s.fabric with reach := s.fabric.reach.put 0 (bits x 0 12) (bits x 32 24) } }

def fabReachSpec : OpSpec := { code := 0x0700, entryLen := fixedLen 8, batch := true, aOnly := true, body := fabReachBody }

/-- R239. -/
def execFabReachWrite (i : Issue) (s : State) : Host.Outcome State Fault Refusal := ans (s.runCommand fabReachSpec i)

end Sys2Proof.Machine
end

