-- ==== Sys2Proof/Machine/Power.lean ====
section
/-! DEFINITION. Power domains (18_power_reset_bringup.md): states and transitions (R413, R438), draining (R439), the start after a
reset (R440), and the power commands (R437, R441, R442). Line lanes follow their group, FB and TW lanes their mode. -/

namespace Sys2Proof.Machine

/-! ### The domains (R437) -/

/-- Kinds of domains. -/
inductive DomKind where
  | line | fab | tw | stage | hbm | ddr | tcam | tile
deriving DecidableEq, Repr

def domKind (d : Nat) : DomKind :=
  if d < 48 then .line else if d < 144 then .fab else if d < 152 then .tw else if d < 184 then .stage
  else if d < 200 then .hbm else if d < 208 then .ddr else if d < 220 then .tcam else .tile

/-- Numeric code of a state (R36, R442). -/
def OnOff.code : OnOff → Nat
  | .off => 0 | .starting => 1 | .on => 2 | .quiescing => 3

/-- State of a domain: a line lane's is its group's while a port uses it, FB and TW lanes' that of their mode. -/
def State.domainSt (s : State) (d : Nat) : OnOff :=
  match domKind d with
  | .line => if (s.portOfLane d).isSome then (s.group (d / 8)).st else .off
  | .fab => if (s.mode .fabric).st == .off then (s.mode .direct).st else (s.mode .fabric).st
  | .tw => (s.mode .twin).st
  | _ => (s.domain d).st

/-- A domain that partition B owns (R437). -/
def domainOfB (d : Nat) : Bool :=
  (decide (204 ≤ d) && decide (d < 208)) || (decide (214 ≤ d) && decide (d < 220)) || (decide (228 ≤ d) && decide (d < 236))

/-- Partition on whose ring the events of a domain are raised (R448). -/
def State.domainPart (s : State) (d : Nat) : Nat := if s.partOn && domainOfB d then 1 else 0

/-- On-to-off bound in cycles (R438). -/
def domainBound (d : Nat) : Nat :=
  match domKind d with
  | .stage => 50 * cycUs
  | .hbm => 20 * cycUs
  | .ddr => 20 * cycUs
  | .tcam => 10 * cycUs
  | .tile => 10 * cycMs
  | _ => 250 * cycUs

/-! ### Conditions (R272, R300, R438) -/

/-- A search profile that some live epoch sees names the bank. -/
def State.bankNamed (s : State) (b : Nat) : Bool :=
  (List.range 16).any fun t =>
    let e := s.epochs (if s.partOn && decide (8 ≤ t) then 1 else 0)
    (s.versions (tblKey 2 t)).any fun v =>
      decide (v.birth ≤ e.cur) && v.death.all (fun x => decide (max e.oldest v.birth < x)) && bit v.data b

/-- Tile of an element of a level (R271). -/
def elemTile (level ix : Nat) : Nat := ix / (levelCount level / 16)

/-- Attached queues of other tiles whose parent lies on the tile. -/
def State.tileParents (s : State) (t : Nat) : Bool :=
  s.tm.queues.any fun (n, q) => s.attached q && elemTile 4 n != t && elemTile 3 q.parent == t

/-- Attached nodes of other tiles whose parent lies on the tile. -/
def State.tileNodeParents (s : State) (t : Nat) : Bool :=
  s.tm.nodes.any fun (k, n) =>
    let level := k / 2 ^ 17
    let ix := k % 2 ^ 17
    let above := s.nodeAt (level - 1) n.parent
    decide (2 ≤ level) && n.enable && above.enable && (level == 2 || (s.nodeAt 1 above.parent).enable)
      && elemTile level ix != t && elemTile (level - 1) n.parent == t

/-- A queue of the tile has a non-zero guaranteed rate, or one that a reduction still holds, or a packet with a bound (R23, R24, R262). -/
def State.tilePromises (s : State) (t : Nat) : Bool :=
  s.tm.queues.any fun (n, q) => queueTile n == t && (decide (0 < s.heldRate q) || q.pkts.any (·.bound.isSome))

/-- A line port of slice `k` has a queue with a non-zero guaranteed rate (R23). -/
def State.slicePromises (s : State) (k : Nat) : Bool := (List.range 48).any fun p => p / 12 == k && s.portPromises p

/-- Status with which a disable is refused; OK when its condition holds. A domain on the path of a port with a promised queue is refused
with OVERCOMMIT (R23). -/
def State.offRefused (s : State) (d : Nat) : Nat :=
  match domKind d with
  | .stage =>
    let k := (d - 152) / 4 % 4
    if (List.range 12).any fun i => (s.group ((12 * k + i) / 8)).st != .off then stBadArg
    else if s.slicePromises k then stOvercommit else stOk
  | .hbm =>
    let l := if d < 192 then (List.range 32).map (152 + ·) ++ (List.range 12).map (208 + ·) else (List.range 16).map (220 + ·)
    if l.any fun x => (s.domain x).st != .off then stBadArg
    else if (List.range 48).any s.portPromises then stOvercommit else stOk
  | .ddr => if (s.mode .cellar).st != .off then stBadArg else stOk
  | .tcam => if s.bankNamed (d - 208) then stBadArg else stOk
  | .tile =>
    let t := d - 220
    if s.tilePromises t then stOvercommit
    else if s.tileParents t || s.tileNodeParents t then stBadArg else stOk
  | _ => stBadArg

/-! ### Contents (R292, R438) -/

/-- INN_ROOMS.TOTAL (R226, R297). -/
def State.refreshRooms (s : State) : State :=
  { s with inn := { s.inn with
      roomsTotal := if (s.stack 2).st = 3 ∧ (s.stack 3).st = 3 then 0x14000000 else 0 } }

/-- Statistics backing of one die returns to zero. -/
def State.clearBacking (s : State) (onF : Bool) : State :=
  { s with tele := { s.tele with ctrs := s.tele.ctrs.foldl (fun m (k, _) =>
      if ctrOnF (k / (0x10000000 * 256)) == onF then NMap.upd m {} k fun c => { c with backing := 0 } else m) s.tele.ctrs } }

/-- Marks on the data of some structures are gone with the data. -/
def State.dropMarks (s : State) (l : List Nat) : State :=
  { s with mem := { s.mem with poison := s.mem.poison.filter fun e => !l.contains e.1 } }

/-- Every structure that stacks H0 and H1 hold returns to its reset contents. -/
def State.resetF (s : State) : State :=
  let inStash (k : Nat) (v : Ver) : Bool := s.lookup.emPlace.contains (k, v.birth, 2)
  let keep (k : Nat) (vs : List Ver) : List Ver :=
    let t := k / 2 ^ 400
    if t = 3 ∨ t = 8 then [] else if t = 4 then vs.filter (inStash k) else vs
  let tabs := s.lookup.tabs.foldl (fun m (k, vs) => NMap.put m [] k (keep k vs)) s.lookup.tabs
  (({ s with lookup := { s.lookup with
      tabs := tabs, buckets := [], emPlace := s.lookup.emPlace.filter fun e => e.2.2 == 2 } }).dropMarks
    [structTable, structRewrite]).clearBacking true

/-- Every structure that stacks H2 and H3 hold returns to its reset contents. -/
def State.resetT (s : State) : State :=
  let s := s.dropRefs ((s.caravan.copies.map fun e => e.2.2.2) ++ s.copySources)
  let s := { s with caravan := { s.caravan with groups := [], esets := [], members := [], copies := [] } }
  let s := { s with tm := { s.tm with queues := [], nodes := [], policers := [] } }
  let pools := s.inn.pools.foldl (fun m (k, p) =>
    NMap.put m {} k { p with used := (s.inn.retiredRooms.filter fun e => e.2 == k).length }) s.inn.pools
  let s := { s with inn := { s.inn with rooms := [], chains := [], quarantined := [], pools := pools, poisonRooms := [] } }
  let s := s.dropMarks [structGroup, structEset, structMember]
  let s := if s.isOn .cellar then s else { s with tele := { s.tele with capture := [] } }
  (s.clearBacking false).endReplications

/-- Refresh and scrubbing of units and the pauses of channels begin to count now. -/
def State.startUnits (s : State) (us chs : List Nat) : State :=
  let s := us.foldl (fun s u => s.updUnit u fun _ => { dueAt := s.cyc, lastAccess := s.cyc }) s
  { s with mem := { s.mem with
      lastPause := chs.foldl (fun m c => NMap.ins m c s.cyc) s.mem.lastPause
      scrubs := us.foldl (fun m u => NMap.ins m u { start := s.cyc }) s.mem.scrubs } }

/-! ### Transitions (R413, R438 to R440) -/

/-- The die of a forwarding domain has no FAILED stack (R297). -/
def State.dieGood (s : State) (d : Nat) : Bool :=
  match domKind d with
  | .stage => (s.stack 0).st != 4 && (s.stack 1).st != 4
  | .tcam => (s.stack 0).st != 4 && (s.stack 1).st != 4
  | .tile => (s.stack 2).st != 4 && (s.stack 3).st != 4
  | _ => true

/-- The next direction of a domain takes effect when its state lets it. -/
def State.domainNext (s : State) (d : Nat) : State :=
  let x := s.domain d
  match x.st, x.todo with
  | .off, true :: t =>
    if !s.dieGood d then s else
    let s := s.updDomain d fun x => { x with st := .starting, todo := t, turn := x.turn + 1, since := s.cyc, dropped := 0 }
    if domKind d = .hbm then (s.updStack ((d - 184) / 4) fun h => { h with st := 2 }).refreshRooms else s
  | .on, false :: t =>
    let s := if domKind d = .stage then s.syncSlots ((d - 152) / 4) else s
    s.updDomain d fun x => { x with st := .quiescing, todo := t, turn := x.turn + 1, since := s.cyc, dropped := 0 }
  | _, _ => s

/-- Switch a domain; repeated requests coalesce. -/
def State.domainSwitch (s : State) (d : Nat) (on : Bool) : State :=
  if (s.domain d).wantsOn = on then s
  else (s.updDomain d fun x => { x with todo := x.todo ++ [on] }).domainNext d

/-- A domain reaches ON. -/
def State.domainOn (s : State) (d : Nat) : State :=
  let s := s.updDomain d fun x => { x with st := .on }
  let k := (d - 152) / 4
  let s := if domKind d = .stage then { s with tele := { s.tele with slotDone := s.tele.slotDone.put 0 k s.slotNow } } else s
  let s := if domKind d = .ddr then
      s.updXm (d - 200) fun x => if x.st = 2 then x else { x with st := if x.dimms = 0 then 0 else 1, cause := 0 }
    else s
  (s.powerDone 0 d (s.domain d).turn 0).domainNext d

/-- R438: a domain's own start ends. The HBM groups start with their stacks after a reset (R440); one turned on later ends its own
training and loses what its pair held. -/
def execDomainStartingDone (dt : Nat) (d : Fin 236) (s : State) : Host.Outcome State Fault Refusal :=
  let s := s.pass dt
  let d := d.val
  let k := (d - 184) / 4
  if (s.domain d).st != .starting || (domKind d == .hbm && ((s.stack k).boot || (s.stack k).st == 4)) then ans s
  else if domKind d = .hbm then
    let g := (d - 184) % 4
    let s := (s.domainOn d).startUnits ((List.range 8).map (32 + 32 * k + 8 * g + ·)) ((List.range 4).map (8 + 16 * k + 4 * g + ·))
    let all := (List.range 4).all fun g => (s.domain (184 + 4 * k + g)).st == .on
    let s := if all then s.updStack k fun h => { h with st := 3 } else s
    ans (if k < 2 then s.resetF else s.resetT).refreshRooms
  else ans (s.domainOn d)

/-- Packets inside a domain (R272, R439): a tile's queued packets, a slice's staged or edited frames. -/
def State.domainHolds (s : State) (d : Nat) : Bool :=
  let k := (d - 152) / 4
  match domKind d with
  | .tile => s.tm.queues.any fun (n, q) => queueTile n == d - 220 && !q.pkts.isEmpty
  | .stage =>
    if k < 4 then !(s.stagingOf k).isEmpty
    else s.tm.egress.any fun (p, e) => portSlice p + 4 == k && !(e.released.isEmpty && e.edited.isEmpty)
  | _ => false

/-- Drop the packets still inside: their number. -/
def State.domainFlush (s : State) (d : Nat) : State × Nat :=
  let k := (d - 152) / 4
  match domKind d with
  | .tile =>
    (s.tm.queues.filter fun (n, _) => queueTile n == d - 220).foldl (fun (s, c) (n, u) =>
      let r := s.purgeQueue n u.pkts.length
      (r.1.clearDeficits n (s.pathOf u), c + r.2)) (s, 0)
  | .stage =>
    if k < 4 then ((s.dropRefs (s.stagingOf k)).updStaging k fun _ => [], (s.stagingOf k).length)
    else (s.tm.egress.filter fun (p, _) => portSlice p + 4 == k).foldl (fun (s, c) (p, _) =>
      let r := s.purgeEgress p
      (r.1, c + r.2)) (s, 0)
  | _ => (s, 0)

/-- A domain reaches OFF with `n` more packets dropped. -/
def State.domainOff (s : State) (d n : Nat) : State :=
  let s := s.updDomain d fun x => { x with st := .off, dropped := x.dropped + n }
  let s := if domKind d = .hbm then (s.updStack ((d - 184) / 4) fun h => { h with st := 1 }).refreshRooms else s
  let s := if domKind d = .ddr then
      s.updXm (d - 200) fun x => { x with st := if x.dimms = 0 then 0 else 1, cause := 0, gib := 0 }
    else s
  let k := s.domain d
  ((s.raise (s.domainPart d) evPwrDomainDrained d k.dropped).powerDone 0 d k.turn k.dropped).domainNext d

/-- No element on a tile is the parent of an attached element on another tile (R272). -/
def State.domainFree (s : State) (d : Nat) : Bool :=
  match domKind d with
  | .tile => !(s.tileParents (d - 220) || s.tileNodeParents (d - 220))
  | _ => true

/-- R439: the domain has drained: it reaches OFF. -/
def execDomainQuiescingDone (dt : Nat) (d : Fin 236) (s : State) : Host.Outcome State Fault Refusal :=
  let s := s.pass dt
  if (s.domain d).st != .quiescing || s.domainHolds d || !s.domainFree d then ans s else ans (s.domainOff d 0)

/-- R439: the bound expires: what is still inside is dropped; a tile whose elements serve others stays QUIESCING (R272). -/
def execDomainDrainTimeout (dt : Nat) (d : Fin 236) (s : State) : Host.Outcome State Fault Refusal :=
  let s := s.pass dt
  let x := s.domain d
  if x.st != .quiescing || decide (s.cyc < x.since + domainBound d) then ans s else
  let r := s.domainFlush d
  if r.1.domainFree d then ans (r.1.domainOff d r.2)
  else ans (r.1.updDomain d fun x => { x with dropped := x.dropped + r.2 })

/-! ### Commands (R441, R442) -/

def powerOk (x : Nat) : Bool :=
  bits x 2 6 == 0 && bits x 16 48 == 0
    && ((bits x 0 2 == 0 && decide (152 ≤ bits x 8 8) && decide (bits x 8 8 < 236)) || (bits x 0 2 == 1 && decide (bits x 8 8 < 6)))

/-- A domain named from PF1 is partition B's; a lane group likewise (R49, R437). -/
def State.powerOwn (s : State) (c : Cmd) (kind ix : Nat) : Bool :=
  c.part == 0 || (if kind = 0 then domainOfB ix else s.groupPart ix == 1)

/-- The command completes at once when its function has reached the direction asked for, and waits otherwise (R413). -/
def powerOut (s : State) (kind ix : Nat) (x : Domain) : Out :=
  if x.todo.isEmpty && (x.st == .on || x.st == .off) then .ok s else .wait s (.power kind ix (x.turn + x.todo.length))

def powerBody (on : Bool) (s : State) (c : Cmd) (x : Nat) : Out :=
  let kind := bits x 0 2
  let ix := bits x 8 8
  if !powerOk x then .fail s stBadArg
  else if s.partOn && !s.powerOwn c kind ix then .fail s stProtected
  else if kind = 0 then
    let refused := if !on && (s.domain ix).wantsOn then s.offRefused ix else stOk
    if refused ≠ stOk then .fail s refused
    else
      let s := s.domainSwitch ix on
      powerOut s 0 ix (s.domain ix)
  else if !s.applied then .fail s stBadArg
  else if on then
    let r := if (s.group ix).wantsOn then (s, true) else s.groupEnableCheck ix
    if !r.2 then .fail r.1 stBadArg
    else
      let s := r.1.groupSwitch ix true
      powerOut s 1 ix (s.group ix)
  else if (s.group ix).wantsOn && s.groupPromises ix then .fail s stOvercommit
  else
    let s := s.groupSwitch ix false
    powerOut s 1 ix (s.group ix)

def powerOnSpec : OpSpec := { code := 0x0B00, entryLen := fixedLen 8, body := powerBody true }
def powerOffSpec : OpSpec := { code := 0x0B01, entryLen := fixedLen 8, critical := alwaysCritical, body := powerBody false }

/-- R441. -/
def execPowerDomainOn (i : Issue) (s : State) : Host.Outcome State Fault Refusal := ans (s.runCommand powerOnSpec i)

/-- R441. -/
def execPowerDomainOff (i : Issue) (s : State) : Host.Outcome State Fault Refusal := ans (s.runCommand powerOffSpec i)

/-- The 64 bytes of POWER_STATUS_READ. -/
def State.powerStatus (s : State) : List Byte :=
  leBytes 64 ((List.range 6).foldl (fun n g => n + (s.group g).st.code * 2 ^ (472 + 2 * g))
    ((List.range 236).foldl (fun n d => n + (s.domainSt d).code * 2 ^ (2 * d)) 0))

def powerReadSpec : OpSpec :=
  { code := 0x0B02, entryLen := fixedLen 0, reads := true, respLen := fun _ _ _ => 64, body := fun s _ _ => .okResp s 0 s.powerStatus }

/-- R442. -/
def execPowerStatusRead (i : Issue) (s : State) : Host.Outcome State Fault Refusal := ans (s.runCommand powerReadSpec i)

end Sys2Proof.Machine
end

