-- ==== Sys2Proof/Machine/MemCtl.lean ====
section
/-! DEFINITION. The memory controllers (12_memory.md): HBM training (R297, R440), the DDR-5 probe and MEM_TRAIN (R298), retraining
pauses (R299), power-down (R300), refresh and temperature (R301 to R304), scrubbing (R305 to R307). -/

namespace Sys2Proof.Machine

/-! ### HBM training (R297, R440) -/

/-- Once all four stacks have trained, AUTO_ON switches the forwarding domains ON. -/
def State.autoOn (s : State) : State :=
  if (List.range 4).all (fun k => (s.stack k).st == 3) && bit (s.reg 0x0340000C) 0 then
    ((List.range 32).map (152 + ·) ++ (List.range 28).map (208 + ·)).foldl (fun s d => s.domainSwitch d true) s
  else s

/-- R297: the training of a stack that follows a reset ends. -/
def execHbmTrainingDone (dt : Nat) (stack : Fin 4) (ok : Bool) (s : State) : Host.Outcome State Fault Refusal :=
  let s := s.pass dt
  let k := stack.val
  if !(s.stack k).boot then ans s
  else if ok then
    let s := s.updStack k fun h => { h with st := 3, boot := false }
    let s := (List.range 4).foldl (fun s g => s.domainOn (184 + 4 * k + g)) s
    let s := s.startUnits ((List.range 32).map (32 + 32 * k + ·)) ((List.range 16).map (8 + 16 * k + ·))
    ans s.refreshRooms.autoOn
  else ans ((s.updStack k fun h => { h with st := 4, boot := false }).raise 0 evMemStackFail k)

/-! ### DDR-5 channels (R298) -/

/-- R298: the probe of a channel ends. -/
def execDimmProbeDone (dt : Nat) (c : Fin 8) (dimms : Fin 3) (ranks : Fin 3) (gib : Fin 129) (conforms readable dense : Bool)
    (s : State) : Host.Outcome State Fault Refusal :=
  let s := s.pass dt
  if (s.xm c).probed then ans s else
  ans (s.updXm c fun x =>
    { x with
      probed := true, st := if dimms.val = 0 then 0 else 1, dimms := dimms, ranks := if dimms.val = 0 then 0 else ranks.val, dense := dense
      conforms := conforms && (ranks.val == 1 || ranks.val == 2) && decide (gib.val ≤ 128), readable := readable, dimmGib := gib })

/-- Partition of a channel (R49). -/
def chanMaskOf (part : Nat) : Nat := if part = 0 then 0x0F else 0xF0

/-- Channels that a mask names. -/
def maskChans (m : Nat) : List Nat := (List.range 8).filter fun c => bit m c

/-- MEM_TRAIN takes its channels: a channel that is OFF is switched ON first (R437); a populated one reads TRAINING, and takes the current
MAP. -/
def memTrainBody (s : State) (c : Cmd) (x : Nat) : Out :=
  let m := bits x 0 8
  if bits x 8 56 ≠ 0 ∨ m = 0 then .fail s stBadArg
  else if s.partOn && (m &&& chanMaskOf (1 - c.part)) != 0 then .fail s stProtected
  else if (s.mode .cellar).st != .off then .fail s stBadArg
  else
    .wait ((maskChans m).foldl (fun s c =>
      let s := s.domainSwitch (200 + c) true
      if (s.xm c).dimms = 0 then s
      else s.updXm c fun x => { x with st := 2, cause := 0, gib := 0, map := s.regF (0x02000000 + 0x20 * c) 0 2 }) s) (.memTrain m)

def memTrainSpec : OpSpec := { code := 0x0800, entryLen := fixedLen 8, body := memTrainBody }

/-- R298. -/
def execMemTrain (i : Issue) (s : State) : Host.Outcome State Fault Refusal := ans (s.runCommand memTrainSpec i)

/-- Cause with which a channel fails; 0 when it trains. -/
def Xm.failure (x : Xm) (margin : Bool) : Nat :=
  if !x.readable then 2 else if !x.conforms then 1 else if margin then 3 else 0

/-- The training of one populated channel ends. -/
def State.trainChannel (s : State) (c : Nat) (margin : Bool) : State :=
  let x := s.xm c
  let f := x.failure margin
  if x.dimms = 0 then s
  else if f = 0 then
    (s.updXm c fun x => { x with st := 3, gib := min 256 (x.dimms * x.dimmGib) }).startUnits
      ((List.range 4).map (4 * c + ·)) [c]
  else (s.updXm c fun x => { x with st := 4, cause := f }).raise 0 evMemTrainFail c f

/-- R298: the training of the command waiting on this ring ends, once its channels' domains are ON. -/
def execMemTrainDone (dt : Nat) (fn : Fin 2) (ring : Fin 64) (margin : Nat) (s : State) : Host.Outcome State Fault Refusal :=
  let s := s.pass dt
  match s.waitOf fn ring with
  | some (.memTrain m) =>
    let l := maskChans m
    if l.any fun c => (s.domain (200 + c)).st != .on then ans s else
    let s := l.foldl (fun s c => s.trainChannel c (bit margin c)) s
    let failed := l.filter fun c => (s.xm c).st == 4
    match failed with
    | [] => ans (s.endWait fn ring stOk 0 0 [])
    | c :: _ => ans (s.endWait fn ring stMemErr 0 ((failed.map (2 ^ ·)).foldl (· + ·) 0 + (s.xm c).cause * 256) [])
  | _ => ans s

/-! ### Readings and refresh (R301 to R304) -/

/-- tREFI of a unit in cycles. -/
def Refresh.trefi (r : Refresh) : Nat := if r.hot then 1560 else 3120

def Refresh.limit (r : Refresh) : Nat := if r.hot then 2 else 4

/-- Unit that events about a unit's temperature name: a rank, or the first pseudo-channel of a stack (R309). -/
def tempUnit (u : Nat) : Nat := if u < 32 then u else 32 + 32 * unitStack u

/-- A hot unit with a cool reading and no debt returns to normal: MEM_TEMP_NORMAL, for a stack with its last pseudo-channel. -/
def State.tryCool (s : State) (u : Nat) : State :=
  let r := s.unit u
  if r.hot && r.coolPending && r.debt == 0 && r.burst == 0 then
    let s := s.updUnit u fun r => { r with hot := false, coolPending := false }
    let last := decide (u < 32) || (List.range 32).all fun n => !(s.unit (tempUnit u + n)).hot
    if last then s.raise 0 evMemTempNormal (tempUnit u) else s
  else s

/-- R303 at a reading, for one unit: the second component is the burst count of a crossing. -/
def Refresh.reading (r : Refresh) (t : Int) (cyc : Nat) : Refresh × Option Nat :=
  if !r.hot && decide (85 ≤ t) then
    let e := cyc - r.dueAt
    let n := 2 * r.debt + e / 1560
    ({ r with hot := true, coolPending := false, debt := 0, burst := n, burstDue := 0, burstAt := cyc, dueAt := cyc - e % 1560 }, some n)
  else if r.hot then ({ r with coolPending := decide (t < 80) }, none)
  else (r, none)

/-- Apply a reading to one unit; a crossing that owes refreshes counts in REFRESH_BURST and holds the buffer's channels (R304). -/
def State.readUnit (s : State) (u : Nat) (t : Int) : State × Option Nat :=
  if !s.unitLive u then (s, none) else
  let r := (s.unit u).reading t s.cyc
  let s := s.updUnit u fun _ => r.1
  let s := match r.2 with
    | some (_ + 1) =>
      let s := s.bumpUnit u 2
      if 96 ≤ u then { s with mem := { s.mem with lastBuf := some s.cyc } } else s
    | _ => s
  (s.tryCool u, r.2)

/-- Apply a reading to units that share a sensor; the crossing is reported once with the highest burst count. -/
def State.readUnits (s : State) (us : List Nat) (t : Int) : State :=
  let r := us.foldl (fun (s, n) u =>
    let x := s.readUnit u t
    (x.1, match x.2 with | none => n | some b => some (max b (n.getD 0)))) (s, (none : Option Nat))
  match r.2 with
  | none => r.1
  | some b => r.1.raise 0 evMemTempHot (tempUnit (us.headD 0)) b

/-- A stack is in a pause, or one of its pseudo-channels is in a burst. -/
def State.stackPaused (s : State) (k : Nat) : Bool := s.mem.pauses.any fun (ch, _) => decide (8 ≤ ch) && chanStack ch == k
def State.stackBurst (s : State) (k : Nat) : Bool := (List.range 32).any fun n => (s.unit (32 + 32 * k + n)).burst != 0

/-- The other stack of a pair. -/
def pairOf (k : Nat) : Nat := if k % 2 = 0 then k + 1 else k - 1

/-- The stack's reading must wait (R302, R304). -/
def State.readingHeld (s : State) (k : Nat) : Bool :=
  s.stackPaused (pairOf k) || s.stackBurst (pairOf k) || s.stackPaused k

def State.setTemp (s : State) (sensor : Nat) (t : Int) : State :=
  { s with mem := { s.mem with temps := s.mem.temps.put 0 sensor t } }

/-- A stack's reading is taken. -/
def State.readStack (s : State) (k : Nat) (t : Int) : State :=
  ((s.setTemp k t).updStack k fun h => { h with deferred := none }).readUnits ((List.range 32).map (32 + 32 * k + ·)) t

/-- Deferred readings are taken when what held them has ended (R302). -/
def State.takeDeferred (s : State) : State :=
  (List.range 4).foldl (fun s k =>
    match (s.stack k).deferred with
    | some t => if s.readingHeld k then s else s.readStack k t
    | none => s) s

/-- Number of the 1 ms period of a sensor, counted from its own offset (R302). -/
def State.readPeriod (s : State) (sensor : Nat) : Nat :=
  (s.cyc + cycMs - (if sensor < 4 then sensor * 200000 else (sensor - 4) / 2 * 100000)) / cycMs

/-- R302, R303: a sensor's reading, at most one in each of its periods. -/
def execTemperatureReading (dt : Nat) (sensor : Fin 20) (celsius : Int) (s : State) : Host.Outcome State Fault Refusal :=
  let s := s.pass dt
  let n := sensor.val
  if s.readPeriod n ≤ s.mem.readAt.get 0 n then ans s else
  let s := { s with mem := { s.mem with readAt := s.mem.readAt.put 0 n (s.readPeriod n) } }
  if n < 4 then
    if s.readingHeld n then ans (s.updStack n fun h => { h with deferred := some celsius }) else ans (s.readStack n celsius)
  else
    let c := (n - 4) / 2
    if (s.xm c).dimms ≤ (n - 4) % 2 then ans s else
    let u := 4 * c + 2 * ((n - 4) % 2)
    ans (((s.setTemp n celsius).readUnits [u] celsius).readUnits [u + 1] celsius)

/-- R301: a due point: at the limit one refresh is issued with it. -/
def execRefreshDue (dt : Nat) (u : Fin 160) (s : State) : Host.Outcome State Fault Refusal :=
  let s := s.pass dt
  let r := s.unit u
  if !s.unitLive u || decide (s.cyc < r.dueAt + r.trefi) then ans s else
  ans (s.updUnit u fun r =>
    let r := { r with dueAt := r.dueAt + r.trefi }
    if r.burst ≠ 0 then { r with burstDue := r.burstDue + 1 } else { r with debt := min r.limit (r.debt + 1) })

/-- R301, R303: the idle unit issues one owed refresh. -/
def execRefreshIssue (dt : Nat) (u : Fin 160) (s : State) : Host.Outcome State Fault Refusal :=
  let s := s.pass dt
  let r := s.unit u
  if s.unitLive u && r.debt != 0 && r.burst == 0 then ans ((s.updUnit u fun r => { r with debt := r.debt - 1 }).tryCool u) else ans s

/-- R303: a crossing burst ends: the debt is the due points that fell during it. -/
def execRefreshBurstEnd (dt : Nat) (u : Fin 160) (s : State) : Host.Outcome State Fault Refusal :=
  let s := s.pass dt
  let r := s.unit u
  if r.burst = 0 ∨ s.cyc < r.burstAt + r.burst * s.refreshCyc u then ans s else
  ans (((s.updUnit u fun r => { r with burst := 0, burstDue := 0, debt := r.burstDue }).tryCool u).takeDeferred)

/-! ### Retraining (R299) -/

/-- MEM_RETRAIN.INTERVAL_MS as it acts, in cycles. -/
def State.retrainCyc (s : State) : Nat := min 1000 (max 10 (s.regF 0x02000200 0 10)) * cycMs

/-- The rules of R299 and R304 let a pause of the channel start. -/
def State.pauseAllowed (s : State) (ch : Nat) : Bool :=
  let k := chanStack ch
  if ch < 8 then true
  else if k < 2 then !s.stackPaused (pairOf k) && !s.stackBurst (pairOf k)
  else s.mem.lastBuf.all fun t => decide (t + 20 * cycUs ≤ s.cyc)

/-- R299: a trained channel begins its retraining pause. -/
def execRetrainingPause (dt : Nat) (ch : Fin 72) (s : State) : Host.Outcome State Fault Refusal :=
  let s := s.pass dt
  let c := ch.val
  if !bit (s.reg 0x02000200) 16 || !s.chanLive c || (s.mem.pauses.find? c).isSome || !s.pauseAllowed c
      || decide (s.cyc < s.mem.lastPause.get 0 c + s.retrainCyc) then ans s
  else
    let s := { s with mem := { s.mem with
        pauses := s.mem.pauses.ins c s.cyc, lastPause := s.mem.lastPause.ins c s.cyc
        lastBuf := if 40 ≤ c then some s.cyc else s.mem.lastBuf } }
    ans (s.bump ⟨0x13, 2, 0⟩ c)

/-- The pause of a channel ends. -/
def State.endRetrain (s : State) (ch : Nat) : State :=
  { s with mem := { s.mem with pauses := s.mem.pauses.del ch } }.takeDeferred

/-- R299: the pause ends; a margin below the limit keeps the previous settings and is reported. -/
def execRetrainingPauseEnd (dt : Nat) (ch : Fin 72) (lowMargin : Bool) (s : State) : Host.Outcome State Fault Refusal :=
  let s := s.pass dt
  if (s.mem.pauses.find? ch).isNone then ans s else
  let s := s.endRetrain ch
  ans (if lowMargin then s.raise 0 evMemRetrainWarn ch else s)

/-! ### Power-down (R300) -/

/-- PD_EN and PD_TIMER of a unit, the timer in controller cycles and as TIME cycles rounded up. -/
def State.pdEn (s : State) (u : Nat) : Bool :=
  if u < 32 then bit (s.reg (0x02000000 + 0x20 * (u / 4))) 4 else bit (s.reg (0x02000100 + 0x20 * unitStack u)) 0
def State.pdCyc (s : State) (u : Nat) : Nat :=
  if u < 32 then ceilDiv (max 64 (s.regF (0x02000000 + 0x20 * (u / 4)) 16 16)) 4
  else ceilDiv (max 64 (s.regF (0x02000100 + 0x20 * unitStack u) 16 16)) 2

/-- R300: no access for PD_TIMER. -/
def execPowerDownEntry (dt : Nat) (u : Fin 160) (s : State) : Host.Outcome State Fault Refusal :=
  let s := s.pass dt
  let r := s.unit u
  if s.unitLive u && s.pdEn u && !r.powerDown && decide (r.lastAccess + s.pdCyc u ≤ s.cyc) then
    ans (s.updUnit u fun r => { r with powerDown := true })
  else ans s

/-! ### Scrubbing (R305, R307) -/

/-- Partition that owns a location of a structure (R48, R309). -/
def State.structPart (s : State) (structure_ ix : Nat) : Nat :=
  if structure_ = 1 ∨ structure_ = 3 then s.halfPart 0x0A000000 ix
  else if structure_ = 2 then s.pagePart ix
  else if structure_ = 4 then s.poolPart (s.chain ix).pool
  else if structure_ = 5 then (if s.partOn then s.namePart (ix / 2 ^ 400) (ix % 2 ^ 400) else 0)
  else if structure_ = 6 then s.namePart 8 ix
  else if structure_ = 7 then s.halfPart 0x80000 ix
  else if structure_ = 8 then s.halfPart 32768 ix
  else if structure_ = 9 then s.halfPart 4194304 ix
  else if structure_ = 10 then
    (if ix / 2 ^ 24 = 0 then s.queuePart ix else if ix / 2 ^ 24 = 1 then s.nodePart (ix % 2 ^ 24) else s.halfPart 0x100000 (ix % 2 ^ 24))
  else if structure_ = 11 then s.ctrPart (ix / (0x10000000 * 256)) (ix / 256 % 0x10000000)
  else if structure_ = 12 then s.groupPart ix
  else if structure_ = 13 then s.groupPart (entGroup (ix / 256))
  else if structure_ = 14 then s.halfPart 134217728 ix
  else ix / 2 ^ 40

/-- Does the location lie in the unit (R292)? -/
def State.locatedIn (s : State) (structure_ ix u : Nat) : Bool :=
  if structure_ = 1 then roomUnit ix == u
  else if structure_ = 2 then s.pageUnit ix == u
  else if structure_ = 5 then decide (32 ≤ u) && decide (u < 96)
  else if structure_ = 6 then rewriteUnit 0 ix == u || rewriteUnit 1 ix == u
  else if structure_ = 11 then statUnit (ix / (0x10000000 * 256)) ix 0 == u || statUnit (ix / (0x10000000 * 256)) ix 1 == u
  else if structure_ = 15 ∧ !s.isOn .cellar then decide (96 ≤ u) && decide (u < 128)
  else if 12 ≤ structure_ then decide (u < 32)
  else decide (96 ≤ u)

/-- A packet of a queue is marked poisoned for its departure. -/
def State.poisonChain (s : State) (c : Nat) : State :=
  { s with tm := { s.tm with queues := s.tm.queues.map fun (n, q) =>
      (n, { q with pkts := q.pkts.map fun k => if k.chain = c then { k with poisoned := true } else k }) } }

/-- The chain record that a lost link entry or record belonged to is lost: its rooms hold no live chain and are quarantined (R209). -/
def State.quarantine (s : State) (room : Nat) : State :=
  match s.roomIn room with
  | none => s
  | some r =>
    match s.inn.chains.find? r.owner with
    | none => s
    | some h =>
      let l := s.chainRooms r.owner
      let s := s.poisonChain r.owner
      ({ s with inn := { s.inn with
          chains := s.inn.chains.del r.owner, quarantined := s.inn.quarantined ++ l.map fun i => (i, h.pool) } }).bump
        (innPart 2) (s.poolPart h.pool) l.length

/-- An uncorrectable word read in unit `u` is marked for its next consumer (R305): what each structure's consumer then meets. A FREE
room or page has none (log 121); data of a delay buffer are passed on as read. -/
def State.markPoison (s : State) (u structure_ ix : Nat) : State :=
  if structure_ = 1 then
    if (s.roomIn ix).isNone then s else { s with inn := { s.inn with poisonRooms := (ix :: s.inn.poisonRooms.erase ix) } }
  else if structure_ = 2 then
    if (s.inn.pages.find? ix).isNone then s else { s with inn := { s.inn with poisonPages := (ix :: s.inn.poisonPages.erase ix) } }
  else if structure_ = 3 then s.quarantine ix
  else if structure_ = 4 then s.poisonChain ix
  else if structure_ = 13 then
    s.updEnt (ix / 256) fun e =>
      let lost (l : List Bin) : List Bin := l.zipIdx.map fun (b, i) =>
        if i = ix % 128 then { ({ start := b.start, day := b.day, endS := b.endS } : Bin) with suspect := true, ended := b.ended, final := b.final }
        else b
      if ix % 256 < 128 then { e with hist15 := lost e.hist15 } else { e with hist24 := lost e.hist24 }
  else if structure_ = 14 then { s with tele := { s.tele with flows := s.tele.flows.map fun (i, f) => (i, if i = ix then { f with poison := true } else f) } }
  else if structure_ = 15 then
    { s with tele := { s.tele with capture := s.tele.capture.map fun (i, c) => (i, if i = ix then 2 ^ 100 else c) } }
  else if structure_ = 6 then s.setPoison structRewrite (2 * ix + unitStack u % 2)
  else if structure_ = 11 then
    s.setPoison structStat (2 * ix + (if statUnit (ix / (0x10000000 * 256)) ix 0 = u then 0 else 1))
  else if structure_ = 12 then s
  else s.setPoison structure_ ix

/-- An uncorrectable scrub read: UE, MEM_UE, and the mark. A queue, scheduler, Ledger or policer record is restored from its on-die
copy; whether it has one is not stated, and MEM_UE is fatal when it has none. -/
def State.scrubUe (s : State) (u ix structure_ : Nat) : State :=
  let part := s.structPart structure_ ix
  if structure_ = 10 then
    let copy := Config.openValue s.freeCtr % 2 = 0
    let s := s.drawn.countUe u
    s.raise part { evMemUe with fatal := !decide copy } u (structure_ + ix * 256)
  else (s.memUe part u structure_ ix).markPoison u structure_ ix

/-- Scrub period in cycles: MEM_SCRUB.HOURS as it acts (R308). -/
def State.scrubPeriod (s : State) : Nat := min 24 (max 1 (s.regF 0x02000204 0 5)) * 3600 * cycSec

/-- 64-byte locations of a unit: 1.5 GiB of a pseudo-channel, a DIMM's share of a rank. -/
def State.unitWords (s : State) (u : Nat) : Nat :=
  if u < 32 then (s.xm (u / 4)).dimmGib * 2 ^ 24 / max 1 (s.xm (u / 4)).ranks else 25165824

/-- The unit's pass falls behind the pace that reads every location in the period. -/
def State.scrubBehind (s : State) (u : Nat) : Bool :=
  let p := s.mem.scrubs.get {} u
  decide (p.reads * s.scrubPeriod < (s.cyc - p.start) * s.unitWords u)

/-- A scrub read takes an idle cycle, or any when its pass is behind, and at most 1 % of the channel's access slots: 1.25 ns each on
XM, 5/6 ns on HBM, 1 ns on A0 (R291, R307). -/
def State.scrubOpen (s : State) (u : Nat) : Bool :=
  let gap := if u < 32 then 100 else if s.chip.stepping = 0 then 80 else 67
  ((s.unit u).lastAccess != s.cyc || s.scrubBehind u) && (s.mem.scrubAt.find? (unitChannel u)).all fun t => decide (t + gap ≤ s.cyc)

/-- The read counts in the unit's pass; the last one begins the next pass. -/
def State.noteScrub (s : State) (u : Nat) : State :=
  { s with mem := { s.mem with
      scrubAt := s.mem.scrubAt.ins (unitChannel u) s.cyc
      scrubs := s.mem.scrubs.upd {} u fun p =>
        if s.unitWords u ≤ p.reads + 1 then { start := s.cyc } else { p with reads := p.reads + 1 } } }

/-- R307: one scrub read of a location; it wakes a unit in power-down and waits for pauses and bursts. -/
def execMemScrubRead (dt : Nat) (u : Fin 160) (addr structure_ : Nat) (outcome : Fin 3) (s : State) :
    Host.Outcome State Fault Refusal :=
  let s := s.pass dt
  if !bit (s.reg 0x02000204) 8 || !s.unitLive u || s.unitHeld u || !s.locatedIn structure_ addr u || !s.scrubOpen u then ans s
  else
    let s := (s.touch u).noteScrub u
    match outcome with
    | 0 => ans s
    | 1 => ans (s.countCe u)
    | 2 => ans (s.scrubUe u addr structure_)

end Sys2Proof.Machine
end

