-- ==== Sys2Proof/Machine/Digest.lean ====
section
/-! DEFINITION. The configuration digest of a partition (14_twin.md, R350): the XOR of SHA-256 over its elements. A record or register
that holds its reset content contributes nothing (but MODE_ENABLE, PART_GROUPS and TWIN_CFG always do), and an element that both
partitions share belongs to A (log 14). -/

namespace Sys2Proof.Machine

/-- An element: code, index or key, content. -/
structure Elem where
  code : Nat
  key : Nat
  content : List Nat
deriving DecidableEq, Repr

/-- SHA-256 of an element's string, as a number with byte 0 least significant. -/
def Elem.hash (e : Elem) : Nat := leNat (sha256 (Config.digestBytes e.code e.key e.content))

/-- Stored registers of an address range, with the partition that `own` gives each. -/
def State.regElems (s : State) (code p lo hi : Nat) (own : Nat → Nat) : List Elem :=
  (s.regs.filter fun r => decide (lo ≤ r.1 % 2 ^ 32) && decide (r.1 % 2 ^ 32 < hi)
      && (if r.1 < 2 ^ 32 then own (r.1 - lo) else r.1 / 2 ^ 32) == p).map fun r => ⟨code, r.1 % 2 ^ 32, [r.2.toNat]⟩

/-- A sparse table's entries of a partition. -/
def mapElems {α : Type} (m : NMap α) (code p : Nat) (own : Nat → Nat) (content : α → List Nat) : List Elem :=
  (m.filter fun e => own e.1 == p).map fun e => ⟨code, e.1, content e.2⟩

/-- The same, of records of which the content's part may be at reset. -/
def recElems {α : Type} (m : NMap α) (code p : Nat) (own : Nat → Nat) (content : α → List Nat) (d : α) : List Elem :=
  mapElems (m.filter fun e => content e.2 != content d) code p own content

/-- 0x01 to 0x08: visible versions at the current epoch. -/
def State.tableElems (s : State) (p : Nat) : List Elem :=
  (s.entriesOf p).filterMap fun (k, vs) =>
    (currentVer vs (s.epochs p).cur).map fun v => ⟨k / 2 ^ 400, k % 2 ^ 400, [v.data]⟩

/-- 0x09: the active parse-graph bank, PARSE_PORT, HASH_SEED. -/
def State.parseElems (s : State) (p : Nat) : List Elem :=
  let own (k : Nat) : Nat := if k / 65536 = s.activeBank p then s.graphPart (k / 8192 % 8) (k % 8192) else 2
  mapElems s.parse.graph 9 p own (fun e => [e]) ++ s.regElems 9 p 0x00800000 0x00800300 (fun o => s.portPart (o / 16))
    ++ s.regElems 9 p 0x00801000 0x00801004 fun _ => 0

/-- 0x0A: ACT block registers. -/
def State.actElems (s : State) (p : Nat) : List Elem :=
  s.regElems 10 p 0x00C00000 0x00C00300 (fun o => s.portPart (o / 16))
    ++ s.regElems 10 p 0x00C01000 0x00C01100 (fun o => s.halfPart 8 (o / 16)) ++ s.regElems 10 p 0x00C02000 0x00C02040 fun _ => 0

/-- 0x0B: MAC registers and addresses. -/
def State.macElems (s : State) (p : Nat) : List Elem :=
  s.regElems 11 p 0x00400000 0x00400600 (fun o => s.portPart (o / 32))
    ++ mapElems s.macs 11 p (fun k => s.portPart (k / 16)) fun e => [e]

def intCode (i : Int) : Nat := unsigned 64 i

/-- 0x0C: Ledger class table, port and queue records. -/
def State.ledgerElems (s : State) (p : Nat) : List Elem :=
  mapElems s.tm.deadlines 12 p (fun k => k / 16) (fun d => [0, d]) ++ mapElems s.tm.hbmTime 12 p (fun k => k) (fun d => [1, d])
    ++ recElems s.tm.egress 12 p s.portPart (fun e => [2, intCode e.oPort, e.downHold]) {}
    ++ recElems s.tm.queues 12 p s.queuePart (fun q => [3, q.dclass, b2n q.refuse, q.gRate]) {}

def GateList.content (l : GateList) : List Nat := [l.cycle, l.guard, l.baseNs] ++ l.entries.flatMap fun e => [e.1, e.2]

/-- 0x0D: scheduler records, policers, gate lists. -/
def State.schedElems (s : State) (p : Nat) : List Elem :=
  recElems s.tm.nodes 13 p s.nodePart
      (fun n => [0, n.parent, b2n n.enable, n.prio, n.weight, n.gRate, n.shRate, n.shBurst, intCode n.shOver]) {}
    ++ recElems s.tm.queues 13 p s.queuePart
      (fun q => [1, q.parent, b2n q.enable, q.prio, q.tc, q.weight, b2n q.excessEn, q.shRate, q.shBurst, intCode q.shOver]) {}
    ++ recElems s.tm.policers 13 p (s.halfPart 0x100000)
      (fun r => [2, r.mode, b2n r.yellowAct, b2n r.redAct, intCode r.overhead, r.cir, r.pir, r.cbs, r.ebs]) {}
    ++ recElems s.tm.gates 13 p s.portPart (fun g => 3 :: ((g.cur.map GateList.content).getD [])) {}

/-- 0x0E: buffer queue records and pools. -/
def State.bufferElems (s : State) (p : Nat) : List Elem :=
  recElems s.tm.queues 14 p s.queuePart
      (fun q => [0, q.pool, b2n q.spillEn, q.spillPages, q.pullAhead, q.markKib, q.spillQ, q.qlimit]) {}
    ++ recElems s.inn.pools 14 p (s.halfPart 16) (fun l => [1, l.rooms, l.reserve]) {}

/-- 0x0F: multicast groups, endpoint sets, members. -/
def State.mcastElems (s : State) (p : Nat) : List Elem :=
  mapElems s.caravan.groups 15 p s.groupPart20 (fun e => [0, e]) ++ mapElems s.caravan.esets 15 p (s.halfPart 32768) (fun e => [1, e])
    ++ mapElems s.caravan.members 15 p (s.halfPart 4194304) fun e => [2, e]

/-- 0x10: modes, lane split, port layout, framer, TWIN_CFG except UNIT. -/
def State.modeElems (s : State) (p : Nat) : List Elem :=
  (if p = 0 then
      [⟨16, 0x00100040, [s.reg 0x00100040]⟩, ⟨16, 0x0010004C, [s.reg 0x0010004C]⟩, ⟨16, 0x02C00000, [s.twinCfg / 2 * 2]⟩]
        ++ s.regElems 16 0 0x00502000 0x00502004 fun _ => 0
    else [])
    ++ (s.regElems 16 p 0x00201000 0x00201060 fun o => s.groupPart (o / 16)).filter (fun e => e.key % 16 == 0)
    ++ s.regElems 16 p 0x00500000 0x00500300 (fun o => s.groupPart (o / 128))
    ++ s.regElems 16 p 0x00501000 0x00501060 (fun o => s.groupPart (o / 16))
    ++ s.regElems 16 p 0x00504000 0x00504C00 (fun o => s.groupPart (o / 0x200))
    ++ s.regElems 16 p 0x00505000 0x00505600 (fun o => s.groupPart (o / 0x100))
    ++ s.regElems 16 p 0x00506000 0x00507800 (fun o => s.groupPart (o / 0x400))

/-- Every element of a partition. -/
def State.digestElems (s : State) (p : Nat) : List Elem :=
  s.tableElems p ++ s.parseElems p ++ s.actElems p ++ s.macElems p ++ s.ledgerElems p ++ s.schedElems p ++ s.bufferElems p
    ++ s.mcastElems p ++ s.modeElems p

/-- DIGEST_A or DIGEST_B; 0 for partition B while PARTITION is not ON. -/
def State.digest (s : State) (p : Nat) : Nat :=
  if p = 1 ∧ !s.partOn then 0 else (s.digestElems p).foldl (fun x e => x ^^^ e.hash) 0

end Sys2Proof.Machine
end

