-- ==== Sys2Proof/Machine/Twin.lean ====
section
/-! DEFINITION. Twin pairs (14_twin.md): pair states and lanterns (R332, R333, R347), the claim's commands and its hand-over (R344 to
R349), SYNC with versions, digests and time (R350 to R354), sequence alignment (R338, R339), and the night watch (R357). -/

namespace Sys2Proof.Machine

/-! ### TWIN reaches ON and OFF (R333, R342, R346) -/

/-- The unit's own TWIN_CFG keeps R332. -/
def State.ownPairOk (s : State) : Bool :=
  bits s.twinCfg 8 8 != 0 && (!s.partOn || (bits s.twinCfg 16 8 != 0 && bits s.twinCfg 16 8 != bits s.twinCfg 8 8))

/-- R332 fails: TWIN_CONFIG_BAD once, and the unit is ALONE. -/
def State.configFails (s : State) : State :=
  let s := if s.twin.configBad then s else { s with twin := { s.twin with configBad := true } }.raise 0 evTwinConfigBad
  s.twinChange fun s => s.updTwin fun t => { t with pair := 0, arbClaim := false }

/-- The level of TWIN_LOCK gives this unit the lock. -/
def State.lockMine (s : State) : Bool := s.twin.lock != s.unit1

/-- TWIN reaches ON: ALONE, without a claim. Under the interlock the unit that holds the lock starts as after a change. -/
def State.twinOn (s : State) : State :=
  let s := s.updTwin fun t =>
    { fwdMask := t.fwdMask, tests := t.tests, windows := t.windows, lock := t.lock, grant := t.grant, lanternCount := t.lanternCount
      lanternAt := s.cyc, syncAt := s.cyc, lastLantern := t.lastLantern, lastTwhb := t.lastTwhb
      a := { nwAt := s.cyc, ueSeen := s.mem.ueTotal }, b := { nwAt := s.cyc, ueSeen := s.mem.ueTotal } }
  let s := (s.setSeq 0 2).setSeq 1 2
  let s := if s.ownPairOk then s else s.configFails
  if s.lockRules && s.lockMine then s.updTwin fun t => { t with lockGain := some (s.cyc + 12 * cycUs) } else s

/-- TWIN reaches OFF: no pair, no claim. -/
def State.twinOff (s : State) : State :=
  s.updTwin fun t =>
    { fwdMask := t.fwdMask, tests := t.tests, windows := t.windows, lock := t.lock, grant := t.grant, lanternCount := t.lanternCount
      lastLantern := t.lastLantern, lastTwhb := t.lastTwhb }

/-! ### Lanterns (R347) -/

def State.path (s : State) (hb : Bool) : Path := if hb then s.twin.hb else s.twin.tw
def State.updPath (s : State) (hb : Bool) (f : Path → Path) : State :=
  s.updTwin fun t => if hb then { t with hb := f t.hb } else { t with tw := f t.tw }

/-- Lanterns are sent while TWIN is ON or QUIESCING. -/
def State.lanternsRun (s : State) : Bool := s.isOn .twin || (s.mode .twin).st == .quiescing

/-- R347: every 100 µs a lantern leaves on both paths; intervals without a good one from the peer are counted (R360). -/
def execLanternSend (dt : Nat) (s : State) : Host.Outcome State Fault Refusal :=
  let s := s.pass dt
  if !s.lanternsRun || decide (s.cyc < s.twin.lanternAt + 100 * cycUs) then ans s else
  let miss (s : State) (hb : Bool) : State :=
    if (s.path hb).lastGood + 100 * cycUs < s.cyc ∨ (s.path hb).count = none then s.bump ⟨0x15, 2, b2n hb⟩ 0 else s
  let s := s.updTwin fun t => { t with lanternAt := s.cyc }
  ans ((miss (miss s false) true).lantern)

/-- A received lantern's fields (R347). -/
structure LanternMsg where
  pairIdA : Nat
  pairIdB : Nat
  unit : Nat
  lockMode : Bool
  partition : Bool
  goingDown : Bool
  claimA : Nat
  claimB : Nat
  health : Nat
  count : Nat
  seqAligned : Nat
deriving DecidableEq, Repr

/-- The fields of a lantern's bits; SEQ_ALIGNED is the twin link's only. -/
def lanternFields (w : Nat) : LanternMsg :=
  { pairIdA := bits w 8 8, pairIdB := bits w 16 8, unit := bits w 24 1, lockMode := bit w 25, partition := bit w 26, goingDown := bit w 29
    claimA := bits w 32 8, claimB := bits w 40 8, health := bits w 48 8, count := bits w 64 16, seqAligned := bits w 80 48 }

/-- MAGIC and CRC are correct; the twin link's copy is covered by its cells' own checks. -/
def lanternGood (hb : Bool) (w : Nat) : Bool := bits w 0 8 == 0xA5 && (!hb || crc16 (leBytes 12 (w % 2 ^ 96)) == bits w 96 16)

/-- The lantern and this unit's settings meet R332. -/
def State.lanternFits (s : State) (m : LanternMsg) : Bool :=
  s.ownPairOk && m.pairIdA == bits s.twinCfg 8 8 && (!s.partOn || m.pairIdB == bits s.twinCfg 16 8)
    && m.unit != b2n s.unit1 && m.lockMode == s.lockMode && m.partition == s.partOn

/-- A path has a good lantern now. -/
def State.goodLantern (s : State) (hb : Bool) (count : Nat) : State :=
  let was := (s.path hb).up
  let s := s.updPath hb fun p =>
    { p with up := true, lastGood := s.cyc, count := some count, since := if p.up then p.since else s.cyc }
  if was then s else s.raise 0 evTwinPathRestored (b2n hb)

/-- A claim that the peer shows; a waiting claim starts when the peer claims no longer (R344). -/
def State.lanternClaim (s : State) (p n : Nat) : State :=
  let s := s.seeClaim p n
  if n = 0 ∧ (s.claim p).waitEnd.isSome then s.startSide p else s

/-- A good lantern that meets R332 acts on the pair. -/
def State.lanternActs (s : State) (hb : Bool) (m : LanternMsg) : State :=
  let s := s.updTwin fun t =>
    { t with configBad := false, peerUnit := m.unit, peerHealth := m.health
             peerAligned := if hb then t.peerAligned else m.seqAligned }
  let s := if s.twin.pair = 0 then s.enterForming else s
  let s := s.lanternClaim 0 m.claimA
  let s := if s.partOn then s.lanternClaim 1 m.claimB else s
  if m.goingDown && (s.twin.pair == 1 || s.twin.pair == 2) then s.declareFailed else s

/-- R332, R333, R344, R345, R347: a lantern arrives. -/
def execLanternReceived (dt : Nat) (hb : Bool) (word : BitVec 128) (s : State) : Host.Outcome State Fault Refusal :=
  let s := s.pass dt
  let m := lanternFields word.toNat
  if !s.isOn .twin || !lanternGood hb word.toNat || (s.path hb).count == some m.count then ans s else
  let s := s.goodLantern hb m.count
  if s.lanternFits m then ans (s.lanternActs hb m) else ans s.configFails

/-- R347: no good lantern on a path for 300 µs; with both paths lost the peer is declared failed. -/
def execPathLost (dt : Nat) (hb : Bool) (s : State) : Host.Outcome State Fault Refusal :=
  let s := s.pass dt
  let p := s.path hb
  if !s.isOn .twin || !p.up || decide (s.cyc < p.lastGood + 300 * cycUs) then ans s else
  let s := (s.updPath hb fun p => { p with up := false }).raise 0 evTwinPathLost (b2n hb)
  if !s.twin.tw.up && !s.twin.hb.up && (s.twin.pair == 1 || s.twin.pair == 2) then ans s.declareFailed else ans s

/-- R333: good lanterns on both paths for 1 ms lead from PEER_FAILED to FORMING. -/
def execTwinPairReform (dt : Nat) (s : State) : Host.Outcome State Fault Refusal :=
  let s := s.pass dt
  let steady (p : Path) : Bool := p.up && decide (p.since + cycMs ≤ s.cyc)
  if s.isOn .twin && s.twin.pair == 3 && steady s.twin.tw && steady s.twin.hb then ans s.enterForming else ans s

/-! ### Claim (R344 to R346, R349) -/

/-- R344: the wait after the taking ends. -/
def execClaimWaitEnd (dt : Nat) (p : Fin 2) (s : State) : Host.Outcome State Fault Refusal :=
  let s := s.pass dt
  match (s.claim p).waitEnd with
  | none => ans s
  | some t => if t ≤ s.cyc then ans (s.startSide p) else ans s

/-- R342, R344, R345: side effects that were to stop have stopped. -/
def execSideEffectsStopped (dt : Nat) (p : Fin 2) (s : State) : Host.Outcome State Fault Refusal :=
  let s := s.pass dt
  if (s.claim p).stopping = 0 then ans s else ans (s.stopSide p)

/-- R346: TWIN_LOCK has held a new level for 1 µs. -/
def execTwinLockLevelChange (dt : Nat) (level : Bool) (s : State) : Host.Outcome State Fault Refusal :=
  let s := s.pass dt
  if level = s.twin.lock then ans s else
  let s := s.updTwin fun t => { t with lock := level }
  if !s.isOn .twin || !s.lockRules then ans s else
  let s := s.raise 0 evTwinLockChange (b2n level)
  if s.lockMine then ans (s.updTwin fun t => { t with lockGain := some (s.cyc + 12 * cycUs) })
  else
    let s := s.updTwin fun t => { t with lockGain := none }
    ans (s.twinParts.foldl (fun s p => if (s.claim p).num = 0 then s else s.yieldClaim p 4) s)

/-- The unit that holds the lock starts the side effects of a partition, with claim 0x01 (R346). -/
def State.lockStart (s : State) (p : Nat) : State :=
  let s := if (s.claim p).stopping = 0 then s else s.stopSide p
  (s.twinChange fun s => s.updClaim p fun c => { c with num := 1 }).startSide p

/-- R346: 12 µs after the change the unit that gains the lock starts the side effects of both partitions. -/
def execLockGainStart (dt : Nat) (s : State) : Host.Outcome State Fault Refusal :=
  let s := s.pass dt
  match s.twin.lockGain with
  | none => ans s
  | some t =>
    if s.cyc < t then ans s else
    let s := s.updTwin fun t => { t with lockGain := none, arbClaim := false }
    ans (s.twinParts.foldl State.lockStart s)

/-- R349: ARB_GRANT has been deasserted for 1 µs: under GRANT_GATE partition A's claim is released. -/
def execArbGrantDeassert (dt : Nat) (s : State) : Host.Outcome State Fault Refusal :=
  let s := (s.pass dt).updTwin fun t => { t with grant := false }
  if s.isOn .twin && s.grantGate && !s.lockMode && s.twin.a.num != 0 && s.twin.a.stopping == 0 then
    ans ((s.raise 0 evTwinGrantLost).yieldClaim 0 3)
  else ans s

/-- R349: ARB_GRANT is asserted: an automatic takeover that waited for it goes on. -/
def execArbGrantAssert (dt : Nat) (s : State) : Host.Outcome State Fault Refusal :=
  let s := (s.pass dt).updTwin fun t => { t with grant := true }
  if s.isOn .twin && s.twin.pair == 3 && s.twin.a.waitGrant then ans (s.autoTake 0) else ans s

/-- TWIN_CLAIM (R348). -/
def twinClaimBody (s : State) (c : Cmd) (x : Nat) : Out :=
  let p := c.part
  let n := bits x 0 8
  let force := bit x 8
  let k := s.claim p
  if !s.isOn .twin || s.lockMode || n == 0 || bits x 9 55 != 0 || !claimHigher n k.num || !claimHigher n k.peerClaim then .fail s stBadArg
  else if s.grantGate && p == 0 && !s.twin.grant then .fail s stNotClaimed
  else if !force && (k.diverged || s.twin.pair == 1) then .fail s stNotClaimed
  else
    let s := s.takeClaim p n
    if (s.claim p).active then .ok s else .wait s .twinClaim

def twinClaimSpec : OpSpec := { code := 0x0710, entryLen := fixedLen 8, critical := alwaysCritical, body := twinClaimBody }

/-- R348. -/
def execTwinClaim (i : Issue) (s : State) : Host.Outcome State Fault Refusal := ans (s.runCommand twinClaimSpec i)

/-- TWIN_RELEASE (R344, R346). -/
def twinReleaseBody (s : State) (c : Cmd) (_x : Nat) : Out :=
  let p := c.part
  if s.lockMode then .fail s stBadArg
  else if (s.claim p).num = 0 then .ok s
  else
    let s := s.yieldClaim p 1
    if (s.claim p).num = 0 then .ok s else .wait s .twinRelease

def twinReleaseSpec : OpSpec := { code := 0x0711, entryLen := fixedLen 0, critical := alwaysCritical, body := twinReleaseBody }

/-- R344. -/
def execTwinRelease (i : Issue) (s : State) : Host.Outcome State Fault Refusal := ans (s.runCommand twinReleaseSpec i)

/-! ### SYNC (R335, R350 to R354) -/

/-- A received SYNC's fields (R335); times in quanta of 1/65,536 ns. -/
structure SyncMsg where
  digestA : Nat
  digestB : Nat
  uarnoVer : Nat
  ranMask : Nat
  timeState : Nat
  t1 : Nat
  echoT1 : Nat
  echoT2 : Nat
deriving DecidableEq, Repr

/-- The time in twelve bytes of a SYNC from byte `o`. -/
def syncTimeAt (m : List Byte) (o : Nat) : Nat :=
  let x := leNat ((m.drop o).take 12)
  mkTime (bits x 0 48) (bits x 48 32) (bits x 80 16)

/-- The fields of a SYNC's bytes. -/
def syncFields (m : List Byte) : SyncMsg :=
  { digestA := leNat ((m.drop 1).take 32), digestB := leNat ((m.drop 33).take 32), uarnoVer := byteAt m 65, ranMask := byteAt m 66
    timeState := byteAt m 67, t1 := syncTimeAt m 68, echoT1 := syncTimeAt m 80, echoT2 := syncTimeAt m 92 }

/-- Twelve bytes of a time. -/
def syncTime (q : Nat) : List Byte := leBytes 12 (secOf q % 2 ^ 48 + nsOf q * 2 ^ 48 + fracOf q * 2 ^ 80)

/-- The SYNC that leaves now. -/
def State.syncBytes (s : State) : List Byte :=
  2 :: leBytes 32 (s.digest 0) ++ leBytes 32 (s.digest 1) ++ leBytes 1 (s.func 0).chosen ++ leBytes 1 (s.offered 0)
    ++ leBytes 1 s.time.align ++ syncTime s.now ++ syncTime s.twin.echoT1 ++ syncTime s.twin.echoT2

/-- R335: every 10 ms a SYNC leaves on the twin link groups that are UP. -/
def execSyncSend (dt : Nat) (s : State) : Host.Outcome State Fault Refusal :=
  let s := s.pass dt
  if s.isOn .twin && decide (s.twin.syncAt + 10 * cycMs ≤ s.cyc) && ((s.link 24).st == .up || (s.link 25).st == .up) then
    ans (s.updTwin fun t => { t with syncAt := s.cyc, lastT1 := s.now, lastSync := s.syncBytes })
  else ans s

/-- DIVERGE_MS in cycles (R358). -/
def State.divergeCyc (s : State) : Nat := min 10000 (max 10 (s.regF 0x02C00004 0 16)) * cycMs

/-- The peer's digest of a partition (R351). -/
def State.seeDigest (s : State) (p d : Nat) : State :=
  let same := s.digest p == d
  let was := (s.claim p).diverged
  let s := s.updClaim p fun c =>
    { c with peerDigest := d, diffSince := if same then none else some (c.diffSince.getD s.cyc), diverged := c.diverged && !same }
  if was && same then s.raise p evTwinConverged else s

/-- The peer offers these fabric versions: links UP at another renegotiate (R353). -/
def State.seeRan (s : State) (mask : Nat) : State :=
  let s := s.updTwin fun t => { t with peerRan := mask }
  (List.range 24).foldl (fun s j =>
    if (s.link j).st == .up && !bit (s.offered j) (s.link j).version then s.toCap j else s) s

/-- Follow the leader by the offset of a SYNC (R354): STEP above 1 µs, else SLEW over 10 ms. -/
def State.follow (s : State) (off : Int) : State :=
  if 1000 * qNs < off.natAbs then s.decideStep 4 off none none
  else
    let ppb := max (-(s.maxPpb : Int)) (min (s.maxPpb : Int) (off * 100 / qNs))
    { s with time := { s.time with slew := if ppb = 0 then none else some (ppb, s.cyc + 10 * cycMs) } }

/-- TWIN_TIME_ALARM above 100 ns; three SYNCs at or below it clear it. -/
def State.timeAlarm (s : State) (off : Int) : State :=
  if 100 * qNs < off.natAbs then
    let was := s.twin.alarm
    let s := s.updTwin fun t => { t with alarm := true, alarmGood := 0 }
    if was then s else s.raise 0 evTwinTimeAlarm (unsigned 32 (off / qNs))
  else if s.twin.alarm then
    if 2 ≤ s.twin.alarmGood then
      (s.updTwin fun t => { t with alarm := false, alarmGood := 0 }).raiseSt 0 evTwinTimeAlarm (unsigned 32 (off / qNs)) 0 false
    else s.updTwin fun t => { t with alarmGood := t.alarmGood + 1 }
  else s

/-- The follower's part of a SYNC, received at `t4`. -/
def State.syncTimeActs (s : State) (m : SyncMsg) (t4 : Nat) : State :=
  if !s.timeFollower then s
  else if m.echoT1 = 0 then s.noteTod
  else
    let off : Int := (((m.echoT2 : Int) - m.echoT1) + ((m.t1 : Int) - t4)) / 2
    let s := s.updTwin fun t => { t with offset := off }
    ((s.timeAlarm off).follow off).noteTod

/-- R351 to R354: a SYNC arrives; a second copy is not used. -/
def execSyncReceived (dt : Nat) (msg : List Byte) (s : State) : Host.Outcome State Fault Refusal :=
  let s := s.pass dt
  let m := syncFields msg
  if byteAt msg 0 ≠ 2 then ans s
  else if !s.isOn .twin || !(s.twin.pair == 1 || s.twin.pair == 2) || s.twin.echoT1 == m.t1 then ans s else
  let t4 := s.now
  let s := s.updTwin fun t =>
    { t with echoT1 := m.t1, echoT2 := t4, peerUarno := m.uarnoVer, peerTimeState := m.timeState }
  let s := if s.twin.pair = 1 ∧ m.echoT1 ≠ 0 then
      (s.twinChange fun s => s.updTwin fun t => { t with pair := 2 }).raise 0 evTwinPairUp
    else s
  let own := (s.func 0).chosen
  let s := if m.uarnoVer < own ∧ !s.twin.versionRaised then
      (s.updTwin fun t => { t with versionRaised := true }).raise 0 evTwinVersion own m.uarnoVer
    else s
  let s := (s.seeRan m.ranMask).seeDigest 0 m.digestA
  let s := if s.partOn then s.seeDigest 1 m.digestB else s
  ans (s.syncTimeActs m t4)

/-- R351: digests have differed in every SYNC for DIVERGE_MS. The event carries the low 160 bits of both. -/
def execDivergeTimeout (dt : Nat) (p : Fin 2) (s : State) : Host.Outcome State Fault Refusal :=
  let s := s.pass dt
  let c := s.claim p
  match c.diffSince with
  | none => ans s
  | some t =>
    if !s.isOn .twin || c.diverged || decide (s.cyc < t + s.divergeCyc) then ans s else
    ans ((s.updClaim p fun c => { c with diverged := true }).raise p evTwinDiverged 0
      (s.digest p % 2 ^ 160 + c.peerDigest % 2 ^ 160 * 2 ^ 160))

/-- TWIN_DIGEST_READ (R385). -/
def twinDigestSpec : OpSpec :=
  { code := 0x0713, entryLen := fixedLen 0, reads := true, respLen := fun _ _ _ => 64
    body := fun s c _ => .okResp s 0 (leBytes 32 (s.digest c.part) ++ leBytes 32 (s.claim c.part).peerDigest) }

/-- R350, R385. -/
def execTwinDigestRead (i : Issue) (s : State) : Host.Outcome State Fault Refusal := ans (s.runCommand twinDigestSpec i)

/-! ### Sequence alignment (R338, R339) -/

/-- The history entry that the leader samples: the newest frame of the last 128 µs whose length and FCS occur once. -/
def Port.sample (t : Port) (now : Nat) : Option (Nat × Nat × Nat × Nat) :=
  let l := t.seqHist.filter fun h => decide (now ≤ h.2.2.2 + 128 * cycUs)
  l.reverse.find? fun h => (l.filter fun k => k.1 == h.1 && k.2.1 == h.2.1).length == 1

/-- The pair exchanges samples. -/
def State.paired (s : State) : Bool := s.isOn .twin && (s.twin.pair == 1 || s.twin.pair == 2)

/-- R339: the leader samples a port every 1 ms while it is ALIGNED at the follower, and every 10 µs otherwise. -/
def execSeqSampleSend (dt : Nat) (port : Fin 48) (s : State) : Host.Outcome State Fault Refusal :=
  let s := s.pass dt
  let p := port.val
  let t := s.port p
  if !s.paired || !s.leads (s.portPart p) || !s.portExists p
      || decide (s.cyc < t.sampleAt + if bit s.twin.peerAligned p then cycMs else 10 * cycUs) then ans s else
  match t.sample s.cyc with
  | none => ans s
  | some h =>
    ans ((s.updPort p fun t => { t with sampleAt := s.cyc }).updTwin fun w =>
      { w with lastSample := leBytes 13 (3 + p * 2 ^ 8 + h.1 * 2 ^ 16 + h.2.1 * 2 ^ 32 + h.2.2.1 * 2 ^ 64) })

/-- R339: the follower records a sample. -/
def execSeqSampleReceived (dt : Nat) (port : Byte) (len : BitVec 16) (fcs : BitVec 32) (seq : BitVec 40) (s : State) : Host.Outcome State Fault Refusal :=
  let s := s.pass dt
  let p := port.toNat
  if p < 48 ∧ s.paired ∧ !s.leads (s.portPart p) then
    ans (s.updPort p fun t => { t with samples := t.samples ++ [(len.toNat, fcs.toNat, seq.toNat, s.cyc)] })
  else ans s

/-- The result of a sample received at `at_`: the frame that it names and the difference, or a miss. -/
def Port.result (t : Port) (len fcs seq at_ : Nat) : Option (Nat × Nat) :=
  match t.seqHist.filter fun h => h.1 == len && h.2.1 == fcs && decide (at_ ≤ h.2.2.2 + 128 * cycUs)
      && decide (h.2.2.2 < at_ + 128 * cycUs) with
  | [h] => some (h.2.2.2, (seq + 2 ^ 40 - h.2.2.1) % 2 ^ 40)
  | _ => none

/-- The correction takes effect for the frames from cycle `from_` on (R339 step 4). -/
def Port.correct (t : Port) (from_ d : Nat) : Port :=
  { t with
    seq := (t.seq + d) % 2 ^ 40
    seqHist := t.seqHist.map fun h => if h.2.2.2 < from_ then h else (h.1, h.2.1, (h.2.2.1 + d) % 2 ^ 40, h.2.2.2) }

/-- Steps 2 to 4 of R339. -/
def State.decideSample (s : State) (p : Nat) (r : Option (Nat × Nat)) : State :=
  let t := s.port p
  let go (st d : Nat) : State := s.updPort p fun t => { t with seqSt := st, seqD := d }
  match t.seqSt, r with
  | 2, some (_, 0) => s
  | 2, _ => (go 0 0).raise (s.portPart p) evTwinSeqSearch p
  | 1, some (at_, d) =>
    if d = t.seqD then ((go 2 0).updPort p fun t => t.correct at_ d).raise (s.portPart p) evTwinSeqAligned p d else go 0 0
  | 1, none => go 0 0
  | _, some (_, d) => go 1 d
  | _, none => s

/-- R339: the oldest sample is decided 128 µs after its receipt. -/
def execSeqSampleDecide (dt : Nat) (port : Fin 48) (s : State) : Host.Outcome State Fault Refusal :=
  let s := s.pass dt
  let p := port.val
  match (s.port p).samples with
  | [] => ans s
  | (len, fcs, seq, at_) :: rest =>
    if s.cyc < at_ + 128 * cycUs then ans s else
    let s := s.updPort p fun t => { t with samples := rest }
    if s.paired && !s.leads (s.portPart p) then ans (s.decideSample p ((s.port p).result len fcs seq at_)) else ans s

/-! ### Twin forwarding (R356) -/

def twinFwdBody (s : State) (c : Cmd) (x : Nat) : Out :=
  let m := bits x 0 48
  let own (p : Nat) : Bool := s.portPart p == c.part
  if bits x 48 16 ≠ 0 then .fail s stBadArg
  else if (List.range 48).any fun p => bit m p && !own p then .fail s stProtected
  else
    let mask := (List.range 48).foldl (fun a p => if bit (if own p then m else s.twin.fwdMask) p then a + 2 ^ p else a) 0
    let sum := ((List.range 48).map fun p => if bit mask p && s.portExists p then s.portRate p else 0).foldl (· + ·) 0
    if 800000000 < sum then .fail s stOvercommit else .ok (s.updTwin fun t => { t with fwdMask := mask })

def twinFwdSpec : OpSpec := { code := 0x0712, entryLen := fixedLen 8, body := twinFwdBody }

/-- R356. -/
def execTwinFwdSet (i : Issue) (s : State) : Host.Outcome State Fault Refusal := ans (s.runCommand twinFwdSpec i)

/-! ### Night watch (R357) -/

/-- The test frames of an NW_LOAD payload: port, EXP_FCS, bytes; `none` when a record is malformed. -/
def nwRecords : Nat → Nat → Option (List (Nat × Nat × List Byte))
  | 0, _ => some []
  | n + 1, x =>
    let len := bits x 16 16
    if 48 ≤ bits x 0 8 ∨ bits x 8 8 ≠ 0 ∨ len < 60 ∨ 16379 < len then none
    else (nwRecords n (x >>> (64 + 8 * pad8 len))).map ((bits x 0 8, bits x 32 32, leBytes len (x >>> 64)) :: ·)

/-- Bytes of the payload. -/
def nwLen (x : Nat) : Option Nat :=
  let rec go : Nat → Nat → Nat
    | 0, _ => 0
    | n + 1, x =>
      let l := 8 + pad8 (bits x 16 16)
      l + go n (x >>> (8 * l))
  if 16 < bits x 0 5 then none else some (8 + go (bits x 0 5) (x >>> 64))

def nwLoadBody (s : State) (c : Cmd) (x : Nat) : Out :=
  if bits x 5 59 ≠ 0 then .fail s stBadArg else
  match nwRecords (bits x 0 5) (x >>> 64) with
  | none => .fail s stBadArg
  | some l =>
    if l.any fun r => s.portPart r.1 != c.part then .fail s stProtected
    else .ok (s.updTwin fun t => { t with tests := (t.tests.filter fun r => s.portPart r.1 != c.part) ++ l })

def nwLoadSpec : OpSpec := { code := 0x0714, entryLen := fun _ x => nwLen x, body := nwLoadBody }

/-- R357, R385. -/
def execNwLoad (i : Issue) (s : State) : Host.Outcome State Fault Refusal := ans (s.runCommand nwLoadSpec i)

def State.nwCyc (s : State) : Nat := max 10 (s.regF 0x02C00004 24 8) * cycMs

/-- Used line lanes of a partition that are not PCS_UP. -/
def State.lanesShort (s : State) (p : Nat) : List Nat :=
  (List.range 48).filter fun n => s.groupPart (n / 8) == p && (s.portOfLane n).isSome && (s.lane n).st != .pcsUp

/-- Ports of a partition that are not ALIGNED. -/
def State.seqShort (s : State) (p : Nat) : List Nat :=
  (List.range 48).filter fun n => s.portPart n == p && s.portExists n && !bit s.seqAligned n

/-- The offset of R354 is above 100 ns at the follower. -/
def State.timeOff (s : State) : Bool := s.timeFollower && decide (100 * qNs < s.twin.offset.natAbs)

/-- A loaded test frame is parsed, looked up, admitted to the queue that its route names on this unit, and edited: it leaves the editor
with its expected FCS (R357). -/
def State.testPasses (s : State) (t : Nat × Nat × List Byte) : Bool :=
  let p := t.1
  let f := t.2.2 ++ leBytes 4 (fcs32 t.2.2)
  let w := s.walk p f
  let hash := s.flowHash p f w
  let k := s.stamp p 0 f
  let k := { k with pp := { k.pp with hash := hash, pairId := 0 } }
  let dev := s.deviceBytes p f w hash
  let r := s.search k.part k.ep (s.buildKeys p w.ptype (w.vec ++ dev)) {}
  let d := r.1.act p w dev r.2 {} k
  let o := d.2.pkt
  let rw := s.recordAt (tblKey 8 o.pp.edit) o.ep
  let body := o.data.take (o.data.length - 4)
  let out := if o.pp.edit = 0 then (if o.noL2 then Sum.inl 0 else .inr body) else edit rw o body
  s.sliceOn (portSlice p + if s.isSplit p then hash % 2 else 0) && w.end_ == .accept && d.2.fate == .forward
    && o.pp.kind == kindUnicast && o.pp.endpoint == s.ownEndpoint && !s.crosses o
    && decide ((s.offer none o).2 = .admitted) && s.sliceOn (4 + s.egressSlice o.pp.port o)
    && match out with
      | .inl _ => false
      | .inr g => decide (g.length + 4 ≤ s.maxFrame o.pp.port) && fcs32 g == t.2.1

/-- Bits 0 to 5 of the checks, each with the detail that its NW_FAIL carries. -/
def State.nwChecks (s : State) (p : Nat) (pathBad : Bool) : List (Bool × Nat) :=
  [ (pathBad, 0), (decide ((s.claim p).ueSeen < s.mem.ueTotal), s.mem.ueTotal - (s.claim p).ueSeen)
  , (!(s.lanesShort p).isEmpty, (s.lanesShort p).headD 0), (s.timeOff, unsigned 32 (s.twin.offset / qNs))
  , ((s.claim p).diverged, 0), (!(s.seqShort p).isEmpty, (s.seqShort p).headD 0) ]

/-- R357, R445: every NW_PERIOD_MS, but for THROTTLE. -/
def execNightWatch (dt : Nat) (p : Fin 2) (pathOk : Bool) (s : State) : Host.Outcome State Fault Refusal :=
  let s := s.pass dt
  let p := p.val
  let c := s.claim p
  if !s.isOn .twin || !s.twinParts.contains p || s.chip.thermal.st != 0 || decide (s.cyc < c.nwAt + s.nwCyc) then ans s else
  let tests := s.twin.tests.filter fun r => s.portPart r.1 == p
  let holder := c.num != 0
  let bad := !holder && !tests.isEmpty && !(pathOk && tests.all s.testPasses)
  let s := if holder then s else s.bump ⟨0x15, 4, 0⟩ p tests.length
  let checks := s.nwChecks p bad
  let mask := checks.zipIdx.foldl (fun m (b, i) => if b.1 then m + 2 ^ i else m) 0
  let s := checks.zipIdx.foldl (fun s (b, i) => if b.1 && !bit c.failed i then s.raise p evNwFail i b.2 else s) s
  ans (s.updClaim p fun c =>
    { c with nwAt := s.cyc, ueSeen := s.mem.ueTotal, failed := mask, health := mask + (if mask = 0 then 128 else 0) })

end Sys2Proof.Machine
end

