-- ==== Sys2Proof/Machine/Telemetry.lean ====
section
/-! DEFINITION. Reading and writing counters and records (17_counters_telemetry.md, R419 to R422, R429), PERF_CFG and samples (R425,
R426), and the timed flushes of accumulators and flow-state records (R418, R428). -/

namespace Sys2Proof.Machine

/-! ### Performance counters (R424, R425) -/

/-- Value of a programmable counter now; one of TMC cycles counts by itself. -/
def State.perfValue (s : State) (k : Nat) : Nat :=
  let p := s.perf k
  if p.enable && p.event == 0x46 then (p.value + (s.tmcNow - p.loadedAt)) % 2 ^ 48 else p.value

/-- Set a programmable counter. -/
def State.setPerf (s : State) (k v : Nat) : State := s.updPerf k fun p => { p with value := v % 2 ^ 48, loadedAt := s.tmcNow }

/-- Code of an event of a slice, or of a tile; 0x00 is of both. -/
def sliceEvent (e : Nat) : Bool := decide (e ≤ 0x0C)
def tileEventCode (e : Nat) : Bool := e == 0 || (decide (0x40 ≤ e) && decide (e ≤ 0x46))

def perfCfgOk (x : Nat) : Bool :=
  let tile := bit x 0
  let period := bits x 32 48
  bits x 1 7 == 0 && !bit x 15 && bits x 26 6 == 0 && bits x 80 48 == 0
    && (if tile then decide (bits x 12 3 < 4) && tileEventCode (bits x 16 8) && !bit x 25
        else decide (bits x 8 4 < 8) && sliceEvent (bits x 16 8))
    && (!bit x 25 || (decide (4096 ≤ period) && decide (period ≤ 2 ^ 47)))

/-- Partition of a programmable counter. -/
def State.perfPart (s : State) (tile : Bool) (unit ctr : Nat) : Nat := if tile then s.halfPart 8 unit else s.halfPart 4 ctr

def perfCfgBody (s : State) (c : Cmd) (x : Nat) : Out :=
  let tile := bit x 0
  let unit := bits x 8 4
  let ctr := bits x 12 3
  if !perfCfgOk x then .fail s stBadArg
  else if s.partOn && s.perfPart tile unit ctr != c.part then .fail s stProtected
  else
    let s := if tile then s else s.syncSlots unit
    let period := bits x 32 48
    .ok (s.updPerf (perfKey tile unit ctr) fun _ =>
      { value := if bit x 25 then 2 ^ 48 - period else 0, event := bits x 16 8, enable := bit x 24, sampleEn := bit x 25
        period := if bit x 25 then period else 0, loadedAt := s.tmcNow })

def perfCfgSpec : OpSpec := { code := 0x0A10, entryLen := fixedLen 16, body := perfCfgBody }

/-- R425. -/
def execPerfCfg (i : Issue) (s : State) : Host.Outcome State Fault Refusal := ans (s.runCommand perfCfgSpec i)

/-- R426: a sampling counter has overflowed: its sample is written, unless the slice still holds one of the last 1 µs. -/
def execPerfSample (dt : Nat) (slice ctr : Fin 8) (skid : Fin 17) (cat : Fin 4) (pp : Option (BitVec 256)) (s : State) :
    Host.Outcome State Fault Refusal :=
  let s := s.pass dt
  let k := perfKey false slice ctr
  let p := s.perf k
  if p.due = 0 then ans s else
  let s := s.updPerf k fun p => { p with due := p.due - 1 }
  let busy := match s.tele.sampleAt.find? slice with
    | some t => decide (s.cyc < t + cycUs)
    | none => false
  if busy then ans (s.bump ⟨0x32, 0, 0⟩ slice) else
  let s := { s with tele := { s.tele with sampleAt := s.tele.sampleAt.ins slice s.cyc } }
  let part := s.perfPart false slice ctr
  let e := s.evtOf ⟨0x30, p.event, false⟩ (slice.val * 8 + ctr.val)
    ((pp.map (·.toNat)).getD 0 + cat.val * 2 ^ 256 + b2n pp.isSome * 2 ^ 258 + skid.val * 2 ^ 259) true
  let rt := s.routeOf part 0x30
  let r := s.sendEvt part { e with kind := 2 }
  ans (if r.2 then r.1.raiseSaturated 0x16 (evtRingIx rt.1 rt.2) 0 else r.1)

/-! ### Records (R427 to R429) -/

/-- The 512 bits of a flow-state record. -/
def Flow.encode (f : Flow) : Nat :=
  if f.poison then 2 ^ 41 else
  f.hash % 2 ^ 32 + f.port % 256 * 2 ^ 32 + b2n f.inUse * 2 ^ 40 + f.tcpFlags % 256 * 2 ^ 48 + secOf f.first % 2 ^ 48 * 2 ^ 64
    + nsOf f.first * 2 ^ 112 + secOf f.last % 2 ^ 48 * 2 ^ 144 + nsOf f.last * 2 ^ 192 + f.packets * 2 ^ 224 + f.bytes * 2 ^ 288
    + f.queue % 2 ^ 20 * 2 ^ 352 + f.endpoint % 4096 * 2 ^ 372

/-! ### What an entry names (R421) -/

/-- Fields of a counter entry. -/
def ceSet (x : Nat) : Nat := bits x 0 8
def ceItem (x : Nat) : Nat := bits x 16 8
def ceNum (x : Nat) : Nat := bits x 24 8
def ceInst (x : Nat) : Nat := bits x 32 28

/-- What an operation does with a counter. -/
inductive CtrOp where
  | read | clear | write
deriving DecidableEq, Repr

/-- Programmable counters among the items of an entry belong to one partition each; the other slice counters are shared. -/
def State.perfItemsOwn (s : State) (x part : Nat) (op : CtrOp) : Bool :=
  (List.range (ceNum x)).all fun i =>
    let item := ceItem x + i
    if item < 5 then op == .read || part == 0 else s.halfPart 4 (item - 5) == part

/-- Status of an entry's names (R417, R421, R429). -/
def State.ctrCheck (s : State) (part x : Nat) (op : CtrOp) : Nat :=
  let set := ceSet x
  let hi := ceItem x + ceNum x
  let ix := ceInst x % 2 ^ 24
  if bits x 8 8 ≠ 0 ∨ bits x 60 4 ≠ 0 ∨ ceNum x = 0 ∨ 64 < ceNum x ∨ (op = .write ∧ ceNum x ≠ 1) then stBadArg
  else if set = 0x40 then (if op = .read ∧ hi ≤ 32 ∧ ceInst x < s.captureRecords then stOk else stBadArg)
  else if set = 0x41 then
    if op = .write ∨ 8 < hi then stBadArg
    else if s.partOn && s.halfPart (2 ^ 27) (ceInst x) != part then stProtected else stOk
  else match ctrKind set (ceInst x) with
    | none => stBadArg
    | some (e, n) =>
      if n < hi ∨ e.count ≤ ix then stBadArg
      else if !s.partOn then stOk
      else if set = 0x30 then (if s.perfItemsOwn x part op then stOk else stProtected)
      else if s.entityPart e ix = part ∨ (entityShared e ix ∧ op = .read) then stOk
      else stProtected

/-- A counter's value and its LOST bit. -/
def State.ctrRead (s : State) (part set inst item : Nat) : Nat × Bool :=
  if set = 0x40 then (bits (s.tele.capture.get 0 (part * 2 ^ 40 + inst)) (64 * item) 64, false)
  else if set = 0x41 then (bits (s.flowAt inst).encode (64 * item) 64, false)
  else if set = 0x30 ∧ 5 ≤ item then (s.perfValue (perfKey false (inst % 2 ^ 24) (item - 5)), false)
  else if set = 0x31 then (s.perfValue (perfKey true (inst % 2 ^ 24) item), false)
  else
    let c := s.ctr set inst item
    (if ctr32 set inst then c.backing else c.value (s.satMode set (s.ctrPart set inst)), c.lost)

/-- Both copies of a statistics word are written. -/
def State.statWritten (s : State) (k : Nat) : State := (s.recRewritten structStat (2 * k)).recRewritten structStat (2 * k + 1)

/-- Set a counter to a value: 0 of a READ_CLEAR, or that of a WRITE. -/
def State.ctrSet (s : State) (set inst item v : Nat) : State :=
  if set = 0x30 ∧ 5 ≤ item then s.setPerf (perfKey false (inst % 2 ^ 24) (item - 5)) v
  else if set = 0x31 then s.setPerf (perfKey true (inst % 2 ^ 24) item) v
  else (s.setCtr set inst item { backing := v, spent := v == max64 && (s.ctr set inst item).spent }).statWritten (ctrKey set inst item)

/-- A counter without a backing word (R417, R418, R424). -/
def unbacked (set inst item : Nat) : Bool :=
  ctr32 set inst || set == 0x31 || set == 0x40 || set == 0x41 || (set == 0x30 && decide (5 ≤ item))

/-- Read a counter's backing word: `o0` and `o1` say how its copies read. With both lost the counter is LOST and counts on from 0
(R293, R305, R422). The answer says that it is. -/
def State.readStat (s : State) (set inst item o0 o1 : Nat) : State × Bool :=
  let k := ctrKey set inst item
  let p := s.ctrPart set inst
  let r := s.readTwo p structStat k (statUnit set k 0) (statUnit set k 1) o0 o1
  if r.2 then
    let c := r.1.ctr set inst item
    (((r.1.setCtr set inst item { c with backing := c.acc, acc := 0, lost := true }).statWritten k).raise p evCounterLost set
      (inst % 2 ^ 32 + item * 2 ^ 32), true)
  else (r.1, false)

/-- Flush a counter's accumulator under the mode in force, with COUNTER_SATURATED when it is due (R418, R420). -/
def State.flushCtr (s : State) (set inst item : Nat) : State :=
  let r := (s.ctr set inst item).flush (s.satMode set (s.ctrPart set inst))
  let s := (s.setCtr set inst item r.1).statWritten (ctrKey set inst item)
  if r.2 then s.raiseSaturated set inst item else s

/-- A flow-state record is read and given up. -/
def State.flowClear (s : State) (ix : Nat) : State :=
  let f := { s.flowAt ix with inUse := false }
  { s with tele := { s.tele with flowCache := s.tele.flowCache.del ix, flows := s.tele.flows.put {} ix f } }

/-- The LOST mask and the values of an entry. -/
def State.ctrValues (s : State) (part x : Nat) : List Byte :=
  let vs := (List.range (ceNum x)).map fun i => s.ctrRead part (ceSet x) (ceInst x) (ceItem x + i)
  leBytes 8 (vs.zipIdx.foldl (fun m (v, i) => if v.2 then m + 2 ^ i else m) 0) ++ vs.flatMap fun v => leBytes 8 v.1

/-- Before counters are looked at: slots that have passed without a packet are counted in set 0x30 (R423), and the backing words
are read. -/
def State.ctrSync (s : State) (x : Nat) : State :=
  let s := if ceSet x = 0x30 then s.syncSlots (ceInst x % 2 ^ 24) else s
  (List.range (ceNum x)).foldl (fun s i =>
    if unbacked (ceSet x) (ceInst x) (ceItem x + i) then s else (s.readStat (ceSet x) (ceInst x) (ceItem x + i) 0 0).1) s

/-! ### Commands -/

def ctrRespLen (op : CtrOp) (s : State) (c : Cmd) (x : Nat) : Nat :=
  if s.ctrCheck c.part x op = stOk then 8 + 8 * ceNum x else 0

def counterReadBody (s : State) (c : Cmd) (x : Nat) : Out :=
  let st := s.ctrCheck c.part x .read
  if st ≠ stOk then .fail s st else
  let s := s.ctrSync x
  .okResp s 0 (s.ctrValues c.part x)

def counterReadSpec : OpSpec :=
  { code := 0x0A00, entryLen := fixedLen 8, batch := true, reads := true, respLen := ctrRespLen .read, body := counterReadBody }

/-- R419, R421. -/
def execCounterRead (i : Issue) (s : State) : Host.Outcome State Fault Refusal := ans (s.runCommand counterReadSpec i)

def counterReadClearBody (s : State) (c : Cmd) (x : Nat) : Out :=
  let st := s.ctrCheck c.part x .clear
  if st ≠ stOk then .fail s st else
  let s := s.ctrSync x
  let r := s.ctrValues c.part x
  let s := if ceSet x = 0x41 then s.flowClear (ceInst x)
    else (List.range (ceNum x)).foldl (fun s i => s.ctrSet (ceSet x) (ceInst x) (ceItem x + i) 0) s
  .okResp s 0 r

def counterReadClearSpec : OpSpec :=
  { code := 0x0A01, entryLen := fixedLen 8, batch := true, reads := true, respLen := ctrRespLen .clear, body := counterReadClearBody }

/-- R419, R421, R429. -/
def execCounterReadClear (i : Issue) (s : State) : Host.Outcome State Fault Refusal := ans (s.runCommand counterReadClearSpec i)

def counterWriteBody (s : State) (c : Cmd) (x : Nat) : Out :=
  let v := bits x 64 64
  if ctr32 (ceSet x) (ceInst x) ∧ max32 < v then .fail s stBadArg else
  let st := s.ctrCheck c.part x .write
  if st ≠ stOk then .fail s st else .ok ((s.ctrSync x).ctrSet (ceSet x) (ceInst x) (ceItem x) v)

def counterWriteSpec : OpSpec := { code := 0x0A02, entryLen := fixedLen 16, batch := true, body := counterWriteBody }

/-- R419, R421. -/
def execCounterWrite (i : Issue) (s : State) : Host.Outcome State Fault Refusal := ans (s.runCommand counterWriteSpec i)

/-- Sets whose overflow mode COUNTER_SET_CFG fixes (R420). -/
def ctrModeSet (set : Nat) : Bool := !(ctrKinds set).isEmpty && !(set == 2 || set == 3 || set == 0x30 || set == 0x31)

/-- Every counter of a set in a partition is brought to its value under the mode in force (R420, R22). -/
def State.settleSet (s : State) (set part : Nat) : State :=
  s.tele.ctrs.foldl (fun s (k, _) =>
    let inst := k / 256 % 0x10000000
    if k / (0x10000000 * 256) = set ∧ s.ctrPart set inst = part ∧ !unbacked set inst (k % 256) then s.flushCtr set inst (k % 256) else s) s

def counterSetCfgBody (s : State) (c : Cmd) (x : Nat) : Out :=
  let set := bits x 0 8
  if bits x 9 55 ≠ 0 ∨ !ctrModeSet set then .fail s stBadArg
  else
    let s := s.settleSet set c.part
    .ok { s with tele := { s.tele with saturate := s.tele.saturate.put false (set * 2 + c.part) (bit x 8) } }

def counterSetCfgSpec : OpSpec := { code := 0x0A03, entryLen := fixedLen 8, body := counterSetCfgBody }

/-- R420. -/
def execCounterSetCfg (i : Issue) (s : State) : Host.Outcome State Fault Refusal := ans (s.runCommand counterSetCfgSpec i)

/-! ### Timed flushes -/

/-- R418, R422: 1 ms after its last flush a counter's accumulator joins the backing word; `outs` says how its copies read, and with
both lost the counter is LOST and counts from 0. -/
def execAccumulatorFlush (dt : Nat) (set inst item : Nat) (outs : Fin 3 × Fin 3) (s : State) : Host.Outcome State Fault Refusal :=
  let s := s.pass dt
  let known := match ctrKind set inst with
    | some (e, n) => decide (item < n) && decide (inst % 2 ^ 24 < e.count)
    | none => false
  if !known || unbacked set inst item then ans s else
  let r := s.readStat set inst item outs.1 outs.2
  ans (if r.2 then r.1 else r.1.flushCtr set inst item)

/-- R428: a cached record goes to the cellar 1 s after its first update, or when a full cache evicts it; without capacity left (R214)
it is discarded and counted. -/
def execFlowCacheWriteback (dt : Nat) (index : Fin 268435456) (evict : Bool) (s : State) : Host.Outcome State Fault Refusal :=
  let s := s.pass dt
  match s.tele.flowCache.find? index with
  | none => ans s
  | some (t, _) => if t + cycSec ≤ s.cyc ∨ (evict ∧ s.flowCacheFull) then ans (s.flowWrite index) else ans s

end Sys2Proof.Machine
end

