-- ==== Sys2Proof/Machine/Abort.lean ====
section
/-! DEFINITION. Enabling and disabling rings (R369), aborts (R409 to R412), what an abort does to tables (R149), and the reset of one
function (R364). -/

namespace Sys2Proof.Machine

/-! ### Aborted commits (R149) -/

/-- One change of an entry that is not current: the epoch in which it is staged and the data of a write, or none for a delete. -/
structure Change where
  ep : Nat
  write : Option (Nat × Bool)
deriving DecidableEq, Repr

/-- Changes of an entry after epoch `cur`, oldest first. -/
def changesOf (vs : List Ver) (cur : Nat) : List Change :=
  vs.flatMap fun v =>
    (if cur < v.birth then [{ ep := v.birth, write := some (v.data, v.poisoned) }] else [])
      ++ (match v.death with
        | some d => if cur < d && vs.all (fun u => u.birth != d) then [{ ep := d, write := none }] else []
        | none => [])

/-- The versions of an entry with one more change. -/
def applyChange (vs : List Ver) (c : Change) : List Ver :=
  match c.write with
  | some (d, p) => (stageWrite vs c.ep d).map fun v => if v.birth = c.ep then { v with poisoned := p } else v
  | none => vs.map fun v => if v.death.isNone then { v with death := some c.ep } else v

/-- Changes under new epoch numbers: of several in one epoch the later one stays, and one that a later change now precedes is
dropped. -/
def renumber (f : Nat → Nat) : List Change → List Change
  | [] => []
  | c :: t => if t.any fun d => decide (f d.ep ≤ f c.ep) then renumber f t else c :: renumber f t

/-- Renumber the staged changes of one entry, with the rows and slots that its versions hold. -/
def State.renumberEntry (s : State) (cur : Nat) (f : Nat → Nat) (key : Nat) (vs : List Ver) : State :=
  let all := changesOf vs cur
  let keep := renumber f all
  let gone := all.filter fun c => c.write.isSome && keep.all fun k => k.ep != c.ep
  let s := gone.foldl (fun s c => s.releaseVer key c.ep) s
  let g (b : Nat) : Nat := if cur < b then f b else b
  let base := (vs.filter fun v => decide (v.birth ≤ cur)).map fun v =>
    if v.death.any (fun d => decide (cur < d)) then { v with death := none } else v
  let s := s.setVersions key ((keep.map fun c => { c with ep := f c.ep }).foldl applyChange base)
  { s with lookup := { s.lookup with
      bankRows := s.lookup.bankRows.map fun (b, l) => (b, l.map fun r => if r.2.1 = key then (r.1, r.2.1, g r.2.2) else r)
      emPlace := s.lookup.emPlace.map fun e => if e.1 = key then (e.1, g e.2.1, e.2.2) else e } }

/-- The claims of commits that an abort has completed end: the claims that remain keep their order from the epoch after the current
one, and every other staged change joins the pending epoch behind them. -/
def State.endClaims (s : State) (p : Nat) : State :=
  let cur := (s.epochs p).cur
  let claims := ((s.commits p).filterMap fun c => c.2.2.1).mergeSort
  let f (e : Nat) : Nat := match claims.findIdx? (· == e) with
    | some i => cur + 1 + i
    | none => cur + 1 + claims.length
  let s := (s.entriesOf p).foldl (fun s (k, vs) => s.renumberEntry cur f k vs) s
  s.waiting.foldl (fun s (fn, r, run) =>
    if s.partOf fn ≠ p then s else
    match run.wait with
    | .commit (some e) order since st => s.updRing fn r fun g => { g with running := some { run with wait := .commit (some (f e)) order since st } }
    | .tcamMove b e o => s.updRing fn r fun g => { g with running := some { run with wait := .tcamMove b (f e) o } }
    | _ => s) s

/-! ### Commands that an abort completes (R410, R411) -/

/-- Device number of a command ring (R367). -/
def State.cmdRingIx (s : State) (fn n : Nat) : Nat := n + (if s.partOn then 32 * fn else 0)

/-- The command in execution on a ring completes ABORTED; a batch tells where it stopped (R377). -/
def State.abortRun (s : State) (fn n : Nat) (run : Running) : State :=
  let k := if run.desc.entries = 1 then 0 else run.doneEntries
  ((s.bump ⟨0x16, 1, 1⟩ (s.cmdRingIx fn n)).finish fn n run stAborted k k run.resp).settle fn n

/-- Commands whose wait satisfies `f` complete ABORTED; the second component counts them. -/
def State.abortWaits (s : State) (f : Nat × Nat × Running → Bool) : State × Nat :=
  if s.chip.d2dDown then (s, 0) else
  (s.waiting.filter f).foldl (fun (s, n) (fn, r, run) => (s.abortRun fn r run, n + 1)) (s, 0)

/-- Channels that a MEM_TRAIN was training are UNTRAINED (R298). -/
def State.untrain (s : State) (m : Nat) : State :=
  (maskChans m).foldl (fun s c => if (s.xm c).dimms = 0 then s else s.updXm c fun x => { x with st := 1, cause := 0, gib := 0 }) s

/-- A pending gate list is dropped: the list in force stays (R288). -/
def State.dropPending (s : State) (p : Nat) : State :=
  ((s.syncV p).markBounds p false).updGate p fun g => { g with pending := none }

/-- What has to be undone before a waiting command completes ABORTED. -/
def State.undoWait (s : State) : Wait → State
  | .gateStart p => s.dropPending p
  | .memTrain m => s.untrain m
  | .mcast g old _ => { s with caravan := { s.caravan with groups := s.caravan.groups.put 0 g old } }
  | _ => s

/-- What may go on once a command has been aborted. -/
def State.afterAbort (s : State) (part : Nat) : Wait → State
  | .gateStart p => s.resumeWaits [gateSetSpec] fun w => w == .gateTurn p
  | .commit _ _ _ _ => s.endClaims part
  | .tcamMove _ _ _ => s.resumeWaits [epochDiscardSpec] Wait.isDiscard
  | _ => s

/-- Waits that an abort of the ring ends with ABORTED; the others end with the command's own status (R410). -/
def Wait.abortable : Wait → Bool
  | .modeTurn _ _ => true
  | .gateTurn _ => true
  | .gateStart _ => true
  | .capacity => true
  | .commit _ _ _ _ => true
  | .mcast _ _ _ => true
  | .tcamMove _ _ _ => true
  | .discard _ => true
  | .memTrain _ => true
  | .modeDone => false
  | .power _ _ _ => false
  | .audit => false
  | .timeStep => false
  | .twinClaim => false
  | .twinRelease => false
  | .abort _ _ => false
  | .duplicate _ _ _ => false

/-- The command in execution on a ring that is aborted (R410). A SET_MODE whose transition runs completes OK and leaves it. -/
def State.abortHead (s : State) (fn n : Nat) : State :=
  match s.runningOn fn n with
  | none => s
  | some run =>
    if run.wait = .modeDone then
      ({ s with modes := { s.modes with owner := none } }).finish fn n run stOk 0 0 []
    else if run.wait.abortable then
      let s := ((s.undoWait run.wait).abortRun fn n run).afterAbort (s.partOf fn) run.wait
      s.updRing fn n fun g => { g with abortCount := g.abortCount + 1 }
    else s

/-- Every descriptor that a doorbell covers and that has not begun completes ABORTED, in ring order (R410). -/
def State.flushDescs (s : State) (fn n : Nat) : State :=
  let g := s.ring fn n
  let l := g.fetched ++ (g.partialDesc.map fun d => ({ raw := d : Desc })).toList
  let used := (g.fetched.map fun d => if d.auth then 2 else 1).foldl (· + ·) 0 + g.partialDesc.toList.length
  let s := s.updRing fn n fun g =>
    { g with fetched := [], partialDesc := none, devIndex := (g.devIndex + used) % 2 ^ 32, abortCount := g.abortCount + l.length }
  l.foldl (fun s d => (s.bump ⟨0x16, 1, 1⟩ (s.cmdRingIx fn n)).complete fn n d stAborted 0 0 false []) s

/-- The command ring's paired completion ring has taken every completion: DISABLED (R410). -/
def State.ringStopped (s : State) (fn n : Nat) : State :=
  if (s.ring fn n).st == .stopping && (s.ring fn n).running.isNone && !s.chip.d2dDown then
    let s := s.flushDescs fn n
    if (s.ring fn (compRing n)).held.isEmpty then s.updRing fn n fun g => { g with st := .disabled } else s
  else s

/-- A command ring is aborted: STOPPING, its commands end as R410 says; a ring without a command in execution flushes its
descriptors. -/
def State.ringAbort (s : State) (fn n : Nat) : State :=
  if (s.ring fn n).st == .running || (s.ring fn n).st == .fenced then
    let s := (s.updRing fn n fun g => { g with st := .stopping, abortCount := 0 }).abortHead fn n
    if (s.ring fn n).running.isNone && !s.chip.d2dDown then s.flushDescs fn n else s
  else s

/-- R410: the aborted ring becomes DISABLED. -/
def execCommandRingStopped (dt : Nat) (fn : Fin 2) (ring : Fin 64) (s : State) : Host.Outcome State Fault Refusal :=
  ans ((s.pass dt).ringStopped fn ring)

/-- A punt, inject, event or completion ring is disabled. -/
def State.ringOff (s : State) (fn r : Nat) : State :=
  s.updRing fn r fun g => { g with st := .disabled, unsignalled := none }

/-! ### Enabling and disabling (R367 to R369) -/

/-- Ring records beyond the function's share under PARTITION (R48, R367). -/
def ringBeyond (r : Nat) : Bool :=
  if r < 64 then decide (32 ≤ r) else if r < 128 then decide (96 ≤ r) else if r < 144 then decide (136 ≤ r)
  else if r < 176 then decide (160 ≤ r) else decide (192 ≤ r)

/-- INT_EN, VECTOR and MOD_US, which take effect at any time (R368). -/
def Ring.control (g : Ring) (v : Nat) : Ring := { g with intEn := bit v 1, vector := bits v 16 8, modUs := bits v 24 8 }

/-- LOG2_SIZE and BUF_CODE, which a write changes only while the ring is DISABLED (R368). -/
def Ring.shape (g : Ring) (v : Nat) : Ring :=
  if g.st == .disabled then { g with log2 := bits v 4 5, bufCode := bits v 12 3 } else g

/-- ERR with which an enable is refused; 0 when it is accepted (R367, R369). -/
def State.enableErr (s : State) (fn r : Nat) : Nat :=
  let g := s.ring fn r
  if g.log2 < 6 ∨ 16 < g.log2 then 1
  else if (s.func fn).chosen = 0 then 2
  else if s.partOn && ringBeyond r then 6
  else if r < 64 ∧ (s.ring fn (compRing r)).st ≠ .running then 7
  else 0

/-- A ring as an accepted enable leaves it; an event ring keeps the records that are held for it and its marker (R388). -/
def Ring.enabled (g : Ring) : Ring :=
  { g with st := .running, err := 0, devIndex := 0, hostIndex := 0, progSeq := 0, progStatus := 0, fetched := [], partialDesc := none
           running := none, lastSeq := none, accepted := 0, history := [], fetchStop := false, comps := [], evts := []
           unsignalled := none, posted := [], puntOut := [], injects := [], injectOut := [] }

/-- MW0 offset of a ring record's CTRL (R368). -/
def ringCtrlOff (r : Nat) : Nat := 0x1008 + 0x20 * r

/-- R369: a write of CTRL with ENABLE = 1. -/
def execRingEnable (dt : Nat) (fn : Fin 2) (r : Fin 208) (value : Word32) (s : State) : Host.Outcome State Fault Refusal :=
  ans ((s.pass dt).mw0 fn (ringCtrlOff r) fun s =>
    let v := value.toNat
    let was := (s.ring fn r).st
    let s := s.updRing fn r fun g => (g.shape v).control v
    if !bit v 0 || was != .disabled then s else
    let e := s.enableErr fn r
    if e ≠ 0 then s.updRing fn r fun g => { g with err := e } else
    let s := s.updRing fn r Ring.enabled
    if 128 ≤ r.val ∧ r.val < 144 then s.drainEvts fn r 257 else s)

/-- R369: a write of CTRL with ENABLE = 0. -/
def execRingDisable (dt : Nat) (fn : Fin 2) (r : Fin 208) (value : Word32) (s : State) : Host.Outcome State Fault Refusal :=
  ans ((s.pass dt).mw0 fn (ringCtrlOff r) fun s =>
    let v := value.toNat
    let s := s.updRing fn r fun g => (g.shape v).control v
    if bit v 0 || (s.ring fn r).st == .disabled then s
    else if r.val < 64 then s.ringAbort fn r
    else if r.val < 128 ∧ (s.ring fn (r.val - 64)).st ≠ .disabled then s
    else s.ringOff fn r)

/-! ### Functions that ABORT names (R409) -/

/-- Number of INDEX values of a FUNC; 0 for a reserved one. -/
def State.abortRange (s : State) (func : Nat) : Nat :=
  let n := if s.partOn then [32, 16, 16, 8, 1, 1, 6, 8, 12] else [64, 32, 32, 16, 1, 1, 6, 8, 12]
  n.getD func 0

/-- Status of an abort's checks; `own` is the ring that carries the ABORT. -/
def State.abortCheck (s : State) (fn func index : Nat) (own : Option Nat) : Nat :=
  if s.abortRange func ≤ index ∨ (func = 0 ∧ own = some index) then stBadArg
  else if s.partOn && ((func == 6 && s.groupPart index != fn) || ((func == 7 || (func == 8 && decide (index < 8))) && index / 4 != fn)
      || (func == 8 && decide (8 ≤ index) && fn == 1)) then stProtected
  else stOk

/-- FUNC 4: the table engine of a partition is idle; no claim remains (R149). -/
def State.abortTables (s : State) (part : Nat) : State × Nat :=
  let r := s.abortWaits fun (fn, _, run) => s.partOf fn == part &&
    (match run.wait with | .commit _ _ _ _ => true | .tcamMove _ _ _ => true | .discard _ => true | _ => false)
  (r.1.endClaims part, r.2)

/-- FUNC 5: waiting MCAST_GROUP_WRITEs of a partition leave the old entry. -/
def State.abortCaravan (s : State) (part : Nat) : State × Nat :=
  let own (w : Nat × Nat × Running) : Bool :=
    s.partOf w.1 == part && (match w.2.2.wait with | .mcast _ _ _ => true | _ => false)
  ((s.waiting.filter own).foldl (fun s w => s.undoWait w.2.2.wait) s).abortWaits own

/-- FUNC 6: a lane group's waiting commands end; STARTING goes through QUIESCING. -/
def State.abortGroup (s : State) (g : Nat) : State × Nat :=
  let s := s.updGroup g fun d => { d with todo := [] }
  let s := if (s.group g).st == .starting then s.groupStop g else s
  s.abortWaits fun (_, _, run) => match run.wait with | .power 1 i _ => i == g | _ => false

/-- FUNC 7: the training of a channel ends, with the MEM_TRAIN that named it. -/
def State.abortTraining (s : State) (c : Nat) : State × Nat :=
  let hit (w : Nat × Nat × Running) : Bool := match w.2.2.wait with | .memTrain m => bit m c | _ => false
  ((s.waiting.filter hit).foldl (fun s w => s.undoWait w.2.2.wait) s).abortWaits hit

/-- FUNC 8: a retraining pause in progress ends with the previous settings. -/
def State.abortPauses (s : State) (index : Nat) : State :=
  (s.mem.pauses.filter fun (ch, _) => if index < 8 then ch == index else decide (8 ≤ ch) && (ch - 8) / 16 == index - 8).foldl
    (fun s (ch, _) => s.endRetrain ch) s

/-- Bring the named function to its state; the second component is the number of commands aborted, none while the function is on its
way (R409). -/
def State.abortAct (s : State) (fn func index : Nat) : State × Option Nat :=
  match func with
  | 0 => if (s.ring fn index).st == .disabled then (s, some 0) else (s.ringAbort fn index, none)
  | 1 => (s.ringOff fn (144 + index), some 0)
  | 2 => (s.ringOff fn (176 + index), some 0)
  | 3 => (s.ringOff fn (evtRing index), some 0)
  | 4 => let r := s.abortTables (s.partOf fn); (r.1, some r.2)
  | 5 => let r := s.abortCaravan (s.partOf fn); (r.1, some r.2)
  | 6 =>
    if (s.group index).st == .on || (s.group index).st == .off then (s, some 0) else
    let r := s.abortGroup index
    let was := ((r.1.host.aborts.find? fun a => a.fn == fn && a.func == 6 && a.index == index).map (·.count)).getD 0
    let rest := r.1.host.aborts.filter fun a => !(a.fn == fn && a.func == 6 && a.index == index)
    let op : AbortOp := { fn := fn, func := 6, index := index, count := was + r.2 }
    ({ r.1 with host := { r.1.host with aborts := op :: rest } }, none)
  | 7 => let r := s.abortTraining index; (r.1, some r.2)
  | _ => (s.abortPauses index, some 0)

/-- ABORT_DONE with FUNC, INDEX and the commands completed ABORTED (R411, R416). -/
def State.raiseAbortDone (s : State) (fn func index n : Nat) : State :=
  s.raise (s.partOf fn) evAbortDone func (index + n * 256)

/-- The function named has reached its state: a ring that is not STOPPING, a group that is not QUIESCING. -/
def State.abortReached (s : State) (fn func index : Nat) : Bool :=
  if func = 0 then (s.ring fn index).st != .stopping
  else if func = 6 then (s.group index).st != .quiescing
  else true

/-- Commands that the abort has completed ABORTED. -/
def State.abortCounted (s : State) (fn func index : Nat) : Nat :=
  if func = 0 then (s.ring fn index).abortCount
  else ((s.host.aborts.find? fun a => a.fn == fn && a.func == func && a.index == index).map (·.count)).getD 0

/-- Some ABORT, posted or through HIF_ABORT, waits for the function named. -/
def State.abortAwaited (s : State) (fn func index : Nat) : Bool :=
  (s.func fn).abortBusy == some (func, index)
    || s.waiting.any fun (f, _, run) => f == fn && run.wait == .abort func index

/-- The overlapping ABORTs of one function complete together (R411, R412). -/
def State.abortEnd (s : State) (fn func index : Nat) : State :=
  let n := s.abortCounted fn func index
  let rest := s.host.aborts.filter fun a => !(a.fn == fn && a.func == func && a.index == index)
  let s := { s with host := { s.host with aborts := rest } }
  let s := if (s.func fn).abortBusy == some (func, index) then
      s.updFunc fn fun p => { p with abortBusy := none, abortStatus := stOk, abortCount := min n 0xFFFF }
    else s
  let s := s.raiseAbortDone fn func index n
  s.waiting.foldl (fun s w => if w.1 = fn ∧ w.2.2.wait = .abort func index then s.endWait w.1 w.2.1 stOk 0 n [] else s) s

def abortBody (s : State) (c : Cmd) (x : Nat) : Out :=
  let func := bits x 0 4
  let index := bits x 8 8
  if bits x 4 4 ≠ 0 ∨ bits x 16 48 ≠ 0 then .fail s stBadArg
  else
    let st := s.abortCheck c.fn func index (some c.ring)
    if st ≠ stOk then .fail s st else
    match s.abortAct c.fn func index with
    | (s, some n) => .okR (s.raiseAbortDone c.fn func index n) n
    | (s, none) => .wait s (.abort func index)

def abortSpec : OpSpec := { code := 0x0002, entryLen := fixedLen 8, body := abortBody }

/-- R409 to R411. -/
def execAbort (i : Issue) (s : State) : Host.Outcome State Fault Refusal := ans (s.runCommand abortSpec i)

/-- R411: the function that FUNC, INDEX named has reached its state. -/
def execAbortComplete (dt : Nat) (fn : Fin 2) (func index : Nat) (s : State) : Host.Outcome State Fault Refusal :=
  let s := s.pass dt
  if s.abortAwaited fn func index && s.abortReached fn func index then ans (s.abortEnd fn func index) else ans s

/-- R412: HIF_ABORT with GO = 1. -/
def execHifAbortGo (dt : Nat) (fn : Fin 2) (value : Word32) (s : State) : Host.Outcome State Fault Refusal :=
  ans ((s.pass dt).mw0 fn 0x20 fun s =>
    let func := bits value.toNat 0 4
    let index := bits value.toNat 8 8
    if (s.func fn).abortBusy.isSome then s.badAccess fn 0x20
    else if !value.getLsbD 31 then s
    else
      let st := s.abortCheck fn func index none
      if st ≠ stOk then s.updFunc fn fun p => { p with abortStatus := st, abortCount := 0 } else
      match s.abortAct fn func index with
      | (s, some n) =>
        (s.updFunc fn fun p => { p with abortStatus := stOk, abortCount := min n 0xFFFF }).raiseAbortDone fn func index n
      | (s, none) => s.updFunc fn fun p => { p with abortBusy := some (func, index) })

/-! ### Reset of a function (R364) -/

/-- Command rings of a function from `lo` up are aborted. -/
def State.abortRings (s : State) (fn lo : Nat) : State :=
  ((List.range 64).filter (lo ≤ ·)).foldl (fun s n => s.ringAbort fn n) s

/-- What the device keeps of a function's rings across its reset: event records that are held, and their marker (R388). -/
def keepHeld (rings : NMap Ring) : NMap Ring :=
  rings.foldl (fun m (r, g) => NMap.put m {} r { heldEvts := g.heldEvts, discard := g.discard, ringFail := g.ringFail }) []

/-- Every ring of the function is disabled and its HIF block returns to its reset values. -/
def State.resetFunc (s : State) (fn : Nat) : State :=
  let s := s.abortRings fn 0
  let s := s.updFunc fn fun p => { busMaster := p.busMaster, msix := p.msix, rings := keepHeld p.rings }
  let gone (o : Option (Nat × Nat)) : Option (Nat × Nat) := o.filter fun w => w.1 != fn
  let rest := s.host.aborts.filter fun a => a.fn != fn
  let steps := s.time.steps.map fun o => { o with owner := gone o.owner }
  { s with
    host := { s.host with aborts := rest }
    modes := { s.modes with owner := gone s.modes.owner }
    time := { s.time with steps := steps } }

/-- R364. -/
def execFunctionLevelReset (dt : Nat) (fn : Fin 2) (s : State) : Host.Outcome State Fault Refusal :=
  ans ((s.pass dt).resetFunc fn)

/-- R364: a move to D3hot acts as a reset of the function. -/
def execD3hotEntry (dt : Nat) (fn : Fin 2) (s : State) : Host.Outcome State Fault Refusal :=
  ans ((s.pass dt).resetFunc fn)

end Sys2Proof.Machine
end

