-- ==== Sys2Proof/Machine/Modes.lean ====
section
/-! DEFINITION. The modes (02_modes.md): the mode word and its checks (R31 to R35), transitions in order (R36 to R38), what each
mode's transition does (R39 to R47), and the split of PARTITION (R48, R151, R204, R363). -/

namespace Sys2Proof.Machine

/-! ### The mode word (R31, R34) -/

/-- Bit of a mode in the mode word. -/
def Mode.bitIx : Mode → Nat
  | .fabric => 0 | .twin => 1 | .transport => 2 | .gated => 3 | .cellar => 4 | .partition => 5 | .direct => 8

/-- A mode that the word turns on, or off (R34). -/
def State.reqOn (s : State) (w : Nat) (m : Mode) : Bool :=
  bit w (Mode.bitIx m) && ((s.mode m).st == .off || (s.mode m).st == .quiescing)
def State.reqOff (s : State) (w : Nat) (m : Mode) : Bool :=
  !bit w (Mode.bitIx m) && ((s.mode m).st == .on || (s.mode m).st == .starting)

/-- Reserved bits of the word. -/
def wordReserved : Nat := 0xFFC0FEC0

/-- The framer can map every port of a selected group: framer lanes and unused ones only, one at least (R34, R57, R90). -/
def State.groupMaps (s : State) (g : Nat) : Bool :=
  (List.range 8).all (fun i => s.laneField (8 * g + i) == 0 || s.laneField (8 * g + i) == 14)
    && (List.range 8).any fun i => s.laneField (8 * g + i) == 14

/-- The group is a framer group under word `w`. -/
def wordXpt (w g : Nat) : Bool := bit w 2 && bit w (16 + g)

/-- Sum of the guaranteed rates of a port, with held capacity or without (R262). -/
def State.guaranteed (s : State) (p : Nat) (heldToo : Bool) : Nat := ((s.portQueues p).map fun (_, q) => s.rateOf heldToo q).sum

/-- A port that the word removes has a queue with a non-zero guaranteed rate (R44). PARTITION removes a port from the queues of the
other half. -/
def State.removesPromise (s : State) (w split : Nat) (heldToo : Bool) : Bool :=
  (List.range 48).any (fun p => s.portExists p && s.xptGroup (p / 8) != wordXpt w (p / 8) && decide (0 < s.guaranteed p heldToo))
    || (s.reqOn w .partition && s.tm.queues.any fun (n, q) =>
        s.attached q && decide (0 < s.rateOf heldToo q) && decide (0x80000 ≤ n) != bit split ((s.pathOf q).port / 8))

/-- A guaranteed queue holds a packet of the direct peer (R34: "a queue of a direct peer's promise is in use"). -/
def State.peerPromise (s : State) (heldToo : Bool) : Bool :=
  s.tm.queues.any fun (_, q) => decide (0 < s.rateOf heldToo q) && q.pkts.any fun k => k.pkt.viaFb

/-- Check 10 of R34, with held capacity or without (R262). -/
def State.wordBreaks (s : State) (w split : Nat) (heldToo : Bool) : Bool :=
  s.removesPromise w split heldToo
    || (bit w 3 && (List.range 48).any fun p => !s.sumFits p (s.guaranteed p heldToo) (s.portRate p) true)
    || ((s.reqOff w .fabric || s.reqOff w .direct || s.reqOn w .direct) && s.isOn .direct && s.peerPromise heldToo)
    || (s.reqOff w .cellar && (List.range 2).any fun p => s.classAbove p (s.hbmNs p) heldToo)

/-- The checks of R34, 2 to 10, on a requested word under lane split `split`. -/
def State.wordCheck (s : State) (w split : Nat) (setMode : Bool) (heldToo : Bool := true) : Nat :=
  let xpt := (List.range 6).filter fun g => bit w (16 + g)
  if (s.func 0).chosen = 1 ∧ (setMode || bit w 5) then stVersion
  else if w &&& wordReserved != 0 || (bit w 0 && bit w 8) || (bit w 1 && !bit w 0 && bit w 8) then stBadArg
  else if bit w 2 && (xpt.isEmpty || !xpt.all s.groupMaps) then stBadArg
  else if s.reqOn w .cellar && (List.range 8).any fun c => (s.xm c).st == 1 || (s.xm c).st == 2 then stBadArg
  else if s.reqOn w .gated && !s.todAligned then stBadArg
  else if s.reqOff w .twin && (s.twin.a.num != 0 || s.twin.b.num != 0 || (s.lockRules && s.lockMine)) then stBadArg
  else if (s.reqOn w .partition || s.reqOff w .partition) && (List.range 6).any fun g => (s.group g).st != .off then stBadArg
  else if s.reqOff w .cellar && (List.range 48).any fun p => s.clientKind p == 2 && decide (16 < s.clientDd p) then stBadArg
  else if s.wordBreaks w split heldToo then stOvercommit
  else stOk

/-- MODE_STATUS (R32). -/
def State.modeStatus (s : State) : Nat :=
  (s.mode .fabric).st.code + (s.mode .twin).st.code * 4 + (s.mode .transport).st.code * 16 + (s.mode .gated).st.code * 64
    + (s.mode .cellar).st.code * 256 + (s.mode .partition).st.code * 1024 + (s.mode .direct).st.code * 4096
    + b2n s.applied * 2 ^ 16 + b2n (!s.modes.plan.isEmpty) * 2 ^ 17 + s.modes.lastStatus * 2 ^ 24

/-! ### Order of transitions (R37) -/

def disableOrder : List Mode := [.gated, .twin, .transport, .fabric, .direct, .cellar, .partition]
def enableOrder : List Mode := [.partition, .cellar, .fabric, .direct, .transport, .twin, .gated]

/-- Transitions that the word asks for, in order. -/
def State.planOf (s : State) (w : Nat) : List (Mode × Bool) :=
  (disableOrder.filter (s.reqOff w)).map (·, false) ++ (enableOrder.filter (s.reqOn w)).map (·, true)

/-- A mode enters a state now. -/
def State.setModeSt (s : State) (m : Mode) (st : OnOff) : State := s.updMode m fun _ => { st := st, since := s.cyc }

/-! ### TRANSPORT (R44) -/

/-- Carry out a change of the framer's groups: the ports of a live group whose kind changes go down, and those of its new kind come
up. -/
def State.xptChange (s : State) (f : State → State) : State :=
  let t := f s
  let gs := (List.range 6).filter fun g =>
    s.xptGroup g != t.xptGroup g && ((s.group g).st == .on || (s.group g).st == .starting)
  gs.foldl State.groupLinesUp (f (gs.foldl State.groupLinesDown s))

/-- The accepted word is in force; framer groups that are deselected with TRANSPORT itself keep their bits until its QUIESCING. -/
def State.takeWord (s : State) (w : Nat) : State :=
  let w := if s.reqOff w .transport then setBits w 16 6 (bits s.modes.word 16 6) else w
  s.xptChange fun s => { s with modes := { s.modes with word := w } }

/-! ### FB and TW lanes (R37, R229) -/

/-- Link groups of a mode. -/
def modeLinks : Mode → List Nat
  | .fabric => List.range 24
  | .direct => List.range 24
  | .twin => [24, 25]
  | _ => []

/-- Rate code of a link group (R228, R245). -/
def State.fabRate (s : State) (j : Nat) : Nat :=
  let r := s.regF (0x01C01100 + 0x10 * j) 0 3
  if j < 24 ∧ 1 ≤ r ∧ r ≤ 4 then r else 4

/-- The lane domains of a link group turn on. -/
def State.fabLinesUp (s : State) (j : Nat) : State :=
  let s := s.startLine (48 + j) 0
  s.updLanes (48 + j) fun l => { l with rate := s.fabRate j }

/-- The lane domains of a link group turn off; the link goes DOWN. -/
def State.fabLinesDown (s : State) (j : Nat) : State :=
  let s := ((s.linkDown j 0).updLink j fun l => { l with peer := none }).moveLanes (48 + j) .off
  s.updPort (48 + j) fun t => { t with attempt := none, failedAt := none }

/-- Packets that wait for a link are discarded; the one in transmission goes on (R37, R230). -/
def State.fabFlush (s : State) (j : Nat) : State := s.emptyOutput (linkOutput j)

/-! ### PARTITION (R50, R151, R204, R363) -/

/-- Every packet that holds an epoch reference (R145). -/
def State.heldPkts (s : State) : List Pkt :=
  s.switch.staging.flatMap (·.2) ++ s.switch.inputs.flatMap (·.2) ++ s.switch.xfers.map (·.2.pkt) ++ s.switch.outputs.flatMap (·.2)
    ++ s.byway.store.map (·.2.2.pkt) ++ s.caravan.second.map (·.2) ++ s.caravan.copies.map (·.2.2.2) ++ s.copySources
    ++ s.fabric.links.filterMap (fun l => l.2.sending.map (·.1)) ++ s.tm.queues.flatMap (fun q => q.2.pkts.map (·.pkt))
    ++ s.tm.egress.flatMap fun e => e.2.released.map (·.pkt)

/-- Change every such packet. -/
def State.mapPkts (s : State) (f : Pkt → Pkt) : State :=
  let lists (m : NMap (List Pkt)) : NMap (List Pkt) := m.map fun (k, l) => (k, l.map f)
  let rels (l : List Rel) : List Rel := l.map fun r => { r with pkt := f r.pkt }
  let links := s.fabric.links.map fun (j, l) => (j, { l with sending := l.sending.map fun (k, bs) => (f k, bs) })
  let queues := s.tm.queues.map fun (n, q) => (n, { q with pkts := q.pkts.map fun k => { k with pkt := f k.pkt } })
  let egress := s.tm.egress.map fun (p, e) => (p, { e with released := rels e.released, edited := rels e.edited })
  let xfers := s.switch.xfers.map fun (i, x) => (i, { x with pkt := f x.pkt })
  let store := s.byway.store.map fun (fn, r, p) => (fn, r, { p with pkt := f p.pkt })
  { s with
    switch := { s.switch with staging := lists s.switch.staging, inputs := lists s.switch.inputs, xfers := xfers
                              outputs := lists s.switch.outputs }
    byway := { s.byway with store := store }
    caravan := { s.caravan with second := s.caravan.second.map fun (w, k) => (w, f k)
                                copies := s.caravan.copies.map fun (w, c, g, k) => (w, c, g, f k) }
    fabric := { s.fabric with links := links }
    tm := { s.tm with queues := queues, egress := egress } }

/-- The references of both partitions are those of the packets. -/
def State.recountRefs (s : State) : State :=
  let s := { s with lookup := { s.lookup with epA := { s.lookup.epA with refs := [] }, epB := { s.lookup.epB with refs := [] } } }
  s.heldPkts.foldl (fun s k => s.takeRef k.part k.ep) s

/-- Partition of a packet that is in the device when PARTITION goes ON: of its ingress port, or of its destination. -/
def State.pktPart (s : State) (k : Pkt) : Nat :=
  if k.pp.inPort < 48 ∧ !k.viaFb then s.portPart k.pp.inPort else s.destPart k

/-- R151: no version of a partition is staged or about to be, no commit waits, and no packet holds an epoch other than the current
one. -/
def State.epochsSettled (s : State) (p : Nat) : Bool :=
  let e := s.epochs p
  (s.commits p).isEmpty && (s.writing p).isEmpty && (s.entriesOf p).all (fun (_, vs) => (changesOf vs e.cur).isEmpty)
    && e.refs.all fun (k, _) => k == e.cur

/-- Epochs at the start of PARTITION's STARTING: a new current epoch 0x000, and 0x800 for partition B; the former number stays an
alias. -/
def State.epochsStart (s : State) : State :=
  let old := s.epochNum 0 s.lookup.epA.cur
  let s := s.updEpochs 0 fun e => { e with cur := e.cur + 1, origin := e.cur + 1, aliases := [old], skips := [] }
  { s with lookup := { s.lookup with epB := { s.lookup.epA with base := 0x800, refs := [], nextOrder := 0 } } }

/-- Epochs when PARTITION is ON: partition B goes on from 0x800, and the packets divide. -/
def State.epochsSplit (s : State) : State :=
  let b : Epochs := { s.lookup.epA with base := 0x800, refs := [], nextOrder := 0 }
  (({ s with lookup := { s.lookup with epB := b } }).mapPkts fun k => { k with part := s.pktPart k }).recountRefs

/-- Epochs at the start of PARTITION's QUIESCING: one current epoch 0x000 for the device. -/
def State.epochsJoin (s : State) (numA numB : Nat) : State :=
  let c := max s.lookup.epA.cur s.lookup.epB.cur + 1
  let a : Epochs := { cur := c, origin := c, aliases := [numA, numB], nextOrder := s.lookup.epA.nextOrder }
  (({ s with lookup := { s.lookup with epA := a, epB := { base := 0x800 } } }).mapPkts fun k =>
    { k with part := 0, ep := c - 1 }).recountRefs

/-- Rooms when PARTITION goes ON (R204). -/
def State.roomsSplit (s : State) : State :=
  let sum := ((List.range 16).map fun p => (s.pool p).rooms).sum
  let s := (List.range 16).foldl (fun s i => s.updPool (16 + i) fun p => { p with rooms := if i = 0 then 0x0A000000 else 0 }) s
  s.updPool 0 fun p => { p with rooms := p.rooms - (sum - 0x0A000000) }

/-- Rings that a PARTITION transition disables: function, first index of each kind beyond what stays (R363). -/
def State.cutRings (s : State) (fn : Nat) (all : Bool) : State :=
  let cut := (List.range 208).filter fun r => all || ringBeyond r
  cut.foldl (fun s r =>
    if (s.ring fn r).st == .disabled then s
    else
      let s := s.updRing fn r fun g => { g with err := 6 }
      if r < 64 then s.ringAbort fn r else if r < 128 then s else s.ringOff fn r) s

/-- The command rings among them have stopped. -/
def State.ringsCut (s : State) (fn : Nat) (all : Bool) : Bool :=
  (List.range 64).all fun r => !(all || ringBeyond r) || (s.ring fn r).st == .disabled

/-- Their completion rings are disabled last. -/
def State.cutComps (s : State) (fn : Nat) (all : Bool) : State :=
  ((List.range 64).filter fun r => all || ringBeyond r).foldl (fun s r =>
    if (s.ring fn (compRing r)).st == .disabled then s else s.ringOff fn (compRing r)) s

/-! ### GATED (R45) -/

/-- Each gated port starts at the first cycle start that lies at least 10 µs after the word passed its checks. -/
def State.gatesStart (s : State) : State :=
  (s.tm.gates).foldl (fun s (p, _) => s.updGate p fun g => { g with startsAt := startAfter s.modes.passedAt g.cur }) s

/-! ### Transitions (R36, R39 to R47) -/

/-- A transition begins: STARTING. -/
def State.modeUp (s : State) (m : Mode) : State :=
  let s := if m = .gated then s.syncAllV else s
  let s := s.setModeSt m .starting
  match m with
  | .fabric => (modeLinks m).foldl State.fabLinesUp s
  | .direct => (modeLinks m).foldl State.fabLinesUp s
  | .twin => (modeLinks m).foldl State.fabLinesUp s
  | .gated => s.gatesStart
  | .cellar =>
    { s with inn := { s.inn with captureGib := min 64 (s.regF 0x01000008 0 7), flowEn := bit (s.reg 0x01000008) 7 } }
  | .partition => s.clearUpperSlots.epochsStart.cutRings 0 false
  | .transport => s

/-- A transition begins: QUIESCING. -/
def State.modeDown (s : State) (m : Mode) : State :=
  match m with
  | .gated => s.syncAllV.setModeSt m .quiescing
  | .transport => s.xptChange fun s => s.setModeSt m .quiescing
  | .partition =>
    let a := s.epochNum 0 s.lookup.epA.cur
    let b := s.epochNum 1 s.lookup.epB.cur
    ((s.setModeSt m .quiescing).clearUpperSlots.epochsJoin a b).cutRings 1 true
  | .fabric => (modeLinks m).foldl State.fabFlush (s.setModeSt m .quiescing)
  | .direct => (modeLinks m).foldl State.fabFlush (s.setModeSt m .quiescing)
  | .twin => (modeLinks m).foldl State.fabFlush (s.setModeSt m .quiescing)
  | .cellar =>
    let s := s.setModeSt m .quiescing
    { s with modes := { s.modes with pageDrain := s.tm.queues.any fun (_, q) => !q.cpages.isEmpty } }

/-- PROGRESS of the SET_MODE that owns the transition (R39, R151). -/
def State.showOwner (s : State) : State :=
  match s.modes.owner with
  | none => s
  | some (fn, n) => if s.waitOf fn n == some Wait.modeDone then s.showProgress fn n else s

/-- The transition at the head of the plan begins; PARTITION's waits for R151. -/
def State.modeBegin (s : State) : State :=
  match s.modes.plan with
  | [] => s
  | (.partition, _) :: _ => ({ s with modes := { s.modes with partWait := true } }).showOwner
  | (m, true) :: _ => (s.modeUp m).showOwner
  | (m, false) :: _ => (s.modeDown m).showOwner

/-! ### Words applied (R33 to R38) -/

/-- A word that has passed its checks is applied; `owner` is the ring of its SET_MODE. -/
def State.applyWord (s : State) (w : Nat) (owner : Option (Nat × Nat)) : State :=
  let plan := s.planOf w
  let s := s.takeWord w
  ({ s with modes := { s.modes with plan := plan, owner := owner, passedAt := s.follower } }).modeBegin

/-- MODE_APPLY's checks and effect: the split and the word in the registers (R33). -/
def State.modeApply (s : State) : State :=
  let w := s.reg 0x00100040
  let split := s.regF 0x0010004C 0 6
  let st := s.wordCheck w split false
  let s := s.lastStatus st
  if st ≠ stOk then s else
  ({ s with modes := { s.modes with applied := true, split := split } }).applyWord w none

/-- R33, R38: a write of 1 to MODE_APPLY.APPLY. -/
def execModeApply (dt : Nat) (fn : Fin 2) (value : Word32) (s : State) : Host.Outcome State Fault Refusal :=
  ans ((s.pass dt).sharedWrite fn 0x20044 fun s =>
    if !value.getLsbD 0 || s.applied then s
    else if !s.modes.plan.isEmpty then { s with modes := { s.modes with applyWait := true } }
    else s.modeApply)

def setModeBody (s : State) (c : Cmd) (x : Nat) : Out :=
  if c.fn = 1 then .fail s stProtected
  else if !s.modes.plan.isEmpty then .wait s (.modeTurn false x)
  else
    let st := if bits x 32 32 ≠ 0 then stBadArg else s.wordCheck (bits x 0 32) s.modes.split true
    if st = stOvercommit ∧ s.wordCheck (bits x 0 32) s.modes.split true false = stOk then .wait s .capacity else
    let s := s.lastStatus st
    if st ≠ stOk then .fail s st else
    let s := (s.setReg 0x00100040 (bits x 0 32)).applyWord (bits x 0 32) (some (c.fn, c.ring))
    if s.modes.plan.isEmpty then .ok { s with modes := { s.modes with owner := none } } else .wait s .modeDone

def setModeSpec : OpSpec :=
  { code := 0x0100, entryLen := fixedLen 8, critical := alwaysCritical, body := setModeBody }

/-- R35, R37. -/
def execSetMode (i : Issue) (s : State) : Host.Outcome State Fault Refusal := ans (s.runCommand setModeSpec i)

/-- The commands that wait for held capacity. -/
def capacitySpecs : List OpSpec :=
  [innQueueSetSpec, ledgerQueueSpec, schedNodeSpec, schedQueueSpec, gateSetSpec, setModeSpec]

/-- R262: now has reached F_0: the old rate of a reduction is free, and the commands that wait for capacity are checked again. -/
def execRateReductionRelease (dt : Nat) (q : Fin 1048576) (s : State) : Host.Outcome State Fault Refusal :=
  let s := s.pass dt
  let u := s.queue q
  let live := u.held.filter fun h => decide (s.follower < h.2)
  if live.length = u.held.length then ans s
  else
    let s := match s.queuePort q with | none => s | some p => s.syncV p
    ans ((s.updQueue q fun u => { u with held := live }).resumeWaits capacitySpecs fun w => w == .capacity)

def partAssignBody (s : State) (_c : Cmd) (x : Nat) : Out :=
  if bits x 6 58 ≠ 0 then .fail s stBadArg
  else if !s.modes.plan.isEmpty then .wait s (.modeTurn true x)
  else if (List.range 6).any fun g => (s.group g).st != .off then .fail s stBadArg
  else .ok ({ s with modes := { s.modes with split := bits x 0 6 } }.setReg 0x0010004C (bits x 0 6))

def partAssignSpec : OpSpec :=
  { code := 0x0101, entryLen := fixedLen 8, aOnly := true, critical := alwaysCritical, body := partAssignBody }

/-- R35. -/
def execPartAssign (i : Issue) (s : State) : Host.Outcome State Fault Refusal := ans (s.runCommand partAssignSpec i)

/-- The last transition of a word has ended: its SET_MODE completes, and what waits behind it is checked (R38). -/
def State.planDone (s : State) : State :=
  let owner := s.modes.owner
  let s := { s with modes := { s.modes with owner := none } }
  let s := match owner with
    | some (fn, n) => if s.waitOf fn n == some Wait.modeDone then s.endWait fn n stOk 0 0 [] else s
    | none => s
  let s := s.resumeWaits [setModeSpec, partAssignSpec] fun w => match w with | .modeTurn _ _ => true | _ => false
  if s.modes.applyWait && s.modes.plan.isEmpty then
    let s := { s with modes := { s.modes with applyWait := false } }
    if s.applied then s else s.modeApply
  else s

/-- The transition at the head of the plan has ended: the next one begins. -/
def State.modeNext (s : State) : State :=
  match s.modes.plan with
  | [] => s
  | _ :: t =>
    let s := { s with modes := { s.modes with plan := t } }
    if t.isEmpty then s.planDone else s.modeBegin

/-! ### States reached (R36) -/

/-- Every lane of a link group transmits (R39, R65). -/
def State.linkLit (s : State) (j : Nat) : Bool :=
  (s.lanesOf (48 + j)).all fun n => (s.lane n).st != .txOn

/-- The mode's own resources run (R39). -/
def State.modeReady (s : State) (m : Mode) : Bool :=
  match m with
  | .gated => s.tm.gates.all fun (_, g) => g.counted.isNone || decide (g.startsAt ≤ s.follower)
  | .partition => s.ringsCut 0 false
  | .transport => true
  | .cellar => true
  | .fabric => (modeLinks m).all s.linkLit
  | .direct => (modeLinks m).all s.linkLit
  | .twin => (modeLinks m).all s.linkLit

/-- A link group whose lanes are up enters CAP. -/
def State.linkLanesUpIf (s : State) (j : Nat) : State := if s.pcsUp (48 + j) then s.linkLanesUp j else s

/-- The mode is ON. Under the interlock its holder starts partition B's side effects with PARTITION (R53). -/
def State.modeOn (s : State) (m : Mode) : State :=
  match m with
  | .transport => s.xptChange fun s => s.setModeSt m .on
  | .partition =>
    let s := ((s.cutComps 0 false).setModeSt m .on).epochsSplit.roomsSplit
    let s := if s.isOn .cellar then s.divideCellar else s
    let s := { s with parse := { s.parse with activeB := s.parse.activeA } }
    if s.isOn .twin && s.lockRules && s.lockMine && s.twin.lockGain.isNone then s.lockStart 1 else s
  | .cellar =>
    let s := (s.setModeSt m .on).trimBins 0
    { s.divideCellar with tele := { s.tele with capture := [] } }
  | .twin => (((modeLinks m).foldl State.linkLanesUpIf (s.setModeSt m .on)).twinOn).noteTod
  | .gated => s.syncAllV.setModeSt m .on
  | .fabric => (modeLinks m).foldl State.linkLanesUpIf (s.setModeSt m .on)
  | .direct => (modeLinks m).foldl State.linkLanesUpIf (s.setModeSt m .on)

/-- R36: the mode reaches ON. -/
def execModeStartingDone (dt : Nat) (m : Mode) (s : State) : Host.Outcome State Fault Refusal :=
  let s := s.pass dt
  if (s.mode m).st == .starting && s.modes.plan.head? == some (m, true) && s.modeReady m then ans (s.modeOn m).modeNext else ans s

/-- The mode's work is drained (R36, R39). -/
def State.modeDrained (s : State) (m : Mode) : Bool :=
  match m with
  | .cellar => s.tm.queues.all fun (_, q) => q.cpages.isEmpty
  | .partition => s.ringsCut 1 true
  | _ =>
    (modeLinks m).all (fun j => (s.link j).sending.isNone) || decide ((s.mode m).since + 250 * cycUs ≤ s.cyc)

/-- The mode is OFF. -/
def State.modeOff (s : State) (m : Mode) : State :=
  let s := s.setModeSt m .off
  match m with
  | .fabric => (modeLinks m).foldl State.fabLinesDown s
  | .direct => (modeLinks m).foldl State.fabLinesDown s
  | .twin => (((modeLinks m).foldl State.fabLinesDown s).twinOff).noteTod
  | .cellar =>
    let s := s.trimBins 1
    { s with inn := { s.inn with spillRows := [], captureGib := 0, flowEn := false }
             tele := { s.tele with capture := [], flows := [], flowCache := [] }
             modes := { s.modes with pageDrain := false } }
  | .partition =>
    let s := (s.cutComps 1 true).updTwin fun t => { t with b := {} }
    if s.isOn .cellar then s.divideCellar else s
  | .gated => s
  | .transport => s

/-- R36: the mode reaches OFF. -/
def execModeQuiescingDone (dt : Nat) (m : Mode) (s : State) : Host.Outcome State Fault Refusal :=
  let s := s.pass dt
  if (s.mode m).st == .quiescing && s.modes.plan.head? == some (m, false) && s.modeDrained m then ans (s.modeOff m).modeNext
  else ans s

/-- R151: a PARTITION transition begins. -/
def execPartitionTransitionBegin (dt : Nat) (s : State) : Host.Outcome State Fault Refusal :=
  let s := s.pass dt
  match s.modes.plan with
  | (.partition, up) :: _ =>
    if s.modes.partWait && s.epochsSettled 0 && s.epochsSettled 1 then
      let s := ({ s with modes := { s.modes with partWait := false } }).showOwner
      if up then ans (s.modeUp .partition) else ans (s.modeDown .partition)
    else ans s
  | _ => ans s

end Sys2Proof.Machine
end

