-- ==== Sys2Proof/Machine/Registers.lean ====
section
/-! DEFINITION. Writes of setup registers through MW0 (R5 to R9, R450 to R453, and the write rules of the blocks' chapters). -/

namespace Sys2Proof.Machine

/-! ### Addresses (R450) -/

/-- Register address at an MW0 offset. -/
def addrOfOff (off : Nat) : Nat := off / 0x20000 * 0x100000 + off % 0x20000

/-- MW0 offset of a register address. -/
def offOfAddr (a : Nat) : Nat := a / 0x100000 * 0x20000 + a % 0x20000

/-- Block of a register address: its A[25:20]. -/
def blockOf (a : Nat) : Nat := a / 0x100000

/-- F-die blocks that do not answer while D2D_DOWN is raised (R453). -/
def fDieBlock (a : Nat) : Bool := [0x02, 0x04, 0x05, 0x08, 0x0A, 0x0C, 0x28].contains (blockOf a)

/-- Index and offset within the record of an address in an array of records. -/
def arrayIx (a base stride count : Nat) : Option (Nat × Nat) :=
  if a < base ∨ base + stride * count ≤ a then none else some ((a - base) / stride, (a - base) % stride)

/-! ### Owners (R48, R49) -/

/-- Line lane or port whose partition owns a register; none for a register of another kind. -/
def regPort (a : Nat) : Option Nat :=
  match arrayIx a 0x00200000 0x40 48 with
  | some (n, _) => some n
  | none => match arrayIx a 0x00201000 0x10 6 with
    | some (g, _) => some (8 * g)
    | none => match arrayIx a 0x00400000 0x20 48 with
      | some (p, _) => some p
      | none => match arrayIx a 0x00500000 0x10 48 with
        | some (n, _) => some n
        | none => match arrayIx a 0x00501000 0x10 6 with
          | some (g, _) => some (8 * g)
          | none => match arrayIx a 0x00504000 0x200 6 with
            | some (g, _) => some (8 * g)
            | none => match arrayIx a 0x00505000 0x100 6 with
              | some (g, _) => some (8 * g)
              | none => match arrayIx a 0x00506000 0x400 6 with
                | some (g, _) => some (8 * g)
                | none => match arrayIx a 0x00800000 0x10 48 with
                  | some (p, _) => some p
                  | none => match arrayIx a 0x00C00000 0x10 48 with
                    | some (p, _) => some p
                    | none => (arrayIx a 0x01C00100 4 48).map (·.1)

/-- The function may write the register: its own port's, mirror session's or memory channel's, its own view, or, from A, a shared
one. -/
def State.ownsReg (s : State) (fn a : Nat) : Bool :=
  !s.partOn ||
    match regPort a with
    | some p => s.portPart p == fn
    | none => match arrayIx a 0x00C01000 0x10 16 with
      | some (m, _) => s.halfPart 8 m == fn
      | none => match arrayIx a 0x02000000 0x20 8 with
        | some (c, _) => c / 4 == fn
        | none => fn == 0 || blockOf a == 0 || (arrayIx a 0x00C02000 4 16).isSome

/-! ### Write rules -/

/-- The lane group whose state guards the register: LANE_CFG, LANE_TXEQ and GROUP_CFG (R73), XPT_LINE, XPT_ALIGN, XPT_TRIB,
XPT_CLIENT and XPT_MEMBER (R95). -/
def guardedGroup (a : Nat) : Option Nat :=
  let lane := match arrayIx a 0x00200000 0x40 48 with
    | some (n, o) => if o = 0 ∨ o = 12 then some (n / 8) else none
    | none => none
  let cfg := match arrayIx a 0x00201000 0x10 6 with
    | some (g, o) => if o = 0 then some g else none
    | none => none
  let xpt := if (0x00500000 ≤ a ∧ a < 0x00502000 ∨ 0x00504000 ≤ a ∧ a < 0x00508000) ∧ (regRow a).isSome
    then (regPort a).map (· / 8) else none
  lane.orElse fun _ => cfg.orElse fun _ => xpt

/-- A write that the state of a mode or group discards (R33, R226, R245, R330, R358, R430). -/
def State.writeBarred (s : State) (a : Nat) : Bool :=
  let off (m : Mode) : Bool := (s.mode m).st == .off
  if a = 0x00100040 ∨ a = 0x0010004C then s.applied
  else if a = 0x02800040 ∨ a = 0x02800044 ∨ a = 0x02800048 then s.applied
  else if a = 0x01000008 ∨ a = 0x0300000C then !off .cellar
  else if a = 0x02C00000 ∨ a = 0x02C00004 ∨ a = 0x02C00008 then !off .twin
  else match arrayIx a 0x01C01100 0x10 26 with
    | some (j, o) => o == 0 && (s.lanesOf (48 + j)).any fun n => (s.lane n).st != .off
    | none => false

/-- MAC_CFG: MAX_FRAME is ignored while the group is not OFF; a change of PAUSE_POLICY acts on running pauses (R84, R86). -/
def State.writeMacCfg (s : State) (p : Nat) (v : BitVec 32) : State :=
  let a := 0x00400000 + 0x20 * p
  let old := s.reg a
  let live := (s.group (p / 8)).st != .off
  let v' := if live then BitVec.ofNat 32 (setBits v.toNat 0 14 old) else v
  let s := if live && bits v.toNat 0 14 != bits old 0 14 then s.cfgReject (p / 8) else s
  let s := s.storeReg a v'
  if bit old 17 != bit v'.toNat 17 then s.policyChange p else s

/-- FAB_CFG: while the FB lanes serve a mode, only IDLE_US and STALL_MS are taken (R245). -/
def State.writeFabCfg (s : State) (v : BitVec 32) : State :=
  let a := 0x01C01000
  if (s.mode .fabric).st == .off && (s.mode .direct).st == .off then s.storeReg a v
  else s.storeReg a (BitVec.ofNat 32 (setBits v.toNat 0 16 (s.reg a)))

/-- HIF registers of the function: FATAL_VEC (R389), event routes (R388), bases of disabled rings (R368). -/
def State.writeHif (s : State) (fn a : Nat) (v : BitVec 32) : State :=
  if a = 0x18 then s.updFunc fn fun p => { p with fatalVec := v.toNat % 256 }
  else match arrayIx a 0x400 4 64 with
    | some (b, _) => s.updFunc fn fun p => { p with evtRoute := p.evtRoute.put 0 b (v.toNat % 16) }
    | none => match arrayIx a 0x1000 0x20 208 with
      | some (r, o) =>
        if (s.ring fn r).st != .disabled then s
        else if o = 0 then s.updRing fn r fun g =>
          { g with base := BitVec.ofNat 64 (setBits g.base.toNat 0 32 (v.toNat / 4096 * 4096)) }
        else if o = 4 then s.updRing fn r fun g => { g with base := BitVec.ofNat 64 (setBits g.base.toNat 32 32 v.toNat) }
        else s
      | none => s

/-- The next state of a row. -/
def afterRow (o : Host.Outcome State Fault Refusal) (s : State) : State :=
  match o with
  | .next t => t
  | _ => s

/-- A write of a register that has a row of its own acts as that row. -/
def State.writeRow (s : State) (fn : Fin 2) (a : Nat) (v : Word32) : Option State :=
  if a = 0x10 then some (afterRow (execVersionOffer 0 fn v s) s)
  else if a = 0x20 then some (afterRow (execHifAbortGo 0 fn v s) s)
  else if a = 0x00100044 then some (afterRow (execModeApply 0 fn v s) s)
  else if a = 0x02800020 then some (afterRow (execTimeLatch 0 fn v s) s)
  else if a = 0x0280004C then some (afterRow (execTimeInitGo 0 fn v s) s)
  else match arrayIx a 0x1008 0x20 208 with
    | some (r, 0) => if h : r < 208 then
        some (afterRow (if v.getLsbD 0 then execRingEnable 0 fn ⟨r, h⟩ v s else execRingDisable 0 fn ⟨r, h⟩ v s) s)
      else none
    | _ => match arrayIx a 0x00200008 0x40 48 with
      | some (n, 0) => if h : n < 48 then some (afterRow (execPrbsPatternSet 0 fn ⟨n, h⟩ v s) s) else none
      | _ => match arrayIx a 0x00201004 0x10 6 with
        | some (g, 0) => if h : g < 6 then
            some (afterRow (if v.getLsbD 0 then execGroupEnable 0 fn ⟨g, h⟩ s else execGroupDisable 0 fn ⟨g, h⟩ s) s)
          else none
        | _ => match arrayIx a 0x01C0110C 0x10 26 with
          | some (j, 0) => if h : j < 26 then (if v.getLsbD 0 then some (afterRow (execReneg 0 fn ⟨j, h⟩ s) s) else some s) else none
          | _ => none

/-- A write of `v` to the register at `a` (R8). -/
def State.writeReg (s : State) (fn : Fin 2) (a : Nat) (v : Word32) : State :=
  match s.writeRow fn a v with
  | some t => t
  | none =>
    if (s.chip.d2dDown && fDieBlock a) || !s.ownsReg fn a || blockOf a == 0x38 || blockOf a == 0x3C then s
    else if blockOf a = 0 then s.writeHif fn a v
    else match guardedGroup a with
      | some g => if (s.group g).st == .off then s.storeReg a v else s.cfgReject g
      | none =>
        if s.writeBarred a then s
        else if a = 0x01C01000 then s.writeFabCfg v
        else match arrayIx a 0x00400000 0x20 48 with
          | some (p, 0) => s.writeMacCfg p v
          | _ => match arrayIx a 0x00C02000 4 16 with
            | some _ =>
              let a' := a + (if s.partOn then fn.val * 2 ^ 32 else 0)
              s.setReg a' v.toNat
            | none => s.storeReg a v

/-- One 32-bit write at MW0 offset `off`: a register that the function does not serve takes it as a bad access (R363). -/
def State.writeMw0 (s : State) (fn : Fin 2) (off : Nat) (v : Word32) : State :=
  if s.servesReg fn (addrOfOff off) then s.writeReg fn (addrOfOff off) v else s.badAccess fn off

/-- R5 to R9: a naturally aligned write of 32 bits, or of 64 as two writes, the lower address first. -/
def execRegisterWrite (dt : Nat) (fn : Fin 2) (off : Nat) (value : Word32) (hi : Option Word32) (s : State) :
    Host.Outcome State Fault Refusal :=
  let s := s.pass dt
  let size := if hi.isSome then 8 else 4
  if !s.hostUp then ans s
  else if off % size ≠ 0 ∨ 0x800000 ≤ off then ans (s.badAccess fn off)
  else
    let s := s.writeMw0 fn off value
    match hi with
    | none => ans s
    | some h => ans (s.writeMw0 fn (off + 4) h)

end Sys2Proof.Machine
end

