-- ==== Sys2Proof/Machine/RegRead.lean ====
section
/-! DEFINITION. What a read of a setup register returns, as PF0 reads it (R8, R450 to R460): the stored RW and W1C bits, and the RO
fields from the state. -/

namespace Sys2Proof.Machine

/-- A number clipped to a field of `w` bits. -/
def clip (w n : Nat) : Nat := min n (2 ^ w - 1)

/-- A signed number of nanoseconds, saturating, as a 32-bit field. -/
def sat32 (i : Int) : Nat := unsigned 32 (max (-2147483648) (min 2147483647 i))

/-- A temperature as an 8-bit field. -/
def temp8 (t : Int) : Nat := clip 8 t.toNat

/-! ### HIF (R365, R368, R388, R389, R415, R455) -/

/-- Numeric code of a ring's state (R368). -/
def RingSt.code : RingSt → Nat
  | .disabled => 0 | .running => 1 | .fenced => 2 | .stopping => 3

/-- A word of a ring record. -/
def Ring.word (g : Ring) (o : Nat) : Nat :=
  match o with
  | 0 => g.base.toNat % 2 ^ 32
  | 4 => g.base.toNat / 2 ^ 32
  | 8 => b2n (g.st != .disabled) + b2n g.intEn * 2 + g.log2 * 16 + g.bufCode * 4096 + g.vector * 2 ^ 16 + g.modUs * 2 ^ 24
  | 12 => g.st.code + g.err * 16
  | 16 => g.devIndex
  | 20 => g.hostIndex
  | 24 => g.progSeq + g.progStatus * 2 ^ 16 + g.progTick * 2 ^ 24
  | _ => 0

def State.readHif (s : State) (fn a : Nat) : Nat :=
  let p := s.func fn
  if a = 0 then fn + b2n s.partOn * 2
  else if a = 0x10 then p.offer
  else if a = 0x14 then p.chosen + s.supported * 256
  else if a = 0x18 then p.fatalVec
  else if a = 0x24 then b2n p.abortBusy.isSome + p.abortStatus * 256 + p.abortCount * 2 ^ 16
  else match arrayIx a 0x400 4 64 with
    | some (b, _) => p.evtRoute.get 0 b
    | none => match arrayIx a 0x800 4 64 with
      | some (n, _) =>
        let g := s.ring fn n
        g.fenceSeq + (if g.st == .fenced then g.fenceStatus else 0) * 2 ^ 16
      | none => match arrayIx a 0x1000 0x20 208 with
        | some (r, o) => (s.ring fn r).word o
        | none => 0

/-! ### CHIP, LANE, XPT, PARSE, LKP -/

/-- _OK bits of CHIP_CLK (R456). -/
def Chip.clkOk (c : Chip) : Nat := b2n c.sysOk + b2n c.pcieOk * 2 + b2n c.lnOk * 4 + b2n c.fbOk * 8

def Lane.status (l : Lane) : Nat :=
  l.st.code + b2n l.noPartner * 8 + b2n l.noLock * 16 + l.rate * 32 + l.typ * 256 + b2n l.prbsLock * 4096 + min 15 l.attempts * 2 ^ 16

/-- Epoch register of a partition (R175). -/
def State.epochReg (s : State) (p : Nat) : Nat :=
  if p = 1 ∧ !s.partOn then 0x08000800
  else s.epochNum p (s.epochs p).cur + s.epochNum p (s.epochs p).oldest * 2 ^ 16

/-- Live count of a partition. -/
def State.liveReg (s : State) (p : Nat) : Nat := if p = 1 ∧ !s.partOn then 1 else clip 12 ((s.epochs p).live (s.epochs p).cur)

/-! ### FAB, MEM -/

/-- Numeric code of a link state (R229). -/
def LinkSt.code : LinkSt → Nat
  | .down => 0 | .cap => 1 | .noCommon => 2 | .up => 3

def State.fabStatus (s : State) (j : Nat) : Nat :=
  let l := s.link j
  let low := ((s.lanesOf (48 + j)).map fun n => (s.lane n).st.code).foldl min 7
  l.st.code + l.version * 8 + b2n l.txIdle * 32 + b2n l.rxIdle * 64 + l.cause * 256 + low * 2 ^ 16 + capGroup l.word * 2 ^ 20

/-- Debt of a unit now, with what a crossing burst has not issued yet (R303, R308); the pace of a pseudo-channel's burst is not given. -/
def State.unitDebt (s : State) (u : Nat) : Nat :=
  let r := s.unit u
  let t := s.refreshCyc u
  r.debt + (r.burst - (if t = 0 then 0 else (s.cyc - r.burstAt) / t)) + r.burstDue

/-- Highest debt, 0 to 9, and the hot state of units. -/
def State.unitsDebt (s : State) (us : List Nat) : Nat :=
  min 9 ((us.map s.unitDebt).foldl max 0)
def State.unitsHot (s : State) (us : List Nat) : Bool := us.any fun u => (s.unit u).hot

def State.xmStatus (s : State) (c : Nat) : Nat :=
  let x := s.xm c
  let us := (List.range 4).map (4 * c + ·)
  let t := max (s.mem.temps.get 0 (4 + 2 * c)) (s.mem.temps.get 0 (5 + 2 * c))
  x.st + x.dimms * 8 + x.ranks * 32 + b2n (s.unitsHot us) * 128 + x.gib * 256 + s.unitsDebt us * 2 ^ 17 + x.cause * 2 ^ 21 + temp8 t * 2 ^ 24

def State.hbmStatus (s : State) (k : Nat) : Nat :=
  let us := (List.range 32).map (32 + 32 * k + ·)
  (s.stack k).st + b2n (s.unitsHot us) * 8 + s.unitsDebt us * 16 + temp8 (s.mem.temps.get 0 k) * 2 ^ 24

/-! ### TWIN, PERF, PWR, SEC, SMB -/

/-- The unit holds the partition's claim, or the lock (R358). -/
def State.twinActive (s : State) (p : Nat) : Bool :=
  s.isOn .twin && ((s.claim p).num != 0 || (s.lockRules && s.lockMine))

def State.twinStatus (s : State) : Nat :=
  let t := s.twin
  t.pair + b2n (s.twinActive 0) * 4 + b2n (s.partOn && s.twinActive 1) * 8 + b2n t.tw.up * 16 + b2n t.hb.up * 32 + b2n t.a.diverged * 64
    + b2n t.b.diverged * 128 + t.a.num * 256 + t.b.num * 2 ^ 16 + b2n t.grant * 2 ^ 24 + b2n t.lock * 2 ^ 25 + b2n t.arbClaim * 2 ^ 26

def Thermal.sensorFail (t : Thermal) : Bool := t.excluded.any (·.2)

/-- WARN_C as it acts (R447). -/
def State.warnC (s : State) : Int := (min 110 (max 60 (s.regF 0x03400000 0 8)) : Nat)

def State.thermStatus (s : State) : Nat :=
  let t := s.chip.thermal
  temp8 t.tempF + temp8 t.tempT * 256 + t.st * 2 ^ 16 + b2n (decide (s.warnC ≤ max t.tempF t.tempT)) * 2 ^ 18 + b2n t.sensorFail * 2 ^ 19

/-- The logic does not answer: SYSRST_N low, or SHUTDOWN (R459, R460). -/
def State.logicNa (s : State) : Bool := !s.chip.sysrst || s.chip.thermal.st == 2

def State.smbStatus (s : State) : Nat :=
  b2n s.host.linkUp + s.host.speed * 2 + s.host.width * 16 + b2n s.logicNa * 2 ^ 16

def State.secStatus (s : State) : Nat :=
  s.sec.fuseState + ((List.range 8).map fun k => if (s.slot k).key.isSome then 2 ^ (8 + k) else 0).sum
    + b2n s.sec.commitAuthA * 2 ^ 16 + b2n s.sec.commitAuthB * 2 ^ 17

/-- RO words at fixed addresses, as PF0 reads them. -/
def State.readFixed (s : State) (a : Nat) : Option Nat :=
  match a with
  | 0x00100000 => some (s.chip.stepping + 0x4880 * 2 ^ 16)
  | 0x00100004 => some (s.chip.clkOk + s.reg a)
  | 0x00100048 => some (if s.chip.thermal.st = 2 then s.chip.shutModes else s.modeStatus)
  | 0x00801004 => some (s.parse.activeA + (if s.partOn then s.parse.activeB else s.parse.activeA) * 2)
  | 0x00A00000 => some (s.epochReg 0)
  | 0x00A00004 => some (s.epochReg 1)
  | 0x00A00008 => some (s.liveReg 0 + s.liveReg 1 * 2 ^ 16)
  | 0x01000000 => some s.inn.roomsTotal
  | 0x01000004 => some s.pagesTotal
  | 0x02800014 => some (s.time.align + b2n (!s.time.steps.isEmpty) * 4)
  | 0x02800018 => some (sat32 s.time.ppsOffset)
  | 0x02800024 => some (secOf s.time.snap % 2 ^ 32)
  | 0x02800028 => some (secOf s.time.snap / 2 ^ 32 % 2 ^ 16)
  | 0x0280002C => some (nsOf s.time.snap)
  | 0x02800030 => some (fracOf s.time.snap)
  | 0x02C00010 => some s.twinStatus
  | 0x02C00014 => some (s.twin.a.peerClaim + s.twin.b.peerClaim * 256 + s.twin.peerHealth * 2 ^ 16)
  | 0x02C00018 => some (sat32 (s.twin.offset / qNs))
  | 0x02C0001C => some (s.twin.a.health + s.twin.b.health * 256)
  | 0x02C00020 => some (s.seqAligned % 2 ^ 32)
  | 0x02C00024 => some (s.seqAligned / 2 ^ 32)
  | 0x03000004 => some (s.tele.captureWritten.get 0 0)
  | 0x03000008 => some s.captureRecords
  | 0x03400004 => some s.thermStatus
  | 0x03800000 => some (Config.serial.toNat % 2 ^ 32)
  | 0x03800004 => some (Config.serial.toNat / 2 ^ 32)
  | 0x03800008 => some (s.sec.nonce.toNat % 2 ^ 32)
  | 0x0380000C => some (s.sec.nonce.toNat / 2 ^ 32)
  | 0x03800010 => some s.secStatus
  | 0x03C00000 => some s.smbStatus
  | _ => none

/-- RO words of arrays, as PF0 reads them; the stored word elsewhere. -/
def State.readArray (s : State) (a : Nat) : Nat :=
  match arrayIx a 0x00200004 0x40 48 with
  | some (n, 0) => (s.lane n).status
  | _ => match arrayIx a 0x00201008 0x10 6 with
    | some (g, 0) => (s.group g).st.code + s.reg a + b2n (!s.layoutOk g) * 512
    | _ => match arrayIx a 0x00501004 0x10 6 with
      | some (g, 0) => let e := s.xpt.mapErr.get 0 g; b2n (e != 0) + e * 2
      | _ => match arrayIx a 0x01C01104 0x10 26 with
        | some (j, 0) => s.fabStatus j
        | some (j, 4) => bits (s.link j).word 8 12 + b2n (bit (s.link j).word 23) * 4096
        | _ => match arrayIx a 0x02000004 0x20 8 with
          | some (c, 0) => s.xmStatus c
          | _ => match arrayIx a 0x02000104 0x20 4 with
            | some (k, 0) => s.hbmStatus k
            | _ => match arrayIx a 0x03800100 8 8 with
              | some (k, 0) => (s.slot k).last % 2 ^ 32
              | some (k, 4) => (s.slot k).last / 2 ^ 32
              | _ => s.reg a

/-- What a read of register address `a` returns to physical function `fn`: its own HIF block and, with PARTITION ON, its own copy of
ACT_PUNT_MAP (R200, R365, R455). -/
def State.readAs (s : State) (fn a : Nat) : BitVec 32 :=
  BitVec.ofNat 32
    (if s.chip.d2dDown && fDieBlock a then 2 ^ 32 - 1
     else if blockOf a = 0 then s.readHif fn a
     else if s.partOn && (arrayIx a 0x00C02000 4 16).isSome then s.reg (a + fn * 2 ^ 32)
     else (s.readFixed a).getD (s.readArray a))

/-- What a read of register address `a` returns to PF0 and to the sideband (R459). -/
def State.readReg (s : State) (a : Nat) : BitVec 32 := s.readAs 0 a

/-- What an aligned 32-bit read at MW0 offset `off` returns to a function (R6, R363, R450, R452). -/
def State.readMw0 (s : State) (fn off : Nat) : BitVec 32 :=
  if s.servesReg fn (addrOfOff off) then s.readAs fn (addrOfOff off) else BitVec.allOnes 32

end Sys2Proof.Machine
end

