-- ==== Sys2Proof/Machine/Chip.lean ====
section
/-! DEFINITION. Reference clocks (R457), thermal control (R443 to R446), the reset pins (R433 to R436) and the sideband (R434, R458,
R459, R461). -/

namespace Sys2Proof.Machine

/-! ### Clocks (R457) -/

/-- _LOST bits that a measurement sets. -/
def lostBits (old new : Nat) : Nat := ((List.range 4).map fun i => if bit old i && !bit new i then 2 ^ (8 + i) else 0).sum

/-- R457: one 10 µs measurement. -/
def execClockCheck (dt : Nat) (sys pcie ln fb : Bool) (s : State) : Host.Outcome State Fault Refusal :=
  let s := s.pass dt
  if s.cyc < s.chip.clkAt + 10 * cycUs ∨ !s.chip.porst then ans s else
  let old := s.chip.clkOk
  let s := { s with chip := { s.chip with
    clkAt := s.cyc, sysOk := sys, pcieOk := sys && pcie, lnOk := sys && ln, fbOk := sys && fb } }
  ans (s.orReg 0x00100004 (lostBits old s.chip.clkOk))

/-! ### Resets (R433 to R436, R440, R446) -/

/-- What no reset changes: the queue, the part itself, its fuses, a burn in progress, and the levels of its input pins. `n` counts resets, and the boot
nonce is drawn anew (R400). -/
def State.cleared (s : State) : State :=
  { pending := s.pending
    freeCtr := s.freeCtr
    chip := { stepping := s.chip.stepping, porst := s.chip.porst, sysrst := s.chip.sysrst, resets := s.chip.resets + 1 }
    sec := { kek := s.sec.kek, fuseState := s.sec.fuseState, nonce := Config.nonce (s.chip.resets + 1)
             kekData := if s.sec.fuseState = 1 then s.sec.kekData else [] }
    inn := { pools := resetPools }
    twin := { lock := s.twin.lock, grant := s.twin.grant } }

/-- SYSRST_N keeps the PWR block, the thermal sensors and the sideband (R435). -/
def State.sysCleared (s : State) : State :=
  let t := s.cleared
  { t with
    regs := s.regs.filter fun (a, _) => blockOf a == 0x34
    chip := { t.chip with
      thermal := { s.chip.thermal with hotAt := 0, readAt := 0 }, sbReady := s.chip.sbReady, sbAddr := s.chip.sbAddr
      sbStatus := s.chip.sbStatus, sbOut := s.chip.sbOut, shutModes := s.chip.shutModes } }

/-- Both reset pins are high: HBM training begins (R297, R435, R440). -/
def State.startUp (s : State) : State :=
  if s.chip.porst && s.chip.sysrst && s.chip.thermal.st != 2 then
    { s with mem := { s.mem with hbm := resetHbm }, chip := { s.chip with domains := resetDomains } }
  else s

/-- One lantern with GOING_DOWN while TWIN is ON (R347, R436). -/
def State.farewell (s : State) : State := if s.isOn .twin then s.lantern else s

/-- Everything stops without draining; the farewell lantern is the last output (R436). -/
def State.allStop (s : State) : State :=
  let t := s.farewell
  let u := t.sysCleared
  { u with twin := { u.twin with lastLantern := t.twin.lastLantern, lastTwhb := t.twin.lastTwhb } }

/-- R433: PORST_N falls: every output is low and every lane OFF. -/
def execPorstNAssert (dt : Nat) (s : State) : Host.Outcome State Fault Refusal :=
  let s := s.pass dt
  ans ({ s with chip := { s.chip with porst := false } }.cleared)

/-- R435: PORST_N rises: the state after a reset. -/
def execPorstNRelease (dt : Nat) (s : State) : Host.Outcome State Fault Refusal :=
  let s := s.pass dt
  if s.chip.porst then ans s
  else
    let t := s.cleared
    ans ({ t with chip := { t.chip with porst := true, resets := s.chip.resets }
                  sec := { t.sec with nonce := s.sec.nonce } }.startUp)

/-- R436: SYSRST_N falls; it has no effect while PORST_N is low and in SHUTDOWN (R435, R446). -/
def execSysrstNAssert (dt : Nat) (s : State) : Host.Outcome State Fault Refusal :=
  let s := s.pass dt
  let was := s.chip.sysrst
  let s := { s with chip := { s.chip with sysrst := false } }
  if !was || !s.chip.porst || s.chip.thermal.st = 2 then ans s
  else ans (s.allStop.orReg 0x03400008 2)

/-- R435: SYSRST_N rises. -/
def execSysrstNRelease (dt : Nat) (s : State) : Host.Outcome State Fault Refusal :=
  let s := s.pass dt
  let was := s.chip.sysrst
  let s := { s with chip := { s.chip with sysrst := true } }
  if was || !s.chip.porst || s.chip.thermal.st = 2 then ans s
  else
    let t := s.sysCleared
    ans ({ t with chip := { t.chip with resets := s.chip.resets }, sec := { t.sec with nonce := s.sec.nonce } }.startUp)

/-- R446: SHUTDOWN: as SYSRST_N, every domain OFF, the PCIe link down; the SMB block and MODE_STATUS stay readable. -/
def State.shutdown (s : State) : State :=
  let m := s.modeStatus
  let smb := s.regs.filter fun (a, _) => blockOf a == 0x3C
  let t := s.allStop
  { t with regs := t.regs ++ smb, chip := { t.chip with shutModes := m, thermal := { t.chip.thermal with st := 2 } } }

/-! ### Thermal control (R443 to R445) -/

/-- One sensor's reading: 3 consecutive ones out of range exclude it (R443). -/
def State.readSensor (s : State) (k : Nat) (r : Option Int) : State :=
  let t := s.chip.thermal
  if t.excluded.get false k then s else
  match r with
  | some _ => { s with chip := { s.chip with thermal := { t with bad := t.bad.put 0 k 0 } } }
  | none =>
    let n := t.bad.get 0 k + 1
    let s := { s with chip := { s.chip with thermal := { t with bad := t.bad.put 0 k n } } }
    if n < 3 then s
    else
      let t := s.chip.thermal
      ({ s with chip := { s.chip with thermal := { t with excluded := t.excluded.put false k true } } }).raise 0 evThermSensorFail k

/-- Readings of a die that count: of sensors in range and not excluded. -/
def Thermal.valid (t : Thermal) (die : Nat) (rs : List (Option Int)) : List Int :=
  (rs.zipIdx.filterMap fun (r, i) => if t.excluded.get false (16 * die + i) then none else r)

/-- Every sensor of a die is excluded. -/
def Thermal.blind (t : Thermal) (die : Nat) : Bool := (List.range 16).all fun i => t.excluded.get false (16 * die + i)

/-- Highest of some readings, or the last value. -/
def highest (l : List Int) (old : Int) : Int := match l with | [] => old | x :: t => t.foldl max x

def State.setThermal (s : State) (f : Thermal → Thermal) : State := { s with chip := { s.chip with thermal := f s.chip.thermal } }

/-- The ingress slices change their rate of slots (R445). -/
def State.syncIngress (s : State) : State := (List.range 4).foldl State.syncSlots s

/-- Enter THROTTLE (R444). -/
def State.throttle (s : State) (t : Int) : State :=
  ((s.syncIngress).setThermal fun x => { x with st := 1, hotAt := s.cyc }).raise 0 evThermThrottle 0 (temp8 t)

/-- THERM_WARN, once until the temperature has fallen 5 °C below WARN_C (R444). -/
def State.warnTemp (s : State) (t : Int) : State :=
  if s.warnC ≤ t then
    if s.chip.thermal.warned then s else (s.setThermal fun x => { x with warned := true }).raise 0 evThermWarn 0 (temp8 t)
  else if t < s.warnC - 5 then s.setThermal fun x => { x with warned := false } else s

/-- R443, R444: the sixteen sensors of each die are read; a die whose sensors give no valid reading keeps its last temperature. -/
def execThermalReading (dt : Nat) (f t : Vector (Option Int) 16) (s : State) : Host.Outcome State Fault Refusal :=
  let s := s.pass dt
  if s.chip.thermal.st = 2 ∨ !s.chip.porst ∨ s.cyc < s.chip.thermal.readAt + 100 * cycUs then ans s else
  let s := s.setThermal fun x => { x with readAt := s.cyc }
  let s := (f.toList ++ t.toList).zipIdx.foldl (fun s (r, k) => s.readSensor k r) s
  let s := s.setThermal fun x =>
    { x with tempF := highest (x.valid 0 f.toList) x.tempF, tempT := highest (x.valid 1 t.toList) x.tempT }
  let j := max s.chip.thermal.tempF s.chip.thermal.tempT
  let any := !(s.chip.thermal.valid 0 f.toList ++ s.chip.thermal.valid 1 t.toList).isEmpty
  let blind := s.chip.thermal.blind 0 || s.chip.thermal.blind 1
  let s := s.setThermal fun x => { x with stuck := x.stuck || blind }
  let s := if any then s.warnTemp j else s
  let s := if s.chip.thermal.st = 0 ∧ ((any && decide (100 ≤ j)) || blind) then s.throttle j else s
  let s := if any && decide (95 ≤ j) then s.setThermal fun x => { x with hotAt := s.cyc } else s
  if any && decide (115 ≤ j) then ans ((s.raise 0 evThermShutdown 0 (temp8 j)).shutdown) else ans s

/-- R444: 10 ms of readings below 95 °C return THROTTLE to NORMAL. -/
def execThrottleRelease (dt : Nat) (s : State) : Host.Outcome State Fault Refusal :=
  let s := s.pass dt
  let t := s.chip.thermal
  if t.st = 1 ∧ !t.stuck ∧ t.hotAt + 10 * cycMs ≤ s.cyc then
    ans (((s.syncIngress).setThermal fun x => { x with st := 0 }).raiseSt 0 evThermThrottle 0 (temp8 (max t.tempF t.tempT)) false)
  else ans s

/-! ### Sideband (R434, R458, R459, R461) -/

/-- R434: the sideband target begins to answer. -/
def execSidebandReady (dt : Nat) (s : State) : Host.Outcome State Fault Refusal :=
  let s := s.pass dt
  if s.chip.porst then ans { s with chip := { s.chip with sbReady := true } } else ans s

/-- The address breaks R450, or R6 would refuse its access. -/
def badAddr (a : Nat) : Bool := a % 4 != 0 || bits a 17 3 != 0 || bits a 26 6 != 0

/-- Registers that the sideband writes (R459). -/
def sbWritable (a : Nat) : Bool :=
  (arrayIx a 0x03800200 4 8).isSome || a == 0x03800220 || blockOf a == 0x34 || a == 0x03C00010 || a == 0x03C00004

/-- Registers that can be read whatever the device does (R459). -/
def sbAlways (a : Nat) : Bool :=
  a == 0x00100000 || a == 0x00100048 || a == 0x03800010 || blockOf a == 0x34 || blockOf a == 0x3C

/-- A write that R459 allows. -/
def State.sbWrite (s : State) (a : Nat) (v : Word32) : State :=
  match arrayIx a 0x03800200 4 8 with
  | some (i, _) =>
    if s.sec.fuseState = 0 then { s with sec := { s.sec with kekData := s.sec.kekData.put 0 i v } } else s
  | none =>
    if a = 0x03800220 then (if v.getLsbD 0 then afterRow (execKekBurn 0 s) s else s)
    else if a = 0x03C00010 && s.host.subsysTaken then s
    else if a = 0x03C00004 then (s.storeReg a v).relatch
    else s.storeReg a v

/-- R458: command 0xA0. -/
def execSmbRegisterWrite (dt : Nat) (addr value : Word32) (s : State) : Host.Outcome State Fault Refusal :=
  let s := s.pass dt
  if !s.chip.sbReady then ans s else
  let a := addr.toNat
  let st := if badAddr a then stBadArg else if sbWritable a then stOk else stProtected
  let s := if st = stOk then s.sbWrite a value else s
  ans { s with chip := { s.chip with sbStatus := some st } }

/-- R458: command 0xA1. -/
def execSmbSetReadAddress (dt : Nat) (addr : Word32) (s : State) : Host.Outcome State Fault Refusal :=
  let s := s.pass dt
  if !s.chip.sbReady then ans s else ans { s with chip := { s.chip with sbAddr := some addr } }

/-- Status and data of the last read address; the data beside BAD_ARG is open. -/
def State.sbResult (s : State) : Nat × BitVec 32 :=
  let open_ := BitVec.ofNat 32 (Config.openValue s.freeCtr)
  match s.chip.sbAddr with
  | none => (stBadArg, open_)
  | some addr =>
    let a := addr.toNat
    if badAddr a then (stBadArg, open_)
    else if !sbAlways a && (s.logicNa || (s.chip.d2dDown && fDieBlock a)) then (stTimeout, BitVec.allOnes 32)
    else (stOk, s.readReg a)

/-- R458: command 0xA2: the status of the write since the last one, if any, else that of the read. -/
def execSmbReadResult (dt : Nat) (s : State) : Host.Outcome State Fault Refusal :=
  let s := s.pass dt
  if !s.chip.sbReady then ans s else
  let r := s.sbResult
  let out := (s.chip.sbStatus.getD r.1, r.2)
  let s := s.drawn
  ans { s with chip := { s.chip with sbOut := out, sbStatus := none } }

end Sys2Proof.Machine
end

