-- ==== Sys2Proof/Machine/StepTime.lean ====
section
/-! DEFINITION. The activation of a STEP of device time (R313) and what it moves: Ledger horizons and bounds (R264), performance bins
(R114), gates and the open-time clock (R274, R289), PPS windows and PPS_OUT (R317, R320). -/

namespace Sys2Proof.Machine

/-- A device time moved by a STEP, never below 0. -/
def shiftQ (delta : Int) (q : Nat) : Nat := ((q : Int) + delta).toNat

/-- A queue's horizon, held F_0 values and bounds move with device time (R264). -/
def Queue.shift (q : Queue) (delta : Int) : Queue :=
  { q with
    horizon := shiftQ delta q.horizon
    held := q.held.map fun h => (h.1, shiftQ delta h.2)
    pkts := q.pkts.map fun k => { k with bound := k.bound.map (shiftQ delta) } }

def Rel.shift (r : Rel) (delta : Int) : Rel := { r with bound := r.bound.map (shiftQ delta) }

/-- Everything in the traffic manager that is kept in device time moves; V does not (R264, R274). Lists that run go on with the new
time (R289); one that GATED has not started yet starts as R45 says. -/
def State.shiftTm (s : State) (delta : Int) (old : Nat) : State :=
  let queues := s.tm.queues.foldl (fun m (n, q) => NMap.put m {} n (q.shift delta)) s.tm.queues
  let egress := s.tm.egress.foldl (fun m (p, e) => NMap.put m {} p
    { e with released := e.released.map (·.shift delta), edited := e.edited.map (·.shift delta)
             vDev := if e.vDev = old then s.follower else e.vDev }) s.tm.egress
  let passed := shiftQ delta s.modes.passedAt
  let gates := s.tm.gates.foldl (fun m (p, g) => NMap.put m {} p
    { g with startsAt := if g.startsAt ≤ old then 0 else startAfter passed g.cur
             pending := g.pending.map fun c => { c with passed := shiftQ delta c.passed, bound := shiftQ delta c.bound } }) s.tm.gates
  { s with modes := { s.modes with passedAt := passed }, tm := { s.tm with queues := queues, egress := egress, gates := gates } }

/-- R311: the check every 1 ms; an error above 2 ns raises TIME_FOLLOWER_ERR. V does not move with the follower (R274). -/
def execFollowerCheck (dt : Nat) (error : Int) (s : State) : Host.Outcome State Fault Refusal :=
  let s := s.pass dt
  if s.time.follAt ≠ 0 ∧ s.cyc < s.time.follAt + cycMs then ans s else
  let s := s.syncAllV
  let s := { s with time := { s.time with follErr := error, follAt := s.cyc } }
  let egress := s.tm.egress.foldl (fun m (p, e) => NMap.put m {} p { e with vDev := s.follower }) s.tm.egress
  let s := { s with tm := { s.tm with egress := egress } }
  if 131072 < error.natAbs then
    ans ({ s with time := { s.time with follSet := true } }.raise 0 evTimeFollowerErr (unsigned 32 error))
  else ans s

/-- Running pause and down intervals keep their length. -/
def State.shiftPorts (s : State) (delta : Int) : State :=
  { s with ports := s.ports.foldl (fun m (p, t) => NMap.put m {} p
      { t with honorFrom := t.honorFrom.map fun (k, q) => (k, shiftQ delta q)
               downAt := t.downAt.map fun d => (d.1, shiftQ delta d.2) }) s.ports }

/-- PPS windows and PPS_OUT go on from the new time: boundaries that the STEP skips or lands on have no window and no pulse. -/
def State.stepPps (s : State) (delta : Int) : State :=
  { s with time := { s.time with
      winDone := (s.now - s.ppsWindow * qNs) / qSec
      winCaptured := if delta.natAbs ≤ 2 * s.ppsWindow * qNs then s.time.winCaptured else none
      ppsOutSec := (s.ppsOutSecond s.now).toNat } }

/-- TIME_STEPPED (R313). -/
def State.raiseStepped (s : State) (cause : Nat) (delta : Int) (old : Nat) : State :=
  let a := delta.natAbs
  s.raise 0 evTimeStepped (b2n (decide (delta < 0)) + cause * 2)
    (secOf a % 2 ^ 48 + nsOf a * 2 ^ 48 + fracOf a * 2 ^ 80 + secOf old % 2 ^ 48 * 2 ^ 96 + nsOf old * 2 ^ 144 + fracOf old * 2 ^ 176)

/-- The master counter changes to `m` now, within its 48 bits of seconds (R11). -/
def State.applyStep (s : State) (cause m : Nat) : State :=
  let s := s.syncAllV.runSeconds
  let old := s.now
  let oldF := s.follower
  let delta : Int := ((m / 65536 : Nat) : Int) - old
  let s := { s with time := { s.time with
      master := m % masterMod, stepLog := ((old, delta) :: s.time.stepLog).take 17 } }
  ((((s.shiftTm delta oldF).shiftPorts delta).stepBins (decide (delta < 0)) (secOf old)).stepPps delta).raiseStepped cause delta old

/-- New master counter of a decided STEP: none when it would lie below 0 and the kind is refused then. -/
def State.stepTarget (s : State) (o : StepOp) : Option Nat :=
  match o.abs_ with
  | some q => some (q * 65536)
  | none =>
    let t : Int := (s.time.master : Int) + o.rel * 65536
    if 0 ≤ t then some t.toNat else if 3 ≤ o.cause then some 0 else none

/-- The TIME_ADJUST that owns a STEP completes (R315). -/
def State.stepOwner (s : State) (o : StepOp) (status : Nat) : State :=
  match o.owner with
  | none => s
  | some (fn, n) => if s.waitOf fn n = some .timeStep then s.endWait fn n status 0 0 [] else s

/-- R313: the oldest decided STEP takes effect. -/
def execStepActivation (dt : Nat) (s : State) : Host.Outcome State Fault Refusal :=
  let s := s.pass dt
  match s.time.steps with
  | [] => ans s
  | o :: rest =>
    if s.cyc < o.actAt then ans s else
    let t := s.stepTarget o
    let s := { s with time := { s.time with steps := rest } }
    match t with
    | some q => ans ((s.applyStep o.cause q).stepOwner o stOk)
    | none => ans (s.stepOwner o stBadArg)

end Sys2Proof.Machine
end

