-- ==== Sys2Proof/Machine/Dispatch.lean ====
section
/-! DEFINITION. One arm per command, each a direct call of its meaning. -/

namespace Sys2Proof.Machine

/-- The effect of a command on everything but the queue. -/
def exec (i : Instr) (s : State) : Host.Outcome State Fault Refusal :=
  match i with
  | .registerWrite dt fn off value hi => Sys2Proof.Machine.execRegisterWrite dt fn off value hi s
  | .mw0BadAccess dt fn off size write => Sys2Proof.Machine.execMw0BadAccess dt fn off size write s
  | .mw2BadWrite dt fn off size => Sys2Proof.Machine.execMw2BadWrite dt fn off size s
  | .versionOffer dt fn value => Sys2Proof.Machine.execVersionOffer dt fn value s
  | .functionLevelReset dt fn => Sys2Proof.Machine.execFunctionLevelReset dt fn s
  | .d3hotEntry dt fn => Sys2Proof.Machine.execD3hotEntry dt fn s
  | .busMasterDisable dt fn => Sys2Proof.Machine.execBusMasterDisable dt fn s
  | .ringEnable dt fn r value => Sys2Proof.Machine.execRingEnable dt fn r value s
  | .ringDisable dt fn r value => Sys2Proof.Machine.execRingDisable dt fn r value s
  | .commandRingStopped dt fn ring => Sys2Proof.Machine.execCommandRingStopped dt fn ring s
  | .commandDoorbell dt fn ring value entries => Sys2Proof.Machine.execCommandDoorbell dt fn ring value entries s
  | .completionDoorbell dt fn ring value => Sys2Proof.Machine.execCompletionDoorbell dt fn ring value s
  | .eventDoorbell dt fn ring value => Sys2Proof.Machine.execEventDoorbell dt fn ring value s
  | .puntDoorbell dt fn ring value entries => Sys2Proof.Machine.execPuntDoorbell dt fn ring value entries s
  | .injectDoorbell dt fn ring value entries => Sys2Proof.Machine.execInjectDoorbell dt fn ring value entries s
  | .interruptModerationExpiry dt fn r => Sys2Proof.Machine.execInterruptModerationExpiry dt fn r s
  | .progressReport dt fn ring => Sys2Proof.Machine.execProgressReport dt fn ring s
  | .hifAbortGo dt fn value => Sys2Proof.Machine.execHifAbortGo dt fn value s
  | .nop iss => Sys2Proof.Machine.execNop iss s
  | .abort iss => Sys2Proof.Machine.execAbort iss s
  | .abortComplete dt fn func index => Sys2Proof.Machine.execAbortComplete dt fn func index s
  | .fenceClear iss => Sys2Proof.Machine.execFenceClear iss s
  | .keyInstall iss => Sys2Proof.Machine.execKeyInstall iss s
  | .keyClear iss => Sys2Proof.Machine.execKeyClear iss s
  | .authPolicySet iss => Sys2Proof.Machine.execAuthPolicySet iss s
  | .fuseRead iss => Sys2Proof.Machine.execFuseRead iss s
  | .kekBurn dt => Sys2Proof.Machine.execKekBurn dt s
  | .fuseBurnDone dt verified => Sys2Proof.Machine.execFuseBurnDone dt verified s
  | .modeApply dt fn value => Sys2Proof.Machine.execModeApply dt fn value s
  | .setMode iss => Sys2Proof.Machine.execSetMode iss s
  | .partAssign iss => Sys2Proof.Machine.execPartAssign iss s
  | .modeStartingDone dt m => Sys2Proof.Machine.execModeStartingDone dt m s
  | .modeQuiescingDone dt m => Sys2Proof.Machine.execModeQuiescingDone dt m s
  | .partitionTransitionBegin dt => Sys2Proof.Machine.execPartitionTransitionBegin dt s
  | .macAddrSet iss => Sys2Proof.Machine.execMacAddrSet iss s
  | .macAddrRead iss => Sys2Proof.Machine.execMacAddrRead iss s
  | .xptOhSet iss => Sys2Proof.Machine.execXptOhSet iss s
  | .xptOhRead iss => Sys2Proof.Machine.execXptOhRead iss s
  | .pmRead iss => Sys2Proof.Machine.execPmRead iss s
  | .parseGraphWrite iss => Sys2Proof.Machine.execParseGraphWrite iss s
  | .parseGraphActivate iss => Sys2Proof.Machine.execParseGraphActivate iss s
  | .tableWrite iss => Sys2Proof.Machine.execTableWrite iss s
  | .tcamRowMove dt bank => Sys2Proof.Machine.execTcamRowMove dt bank s
  | .tableDelete iss => Sys2Proof.Machine.execTableDelete iss s
  | .tableRead iss => Sys2Proof.Machine.execTableRead iss s
  | .epochCommit iss => Sys2Proof.Machine.execEpochCommit iss s
  | .epochCommitResume dt fn ring => Sys2Proof.Machine.execEpochCommitResume dt fn ring s
  | .epochStall dt fn ring => Sys2Proof.Machine.execEpochStall dt fn ring s
  | .epochDiscard iss => Sys2Proof.Machine.execEpochDiscard iss s
  | .versionReclaim dt p => Sys2Proof.Machine.execVersionReclaim dt p s
  | .tcamBankFormat iss => Sys2Proof.Machine.execTcamBankFormat iss s
  | .tcamScrub dt bank row corrupt => Sys2Proof.Machine.execTcamScrub dt bank row corrupt s
  | .mcastGroupWrite iss => Sys2Proof.Machine.execMcastGroupWrite iss s
  | .mcastGroupRead iss => Sys2Proof.Machine.execMcastGroupRead iss s
  | .mcastMembersWrite iss => Sys2Proof.Machine.execMcastMembersWrite iss s
  | .mcastEsetWrite iss => Sys2Proof.Machine.execMcastEsetWrite iss s
  | .innPoolSet iss => Sys2Proof.Machine.execInnPoolSet iss s
  | .innQueueSet iss => Sys2Proof.Machine.execInnQueueSet iss s
  | .innAudit iss => Sys2Proof.Machine.execInnAudit iss s
  | .innAuditDone dt fn ring => Sys2Proof.Machine.execInnAuditDone dt fn ring s
  | .ledgerClassSet iss => Sys2Proof.Machine.execLedgerClassSet iss s
  | .ledgerPortSet iss => Sys2Proof.Machine.execLedgerPortSet iss s
  | .ledgerQueueSet iss => Sys2Proof.Machine.execLedgerQueueSet iss s
  | .rateReductionRelease dt q => Sys2Proof.Machine.execRateReductionRelease dt q s
  | .ledgerQueueRead iss => Sys2Proof.Machine.execLedgerQueueRead iss s
  | .schedNodeSet iss => Sys2Proof.Machine.execSchedNodeSet iss s
  | .schedQueueSet iss => Sys2Proof.Machine.execSchedQueueSet iss s
  | .policerSet iss => Sys2Proof.Machine.execPolicerSet iss s
  | .gateListSet iss => Sys2Proof.Machine.execGateListSet iss s
  | .gateListStart dt port => Sys2Proof.Machine.execGateListStart dt port s
  | .gateEntryBoundary dt port => Sys2Proof.Machine.execGateEntryBoundary dt port s
  | .fabReachWrite iss => Sys2Proof.Machine.execFabReachWrite iss s
  | .twinClaim iss => Sys2Proof.Machine.execTwinClaim iss s
  | .twinRelease iss => Sys2Proof.Machine.execTwinRelease iss s
  | .twinFwdSet iss => Sys2Proof.Machine.execTwinFwdSet iss s
  | .twinDigestRead iss => Sys2Proof.Machine.execTwinDigestRead iss s
  | .nwLoad iss => Sys2Proof.Machine.execNwLoad iss s
  | .memTrain iss => Sys2Proof.Machine.execMemTrain iss s
  | .memTrainDone dt fn ring margin => Sys2Proof.Machine.execMemTrainDone dt fn ring margin s
  | .timeAdjust iss => Sys2Proof.Machine.execTimeAdjust iss s
  | .tsRead iss => Sys2Proof.Machine.execTsRead iss s
  | .counterRead iss => Sys2Proof.Machine.execCounterRead iss s
  | .counterReadClear iss => Sys2Proof.Machine.execCounterReadClear iss s
  | .counterWrite iss => Sys2Proof.Machine.execCounterWrite iss s
  | .counterSetCfg iss => Sys2Proof.Machine.execCounterSetCfg iss s
  | .perfCfg iss => Sys2Proof.Machine.execPerfCfg iss s
  | .powerDomainOn iss => Sys2Proof.Machine.execPowerDomainOn iss s
  | .powerDomainOff iss => Sys2Proof.Machine.execPowerDomainOff iss s
  | .powerStatusRead iss => Sys2Proof.Machine.execPowerStatusRead iss s
  | .domainStartingDone dt d => Sys2Proof.Machine.execDomainStartingDone dt d s
  | .domainQuiescingDone dt d => Sys2Proof.Machine.execDomainQuiescingDone dt d s
  | .domainDrainTimeout dt d => Sys2Proof.Machine.execDomainDrainTimeout dt d s
  | .groupEnable dt fn g => Sys2Proof.Machine.execGroupEnable dt fn g s
  | .groupDisable dt fn g => Sys2Proof.Machine.execGroupDisable dt fn g s
  | .groupStartingDone dt g => Sys2Proof.Machine.execGroupStartingDone dt g s
  | .groupQuiescingDone dt g => Sys2Proof.Machine.execGroupQuiescingDone dt g s
  | .laneTxSettled dt lane => Sys2Proof.Machine.execLaneTxSettled dt lane s
  | .signalQualified dt lane => Sys2Proof.Machine.execSignalQualified dt lane s
  | .laneAdapted dt lane => Sys2Proof.Machine.execLaneAdapted dt lane s
  | .pcsAligned dt port => Sys2Proof.Machine.execPcsAligned dt port s
  | .lossOfSignal dt lane => Sys2Proof.Machine.execLossOfSignal dt lane s
  | .lossOfLock dt lane => Sys2Proof.Machine.execLossOfLock dt lane s
  | .pcsAlignmentLost dt port => Sys2Proof.Machine.execPcsAlignmentLost dt port s
  | .highSer dt port => Sys2Proof.Machine.execHighSer dt port s
  | .lockTimeout dt port => Sys2Proof.Machine.execLockTimeout dt port s
  | .retryInterval dt port => Sys2Proof.Machine.execRetryInterval dt port s
  | .prbsPatternSet dt fn lane value => Sys2Proof.Machine.execPrbsPatternSet dt fn lane value s
  | .prbsCheckerLock dt lane => Sys2Proof.Machine.execPrbsCheckerLock dt lane s
  | .prbsLockLost dt lane errors => Sys2Proof.Machine.execPrbsLockLost dt lane errors s
  | .frameReceived dt port data err => Sys2Proof.Machine.execFrameReceived dt port data err s
  | .pauseResend dt port => Sys2Proof.Machine.execPauseResend dt port s
  | .pauseReceived dt port quanta => Sys2Proof.Machine.execPauseReceived dt port quanta s
  | .pfcReceived dt port enable quanta => Sys2Proof.Machine.execPfcReceived dt port enable quanta s
  | .pauseExpiry dt port cls => Sys2Proof.Machine.execPauseExpiry dt port cls s
  | .ledgerExtendedInterim dt port => Sys2Proof.Machine.execLedgerExtendedInterim dt port s
  | .stagingToLanding dt slice => Sys2Proof.Machine.execStagingToLanding dt slice s
  | .d2dFlitCrcFail dt sameFlit => Sys2Proof.Machine.execD2dFlitCrcFail dt sameFlit s
  | .switchCellTime dt => Sys2Proof.Machine.execSwitchCellTime dt s
  | .caravanFirstStage dt => Sys2Proof.Machine.execCaravanFirstStage dt s
  | .fabricCellTransmit dt j => Sys2Proof.Machine.execFabricCellTransmit dt j s
  | .dataCellReceived dt j cell err => Sys2Proof.Machine.execDataCellReceived dt j cell err s
  | .reassemblyTimeout dt j src => Sys2Proof.Machine.execReassemblyTimeout dt j src s
  | .capCellReceived dt j word => Sys2Proof.Machine.execCapCellReceived dt j word s
  | .capCellSend dt j => Sys2Proof.Machine.execCapCellSend dt j s
  | .reneg dt fn j => Sys2Proof.Machine.execReneg dt fn j s
  | .creditSyncSend dt j => Sys2Proof.Machine.execCreditSyncSend dt j s
  | .creditSyncReceived dt j sentUnits returnedUnits => Sys2Proof.Machine.execCreditSyncReceived dt j sentUnits returnedUnits s
  | .fabCreditStall dt j => Sys2Proof.Machine.execFabCreditStall dt j s
  | .keepaliveSend dt j => Sys2Proof.Machine.execKeepaliveSend dt j s
  | .receiveTimeout dt j => Sys2Proof.Machine.execReceiveTimeout dt j s
  | .idleEnter dt j => Sys2Proof.Machine.execIdleEnter dt j s
  | .idleEnterReceived dt j => Sys2Proof.Machine.execIdleEnterReceived dt j s
  | .idleExit dt j => Sys2Proof.Machine.execIdleExit dt j s
  | .idleExitTimeout dt j => Sys2Proof.Machine.execIdleExitTimeout dt j s
  | .ledgerAdmission dt w => Sys2Proof.Machine.execLedgerAdmission dt w s
  | .caravanSecondStage dt => Sys2Proof.Machine.execCaravanSecondStage dt s
  | .cellarSpill dt spill => Sys2Proof.Machine.execCellarSpill dt spill s
  | .pullBack dt q out => Sys2Proof.Machine.execPullBack dt q out s
  | .releaseOpportunity dt port out => Sys2Proof.Machine.execReleaseOpportunity dt port out s
  | .egressEdit dt port outs => Sys2Proof.Machine.execEgressEdit dt port outs s
  | .macTransmit dt port => Sys2Proof.Machine.execMacTransmit dt port s
  | .downFlush dt port => Sys2Proof.Machine.execDownFlush dt port s
  | .ageDiscard dt q => Sys2Proof.Machine.execAgeDiscard dt q s
  | .puntReservation dt fn ring => Sys2Proof.Machine.execPuntReservation dt fn ring s
  | .injectFrameRead dt fn ring data => Sys2Proof.Machine.execInjectFrameRead dt fn ring data s
  | .hbmTrainingDone dt stack ok => Sys2Proof.Machine.execHbmTrainingDone dt stack ok s
  | .dimmProbeDone dt c dimms ranks gib conforms readable dense => Sys2Proof.Machine.execDimmProbeDone dt c dimms ranks gib conforms readable dense s
  | .retrainingPause dt ch => Sys2Proof.Machine.execRetrainingPause dt ch s
  | .retrainingPauseEnd dt ch lowMargin => Sys2Proof.Machine.execRetrainingPauseEnd dt ch lowMargin s
  | .refreshDue dt u => Sys2Proof.Machine.execRefreshDue dt u s
  | .refreshIssue dt u => Sys2Proof.Machine.execRefreshIssue dt u s
  | .temperatureReading dt sensor celsius => Sys2Proof.Machine.execTemperatureReading dt sensor celsius s
  | .refreshBurstEnd dt u => Sys2Proof.Machine.execRefreshBurstEnd dt u s
  | .powerDownEntry dt u => Sys2Proof.Machine.execPowerDownEntry dt u s
  | .memScrubRead dt u addr structure_ outcome => Sys2Proof.Machine.execMemScrubRead dt u addr structure_ outcome s
  | .followerCheck dt error => Sys2Proof.Machine.execFollowerCheck dt error s
  | .stepActivation dt => Sys2Proof.Machine.execStepActivation dt s
  | .slewEnd dt => Sys2Proof.Machine.execSlewEnd dt s
  | .ppsInEdge dt falling => Sys2Proof.Machine.execPpsInEdge dt falling s
  | .ppsCorrectionDecision dt => Sys2Proof.Machine.execPpsCorrectionDecision dt s
  | .ppsWindowEnd dt => Sys2Proof.Machine.execPpsWindowEnd dt s
  | .holdoverExpiry dt => Sys2Proof.Machine.execHoldoverExpiry dt s
  | .ppsOutPulse dt => Sys2Proof.Machine.execPpsOutPulse dt s
  | .ppsOutPulseEnd dt => Sys2Proof.Machine.execPpsOutPulseEnd dt s
  | .timeLatch dt fn value => Sys2Proof.Machine.execTimeLatch dt fn value s
  | .timeInitGo dt fn value => Sys2Proof.Machine.execTimeInitGo dt fn value s
  | .pmSecond dt => Sys2Proof.Machine.execPmSecond dt s
  | .pmBinStart dt => Sys2Proof.Machine.execPmBinStart dt s
  | .pmBinClosed dt g day => Sys2Proof.Machine.execPmBinClosed dt g day s
  | .frameAlignCheck dt level hits => Sys2Proof.Machine.execFrameAlignCheck dt level hits s
  | .lofDeclare dt level => Sys2Proof.Machine.execLofDeclare dt level s
  | .lofClear dt level => Sys2Proof.Machine.execLofClear dt level s
  | .transportFrameReceived dt f => Sys2Proof.Machine.execTransportFrameReceived dt f s
  | .transportFrameSend dt g layer index => Sys2Proof.Machine.execTransportFrameSend dt g layer index s
  | .lanternSend dt => Sys2Proof.Machine.execLanternSend dt s
  | .lanternReceived dt hb word => Sys2Proof.Machine.execLanternReceived dt hb word s
  | .pathLost dt hb => Sys2Proof.Machine.execPathLost dt hb s
  | .twinPairReform dt => Sys2Proof.Machine.execTwinPairReform dt s
  | .claimWaitEnd dt p => Sys2Proof.Machine.execClaimWaitEnd dt p s
  | .twinLockLevelChange dt level => Sys2Proof.Machine.execTwinLockLevelChange dt level s
  | .lockGainStart dt => Sys2Proof.Machine.execLockGainStart dt s
  | .arbGrantDeassert dt => Sys2Proof.Machine.execArbGrantDeassert dt s
  | .arbGrantAssert dt => Sys2Proof.Machine.execArbGrantAssert dt s
  | .syncSend dt => Sys2Proof.Machine.execSyncSend dt s
  | .syncReceived dt msg => Sys2Proof.Machine.execSyncReceived dt msg s
  | .divergeTimeout dt p => Sys2Proof.Machine.execDivergeTimeout dt p s
  | .seqSampleSend dt port => Sys2Proof.Machine.execSeqSampleSend dt port s
  | .seqSampleReceived dt port len fcs seq => Sys2Proof.Machine.execSeqSampleReceived dt port len fcs seq s
  | .seqSampleDecide dt port => Sys2Proof.Machine.execSeqSampleDecide dt port s
  | .dedupWindowAge dt pairId inPort p => Sys2Proof.Machine.execDedupWindowAge dt pairId inPort p s
  | .nightWatch dt p pathOk => Sys2Proof.Machine.execNightWatch dt p pathOk s
  | .accumulatorFlush dt set inst item outs => Sys2Proof.Machine.execAccumulatorFlush dt set inst item outs s
  | .perfSample dt slice ctr skid cat pp => Sys2Proof.Machine.execPerfSample dt slice ctr skid cat pp s
  | .flowCacheWriteback dt index evict => Sys2Proof.Machine.execFlowCacheWriteback dt index evict s
  | .clockCheck dt sys pcie ln fb => Sys2Proof.Machine.execClockCheck dt sys pcie ln fb s
  | .thermalReading dt f t => Sys2Proof.Machine.execThermalReading dt f t s
  | .throttleRelease dt => Sys2Proof.Machine.execThrottleRelease dt s
  | .porstNAssert dt => Sys2Proof.Machine.execPorstNAssert dt s
  | .porstNRelease dt => Sys2Proof.Machine.execPorstNRelease dt s
  | .sysrstNAssert dt => Sys2Proof.Machine.execSysrstNAssert dt s
  | .sysrstNRelease dt => Sys2Proof.Machine.execSysrstNRelease dt s
  | .smbRegisterWrite dt addr value => Sys2Proof.Machine.execSmbRegisterWrite dt addr value s
  | .smbSetReadAddress dt addr => Sys2Proof.Machine.execSmbSetReadAddress dt addr s
  | .smbReadResult dt => Sys2Proof.Machine.execSmbReadResult dt s
  | .remoteFaultReceived dt port fault => Sys2Proof.Machine.execRemoteFaultReceived dt port fault s
  | .idleOrCreditCellReceived dt j kind units => Sys2Proof.Machine.execIdleOrCreditCellReceived dt j kind units s
  | .busMasterEnable dt fn => Sys2Proof.Machine.execBusMasterEnable dt fn s
  | .configurationRequest dt fn => Sys2Proof.Machine.execConfigurationRequest dt fn s
  | .pcieLinkTrained dt speed width => Sys2Proof.Machine.execPcieLinkTrained dt speed width s
  | .pcieLinkDown dt => Sys2Proof.Machine.execPcieLinkDown dt s
  | .msixTableWrite dt fn off value => Sys2Proof.Machine.execMsixTableWrite dt fn off value s
  | .sideEffectsStopped dt p => Sys2Proof.Machine.execSideEffectsStopped dt p s
  | .followerErrorCleared dt => Sys2Proof.Machine.execFollowerErrorCleared dt s
  | .sidebandReady dt => Sys2Proof.Machine.execSidebandReady dt s

end Sys2Proof.Machine
end

