-- ==== Sys2Proof/Safety.lean ====
section
/-! DEFINITION. The terms in which claims about the block speak: when the head descriptor of a command ring is carried out (R374),
what its completion leaves, which state codes are legal, and the commands that a host may send only in the right form. -/

namespace Sys2Proof.Machine

/-! ### A command ring's head descriptor (R374) -/

/-- The state after steps 1 and 2 of R374: the time has passed, the descriptor has left the ring and its SEQ is accepted. -/
def State.taken (s : State) (i : Issue) (d : Desc) (rest : List Desc) : State :=
  ((s.pass i.dt).updRing i.fn i.ring fun g =>
    { g with fetched := rest, devIndex := (g.devIndex + (if d.auth then 2 else 1)) % 2 ^ 32 }).updRing i.fn i.ring fun g =>
    { g with lastSeq := some d.seq, accepted := g.accepted + 1, progSeq := d.seq }

/-- The command as its own execution sees it. -/
def State.cmdOf (s : State) (i : Issue) (d : Desc) : Cmd :=
  { fn := i.fn, ring := i.ring, part := s.partOf i.fn, desc := d, seq := d.seq, keySlot := d.keySlot, counter := d.counter }

/-- Steps 1 to 6 of R374 let the single-entry command at the head of the ring reach its own execution: `d` stands at the head
with `rest` behind it, `x` is its payload, `t` the state that its execution starts from, `au` and `slot` what step 5 found. -/
structure Accepts (sp : OpSpec) (i : Issue) (s : State) (d : Desc) (rest : List Desc) (x : Nat) (t : State) (au : Bool)
    (slot : Option (Nat × Nat × Nat)) : Prop where
  head : (s.ring i.fn i.ring).fetched = d :: rest
  code : d.opcode = sp.code
  ready : (s.pass i.dt).canBegin i.fn i.ring = true
  inOrder : (s.ring i.fn i.ring).seqCheck d.seq = .accept
  unfenced : ((s.ring i.fn i.ring).st == .fenced && d.ordered && !neverSkipped d.opcode) = false
  format : d.formatOk = true
  single : d.count ≤ 1
  reply : (sp.reads || d.respAddr == 0) = true
  payload : d.payload i.payload = some x
  whole : sp.split (s.taken i d rest) 1 d.payloadLen x = some [x]
  version : versionOk (s.func i.fn).chosen i.fn (sp.critical (s.taken i d rest) (s.partOf i.fn)) d.auth = true
  auth : (s.taken i d rest).authenticate i.fn i.ring d x (sp.critical (s.taken i d rest) (s.partOf i.fn)) sp.underIk
    = .pass t au slot
  device : (sp.aOnly && (i.fn : Nat) == 1) = false
  room : sp.respLen t (s.cmdOf i d) x ≤ d.respLen

/-- The command's record while it runs. -/
def runOf (d : Desc) (x : Nat) (au : Bool) (slot : Option (Nat × Nat × Nat)) : Running :=
  { desc := d, seq := d.seq, wait := .audit, payloadLen := d.payloadLen, authed := au, slot := slot, payload := x }

/-- The command is over: its completion entry and the ring's memory of it (R375, R379), a fence where R406 asks for one, and the
descriptors of unknown opcode behind it. -/
def State.completes (s : State) (i : Issue) (d : Desc) (x : Nat) (au : Bool) (slot : Option (Nat × Nat × Nat))
    (status detail result : Nat) (resp : List Byte) : State :=
  (s.finish i.fn i.ring (runOf d x au slot) status detail result resp).settle i.fn i.ring

/-- The command waits. -/
def State.waits (s : State) (i : Issue) (d : Desc) (x : Nat) (au : Bool) (slot : Option (Nat × Nat × Nat)) (w : Wait) : State :=
  (s.updRing i.fn i.ring fun g =>
    { g with running := some { runOf d x au slot with wait := w }
             progStatus := s.progressOf w }).settle i.fn i.ring

/-- A command that steps 1 to 6 of R374 have let through: its row's operands, the state before the row, and what `Accepts` says
of them. -/
structure Accepted (sp : OpSpec) where
  i : Issue
  s : State
  d : Desc
  rest : List Desc
  x : Nat
  t : State
  au : Bool
  slot : Option (Nat × Nat × Nat)
  ok : Accepts sp i s d rest x t au slot

/-- The partition as which it acts. -/
def Accepted.part {sp : OpSpec} (a : Accepted sp) : Nat := a.s.partOf a.i.fn

/-- It completes from the state `u`. -/
def Accepted.ends {sp : OpSpec} (a : Accepted sp) (u : State) (status result : Nat) (resp : List Byte) : State :=
  u.completes a.i a.d a.x a.au a.slot status 0 result resp

/-- It comes to wait from the state `u`. -/
def Accepted.waits {sp : OpSpec} (a : Accepted sp) (u : State) (w : Wait) : State := u.waits a.i a.d a.x a.au a.slot w

/-- What follows from the outcome of its own execution: it completes, or comes to wait. -/
def Accepted.does {sp : OpSpec} (a : Accepted sp) : Out → State
  | .done u status detail result resp => u.completes a.i a.d a.x a.au a.slot status detail result resp
  | .wait u w => a.waits u w

/-- The descriptor leaves the ring, whatever becomes of it. -/
def State.offRing (s : State) (i : Issue) (d : Desc) (rest : List Desc) : State :=
  (s.pass i.dt).updRing i.fn i.ring fun g =>
    { g with fetched := rest, devIndex := (g.devIndex + (if d.auth then 2 else 1)) % 2 ^ 32 }

/-- The row of `d`'s opcode draws the head descriptor `d` of a ring that may begin a command (R374, R379). -/
structure Draws (sp : OpSpec) (i : Issue) (s : State) (d : Desc) (rest : List Desc) : Prop where
  head : (s.ring i.fn i.ring).fetched = d :: rest
  code : d.opcode = sp.code
  ready : (s.pass i.dt).canBegin i.fn i.ring = true

/-- And steps 1 and 2 of R374 let it pass. -/
structure Begins (sp : OpSpec) (i : Issue) (s : State) (d : Desc) (rest : List Desc) : Prop extends Draws sp i s d rest where
  inOrder : (s.ring i.fn i.ring).seqCheck d.seq = .accept
  unfenced : ((s.ring i.fn i.ring).st == .fenced && d.ordered && !neverSkipped d.opcode) = false

/-- Step 3 of R374, but for the payload's length: COUNT as version `v` and the opcode allow, and a response only from a command that
has one. -/
def OpSpec.inForm (sp : OpSpec) (v : Nat) (d : Desc) : Bool :=
  d.formatOk && (d.count ≤ 1 || (sp.batch && decide (3 ≤ v) && decide (d.count ≤ 256))) && (sp.reads || d.respAddr == 0)

/-- The command completes without having been executed. -/
def State.turnsAway (s : State) (i : Issue) (d : Desc) (au : Bool) (status result : Nat) : State :=
  (s.finish i.fn i.ring { desc := d, seq := d.seq, wait := .audit, payloadLen := d.payloadLen, authed := au } status 0 result
    []).settle i.fn i.ring

/-- Entries of a batch that all succeed: the state that they leave and their responses (R377). -/
def OpSpec.allDone (sp : OpSpec) (c : Cmd) (s : State) : List Nat → Option (State × List Byte)
  | [] => some (s, [])
  | x :: xs =>
    match sp.body s c x with
    | .done t status _ _ r =>
      if status = stOk then (sp.allDone c t xs).map fun u => (u.1, r ++ u.2) else none
    | .wait _ _ => none

/-- The rows that issue the opcodes of R382, with what that rule says of each. -/
def ringRows : List ((Issue → Instr) × OpSpec) :=
  [(.nop, nopSpec), (.abort, abortSpec), (.fenceClear, fenceClearSpec), (.keyInstall, keyInstallSpec), (.keyClear, keyClearSpec),
    (.authPolicySet, authPolicySpec), (.fuseRead, fuseReadSpec), (.setMode, setModeSpec), (.partAssign, partAssignSpec),
    (.macAddrSet, macAddrSetSpec), (.macAddrRead, macAddrReadSpec), (.xptOhSet, xptOhSetSpec), (.xptOhRead, xptOhReadSpec),
    (.pmRead, pmReadSpec), (.parseGraphWrite, parseGraphWriteSpec), (.parseGraphActivate, parseGraphActivateSpec)]
  ++ [(.tableWrite, tableWriteSpec), (.tableDelete, tableDeleteSpec), (.tableRead, tableReadSpec), (.epochCommit, epochCommitSpec),
    (.epochDiscard, epochDiscardSpec), (.tcamBankFormat, tcamBankFormatSpec), (.mcastGroupWrite, mcastGroupSpec),
    (.mcastGroupRead, mcastReadSpec), (.mcastMembersWrite, mcastMembersSpec), (.mcastEsetWrite, mcastEsetSpec),
    (.innPoolSet, innPoolSetSpec), (.innQueueSet, innQueueSetSpec), (.innAudit, innAuditSpec), (.ledgerClassSet, ledgerClassSpec),
    (.ledgerPortSet, ledgerPortSpec), (.ledgerQueueSet, ledgerQueueSpec), (.ledgerQueueRead, ledgerReadSpec)]
  ++ [(.schedNodeSet, schedNodeSpec), (.schedQueueSet, schedQueueSpec), (.gateListSet, gateSetSpec), (.policerSet, policerSetSpec),
    (.fabReachWrite, fabReachSpec), (.twinClaim, twinClaimSpec), (.twinRelease, twinReleaseSpec), (.twinDigestRead, twinDigestSpec),
    (.twinFwdSet, twinFwdSpec), (.nwLoad, nwLoadSpec), (.memTrain, memTrainSpec), (.timeAdjust, timeAdjustSpec),
    (.tsRead, tsReadSpec), (.counterRead, counterReadSpec), (.counterReadClear, counterReadClearSpec),
    (.counterWrite, counterWriteSpec), (.counterSetCfg, counterSetCfgSpec), (.perfCfg, perfCfgSpec), (.powerDomainOn, powerOnSpec),
    (.powerDomainOff, powerOffSpec), (.powerStatusRead, powerReadSpec)]

/-! ### What a completion leaves alone -/

/-- FATAL_STATUS and the time of the first fatal event (R389). -/
def fatalRegs : List Nat := [0x03C00004, 0x03C00008, 0x03C0000C]

/-- The state without the functions' rings and vectors, the counters, LAST_STATUS, the key slots, the stored registers and the
memory of which bits the device has set in this very cycle. -/
def State.aside (s : State) : State :=
  { s with host := { s.host with fns := [] }, tele := { s.tele with ctrs := [] }, modes := { s.modes with lastStatus := 0 }
           sec := { s.sec with slots := [] }, regs := [], latch := {} }

/-- `t` differs from `s` only in what completing commands and raising events may write: the functions' rings and vectors, the
counters, LAST_STATUS, the fatal registers and what is latched of their setting, and the replay windows of the key slots. -/
structure State.Beside (s t : State) : Prop where
  rest : t.aside = s.aside
  regs : ∀ a, a ∉ fatalRegs → t.reg a = s.reg a
  slots : ∀ k, (t.slot k).key = (s.slot k).key ∧ (t.slot k).last = (s.slot k).last

/-! ### What stays legal whatever happens -/

/-- The queue, and the parts of the state that few commands change: stepping, fuses and keys (R393, R395), the PCIe link (R460), and
the states of alignment (R319), pair (R332) and thermal control (R444). -/
structure Vitals where
  pending : List Instr
  stepping : Nat
  fuse : Nat
  kek : List Byte
  keys : Nat → Option (List Byte)
  linkUp : Bool
  speed : Nat
  width : Nat
  align : Nat
  pair : Nat
  therm : Nat

def State.vitals (s : State) : Vitals :=
  { pending := s.pending, stepping := s.chip.stepping, fuse := s.sec.fuseState, kek := s.sec.kek
    keys := fun k => (s.sec.slots.get {} k).key, linkUp := s.host.linkUp, speed := s.host.speed, width := s.host.width
    align := s.time.align, pair := s.twin.pair, therm := s.chip.thermal.st }

/-- Every code is one that the register tables list, and no key is held, in fuses or slots, before the KEK is burnt. -/
def Vitals.Legal (v : Vitals) : Prop :=
  v.stepping ≤ 1 ∧ v.fuse ≤ 3 ∧ (v.fuse ≠ 2 → v.kek = [] ∧ ∀ k, v.keys k = none) ∧
  (if v.linkUp then (v.speed = 1 ∨ v.speed = 2 ∨ v.speed = 3) ∧ (v.width = 4 ∨ v.width = 8 ∨ v.width = 16)
    else v.speed = 0 ∧ v.width = 0) ∧
  v.align ≤ 2 ∧ v.pair ≤ 3 ∧ v.therm ≤ 2

end Sys2Proof.Machine
end

