-- ==== Sys2Proof/Certificates/Slice0/Obligations.lean ====
section
/-! DEFINITION. What is claimed of the block, for the provers: each statement names the rules of spec/ that it formalises. -/

section

open Sys2Proof Sys2Proof.Machine

/-- The queue is first in, first out; an idle block lets one TIME cycle pass (the model's choice, log 2). -/
def Obligations.StepTakesTheFrontCommand : Prop :=
  (∀ (c : Instr) (s : State) (rest : List Instr), s.pending = c :: rest → step s = exec c { s with pending := rest }) ∧
  (∀ s : State, s.pending = [] → step s = .next (s.pass 1))

/-- Whatever is commanded, the block goes on. -/
def Obligations.EveryCommandAnswersANextState : Prop :=
  (∀ (c : Instr) (s : State), ∃ t, exec c s = .next t ∧ t.pending = s.pending) ∧
  (∀ s : State, ∃ t, step s = .next t ∧ t.pending = s.pending.tail)

/-- R319, R332, R393 to R397, R436, R444, R460, R461: what is legal stays legal. -/
def Obligations.EveryStepKeepsTheVitalsLegal : Prop :=
  ∀ s t : State, s.vitals.Legal → step s = .next t → t.vitals.Legal

/-- R393, R395, R435: the invariant holds after reset. -/
def Obligations.ResetIsLegal : Prop := State.reset.vitals.Legal

/-- R393: a fuse burns once. -/
def Obligations.FusesOnlyBurnForward : Prop :=
  (∀ s t : State, step s = .next t →
    t.sec.fuseState = s.sec.fuseState ∨ (s.sec.fuseState = 0 ∧ t.sec.fuseState = 1) ∨
      (s.sec.fuseState = 1 ∧ (t.sec.fuseState = 2 ∨ t.sec.fuseState = 3))) ∧
  (∀ s t : State, 2 ≤ s.sec.fuseState → step s = .next t → t.sec.fuseState = s.sec.fuseState)

/-- R374, R379, R382: what the ring rows do. -/
def Obligations.RingRowsRunTheHeadCommand : Prop :=
  (∀ r ∈ ringRows, ∀ a : Accepted r.2, exec (r.1 a.i) a.s = .next (a.does (r.2.body a.t (a.s.cmdOf a.i a.d) a.x))) ∧
  (∀ r ∈ ringRows, ∀ (i : Issue) (s : State),
    (∀ d rest, (s.ring i.fn i.ring).fetched = d :: rest → d.opcode = r.2.code → (s.pass i.dt).canBegin i.fn i.ring = false) →
    exec (r.1 i) s = .next (s.pass i.dt)) ∧
  (ringRows.map fun r => r.2.code).Perm knownOpcodes ∧ knownOpcodes.Nodup

/-- R375: accepted, re-posted, or out of order. -/
def Obligations.RingsCheckSeqAndRecogniseReposts : Prop :=
  (∀ r ∈ ringRows, ∀ i s d rest, Draws r.2 i s d rest →
    ((s.ring i.fn i.ring).lastSeq = none ∨ ∃ l, (s.ring i.fn i.ring).lastSeq = some l ∧ d.seq = (l + 1) % 65536) →
    ((s.ring i.fn i.ring).st = .fenced → d.ordered = true → d.opcode = 2 ∨ d.opcode = 3) →
    exec (r.1 i) s = .next (((s.taken i d rest).runAccepted r.2 i.fn i.ring d i.payload).settle i.fn i.ring) ∧
      ((s.taken i d rest).ring i.fn i.ring).lastSeq = some d.seq ∧
      ((s.taken i d rest).ring i.fn i.ring).accepted = (s.ring i.fn i.ring).accepted + 1) ∧
  (∀ r ∈ ringRows, ∀ i s d rest l back, Draws r.2 i s d rest → (s.ring i.fn i.ring).lastSeq = some l →
    d.seq ≠ (l + 1) % 65536 → back = (l + 65536 - d.seq) % 65536 → back < 1024 → back < (s.ring i.fn i.ring).accepted →
    ∃ t q status detail result, (q, status, detail, result) = (s.ring i.fn i.ring).history.getD back (0, 0, 0, 0) ∧
      t = ((s.offRing i d rest).complete i.fn i.ring d stDuplicate status result false []).settle i.fn i.ring ∧
      exec (r.1 i) s = .next t ∧ (s.pass i.dt).Beside t) ∧
  (∀ r ∈ ringRows, ∀ i s d rest l, Draws r.2 i s d rest → (s.ring i.fn i.ring).lastSeq = some l →
    d.seq ≠ (l + 1) % 65536 → ¬ ((l + 65536 - d.seq) % 65536 < 1024 ∧ (l + 65536 - d.seq) % 65536 < (s.ring i.fn i.ring).accepted) →
    ∃ t, t = ((s.offRing i d rest).complete i.fn i.ring d stBadArg 0xFFFFFFFF 0 false []).settle i.fn i.ring ∧
      exec (r.1 i) s = .next t ∧ (s.pass i.dt).Beside t)

/-- R407: SKIPPED, or as on a RUNNING ring. -/
def Obligations.FencedRingsSkipOrderedCommands : Prop :=
  (∀ r ∈ ringRows, ∀ i s d rest, Draws r.2 i s d rest → (s.ring i.fn i.ring).seqCheck d.seq = .accept →
    (s.ring i.fn i.ring).st = .fenced → d.ordered = true → d.opcode ≠ 2 → d.opcode ≠ 3 →
    ∃ u t, u = (s.taken i d rest).bump ⟨0x16, 1, 0⟩ (i.ring + (if s.partOn then 32 * (i.fn : Nat) else 0)) ∧
      t = (u.finish i.fn i.ring { desc := d, seq := d.seq, wait := .audit } stSkipped 0 0 []).settle i.fn i.ring ∧
      (s.pass i.dt).Beside t ∧ ∀ p, exec (r.1 { i with payload := p }) s = .next t) ∧
  (∀ r ∈ ringRows, ∀ i s d rest, Draws r.2 i s d rest → (s.ring i.fn i.ring).seqCheck d.seq = .accept →
    (s.ring i.fn i.ring).st = .fenced → (d.ordered = false ∨ d.opcode = 2 ∨ d.opcode = 3) →
    exec (r.1 i) s = .next (((s.taken i d rest).runAccepted r.2 i.fn i.ring d i.payload).settle i.fn i.ring))

/-- R374, R376: what is not executed, and why. -/
def Obligations.CommandsAreTurnedAwayInTheOrderOfSteps : Prop :=
  ∀ r ∈ ringRows, ∀ i s d rest, Begins r.2 i s d rest →
    ∃ u v critical, u = s.taken i d rest ∧ v = (s.func i.fn).chosen ∧ critical = r.2.critical u (s.partOf i.fn) ∧
    (r.2.inForm v d = false → exec (r.1 i) s = .next (u.turnsAway i d false stBadArg 0)) ∧
    (r.2.inForm v d = true → d.payload i.payload = none →
      exec (r.1 i) s = .next (u.turnsAway i d false (if versionOk v i.fn critical d.auth then stMemErr else stVersion) 0)) ∧
    (r.2.inForm v d = true → ∀ x, d.payload i.payload = some x →
      (r.2.split u d.entries d.payloadLen x = none → exec (r.1 i) s = .next (u.turnsAway i d false stBadArg 0)) ∧
      (∀ xs, r.2.split u d.entries d.payloadLen x = some xs →
        (versionOk v i.fn critical d.auth = false → exec (r.1 i) s = .next (u.turnsAway i d false stVersion 0)) ∧
        (versionOk v i.fn critical d.auth = true →
          (∀ t status au, u.authenticate i.fn i.ring d x critical r.2.underIk = .refuse t status au →
            exec (r.1 i) s = .next (t.turnsAway i d au status 0)) ∧
          (∀ t e k, u.authenticate i.fn i.ring d x critical r.2.underIk = .dup t e k →
            (e.done = true →
              exec (r.1 i) s = .next ((t.finish i.fn i.ring { desc := d, seq := d.seq, wait := .audit, payloadLen := d.payloadLen, authed := true }
                stDuplicate e.status e.result []).settle i.fn i.ring)) ∧
            (e.done = false → ∃ run : Running, run.desc = d ∧ run.authed = true ∧ run.wait = .duplicate k e.counter e.tag ∧
              exec (r.1 i) s = .next ((t.updRing i.fn i.ring fun g => { g with running := some run }).settle i.fn i.ring))) ∧
          (∀ t au slot, u.authenticate i.fn i.ring d x critical r.2.underIk = .pass t au slot →
            ((r.2.aOnly && (i.fn : Nat) == 1) = true →
              exec (r.1 i) s = .next (t.completes i d x au slot stProtected 0 0 [])) ∧
            ((r.2.aOnly && (i.fn : Nat) == 1) = false → d.respLen < r.2.totalResp t (s.cmdOf i d) xs →
              exec (r.1 i) s = .next (t.completes i d x au slot stNoSpace 0 (r.2.totalResp t (s.cmdOf i d) xs) []))))))

/-- R394, R395, R399, R401, R402: no command runs under a wrong or an old tag. -/
def Obligations.AuthenticationAcceptsOnlyAFreshTag : Prop :=
  ∀ (s : State) (fn n : Nat) (d : Desc) (x : Nat) (critical underIk : Bool),
    (∀ t au slot, s.authenticate fn n d x critical underIk = .pass t au slot →
      (critical = false ∧ d.auth = false ∧ t = s ∧ au = false ∧ slot = none) ∨
      (d.auth = true ∧ au = true ∧ slot = some (d.keySlot, d.counter, d.tag) ∧ s.ownSlot fn d.keySlot = true ∧
        (∃ key, (if underIk then (if s.sec.fuseState = 2 then some s.installKey else none) else (s.slot d.keySlot).key) = some key ∧
          tagNat (cmac key (s.tagMessage d x)) = d.tag) ∧
        (s.slot d.keySlot).last < d.counter ∧ (∀ e ∈ (s.slot d.keySlot).window, ¬ (e.counter = d.counter ∧ e.tag = d.tag)) ∧
        (t.slot d.keySlot).key = (s.slot d.keySlot).key ∧ (t.slot d.keySlot).last = d.counter ∧
        (t.slot d.keySlot).window = ({ counter := d.counter, tag := d.tag : WinEntry } :: (s.slot d.keySlot).window).take 64 ∧
        ∀ k, k ≠ d.keySlot → t.slot k = s.slot k)) ∧
    (∀ t status au, s.authenticate fn n d x critical underIk = .refuse t status au →
      (status = stAuthFail ∨ status = stReplay) ∧ s.Beside t ∧ ∀ k, t.slot k = s.slot k) ∧
    (∀ t e k, s.authenticate fn n d x critical underIk = .dup t e k →
      k = d.keySlot ∧ e ∈ (s.slot k).window ∧ e.counter = d.counter ∧ e.tag = d.tag ∧ s.Beside t ∧ (∀ j, t.slot j = s.slot j) ∧
        ∃ key, tagNat (cmac key (s.tagMessage d x)) = d.tag)

/-- R377: all, or all before the first failure. -/
def Obligations.BatchesRunTheirEntriesInOrder : Prop :=
  ∀ r ∈ ringRows, ∀ i s d rest x xs t au slot, Begins r.2 i s d rest → r.2.inForm (s.func i.fn).chosen d = true →
    2 ≤ d.count → d.payload i.payload = some x → r.2.split (s.taken i d rest) d.count d.payloadLen x = some xs →
    versionOk (s.func i.fn).chosen i.fn (r.2.critical (s.taken i d rest) (s.partOf i.fn)) d.auth = true →
    (s.taken i d rest).authenticate i.fn i.ring d x (r.2.critical (s.taken i d rest) (s.partOf i.fn)) r.2.underIk = .pass t au slot →
    (r.2.aOnly && (i.fn : Nat) == 1) = false → r.2.totalResp t (s.cmdOf i d) xs ≤ d.respLen →
    (∀ u out, r.2.allDone (s.cmdOf i d) t xs = some (u, out) →
      exec (r.1 i) s = .next (u.completes i d x au slot stOk 0 xs.length out)) ∧
    (∀ ys y zs u v out status detail result resp, xs = ys ++ y :: zs → r.2.allDone (s.cmdOf i d) t ys = some (u, out) →
      r.2.body u (s.cmdOf i d) y = .done v status detail result resp → status ≠ stOk →
      exec (r.1 i) s = .next (v.completes i d x au slot status ys.length ys.length out))

/-- R310, R375, R379, R401, R402, R406: frames. -/
def Obligations.CompletionsTouchNothingElse : Prop :=
  (∀ (sp : OpSpec) (a : Accepted sp) (u : State) (status result : Nat) (resp : List Byte) (w : Wait),
    u.Beside (a.ends u status result resp) ∧ u.Beside (a.waits u w)) ∧
  (∀ (sp : OpSpec) (a : Accepted sp), (a.s.pass a.i.dt).Beside (a.s.taken a.i a.d a.rest) ∧ a.t.aside = (a.s.pass a.i.dt).aside ∧
    (∀ r, r ∉ fatalRegs → a.t.reg r = a.s.reg r) ∧ (∀ k, (a.t.slot k).key = (a.s.slot k).key) ∧
    ∀ k, (a.au = false ∨ k ≠ a.d.keySlot) → (a.t.slot k).last = (a.s.slot k).last) ∧
  (∀ (s : State) (n : Nat), ∃ m, s.pass n = { s with time := { s.time with cyc := s.time.cyc + n, master := m } })

/-- R204, R247, R248, R297, R310, R395, R435, R440: after reset. -/
def Obligations.ResetLeavesTheStatedValues : Prop :=
  State.reset.pending = [] ∧ (State.reset.pool 0).rooms = 335544320 ∧ (∀ p, p ≠ 0 → (State.reset.pool p).rooms = 0) ∧
  (∀ p < 2, (List.range 16).map (State.reset.deadlineNs p) = [2000, 5000, 10000, 20000, 50000, 100000, 200000, 500000, 1000000,
    2000000, 5000000, 10000000, 20000000, 50000000, 100000000, 500000000] ∧ State.reset.hbmNs p = 20000000) ∧
  (∀ d < 236, State.reset.domainSt d = if 184 ≤ d ∧ d < 200 then .starting else .off) ∧
  (∀ g < 6, (State.reset.group g).st = .off) ∧ (∀ m : Mode, (State.reset.mode m).st = .off) ∧
  (∀ k, State.reset.slot k = {}) ∧ State.reset.sec.fuseState = 0 ∧ State.reset.now = 0 ∧ State.reset.time.freqPpb = 0 ∧
  (∀ fn, (State.reset.func fn).chosen = 0) ∧ (∀ fn n, (State.reset.ring fn n).st = .disabled) ∧
  (∀ a, State.reset.reg a = regReset a % 2 ^ 32)

/-- R405. -/
def Obligations.FuseReadReturnsItsFields : Prop :=
  ∀ a : Accepted fuseReadSpec, ∃ resp : List Byte, exec (.fuseRead a.i) a.s = .next (a.ends a.t stOk 0 resp) ∧
    a.d.payloadLen = 0 ∧ resp.length = 32 ∧ bits (leNat resp) 0 64 = Config.serial.toNat ∧
    bits (leNat resp) 64 32 = (if a.t.sec.fuseState = 2 then leNat ((cmac a.t.sec.kek (List.replicate 16 0)).take 4) else 0) ∧
    bits (leNat resp) 96 2 = a.t.sec.fuseState % 4 ∧ bits (leNat resp) 98 158 = 0

/-- R442. -/
def Obligations.PowerStatusReadReturnsEveryState : Prop :=
  ∀ a : Accepted powerReadSpec, ∃ resp : List Byte, exec (.powerStatusRead a.i) a.s = .next (a.ends a.t stOk 0 resp) ∧
    a.d.payloadLen = 0 ∧ resp.length = 64 ∧ (∀ d < 236, bits (leNat resp) (2 * d) 2 = (a.t.domainSt d).code) ∧
    (∀ g < 6, bits (leNat resp) (472 + 2 * g) 2 = (a.t.group g).st.code) ∧ bits (leNat resp) 484 28 = 0 ∧
    OnOff.off.code = 0 ∧ OnOff.starting.code = 1 ∧ OnOff.on.code = 2 ∧ OnOff.quiescing.code = 3

/-- R417 to R420: counting. -/
def Obligations.CountersLoseNoIncrement : Prop :=
  (∀ (c : Ctr) (sat : Bool) (n : Nat),
    (c.add sat n).1.value sat = (if sat then min (c.value sat + n) (2 ^ 64 - 1) else (c.value sat + n) % 2 ^ 64) ∧
    (c.flush sat).1.value sat = c.value sat ∧ (c.flush sat).1.acc = 0 ∧
    ((c.add sat n).2 = true → sat = true ∧ c.spent = false ∧ (c.add sat n).1.spent = true ∧ (c.add sat n).1.value sat = 2 ^ 64 - 1) ∧
    (c.spent = true → (c.add sat n).1.spent = true)) ∧
  (∀ (s : State) (set inst item n : Nat), ctr32 set inst = true →
    ((s.bumpQuiet set inst item n).1.ctr set inst item).backing = min ((s.ctr set inst item).backing + n) (2 ^ 32 - 1) ∧
    (s.bumpQuiet set inst item n).2 = false) ∧
  (∀ (s : State) (set inst item n : Nat), ctr32 set inst = false →
    (s.bumpQuiet set inst item n).1.ctr set inst item = ((s.ctr set inst item).add (s.satMode set (s.ctrPart set inst)) n).1) ∧
  (∀ (s : State) (set inst item n set' inst' item' : Nat), ctrKey set' inst' item' ≠ ctrKey set inst item →
    (s.bumpQuiet set inst item n).1.ctr set' inst' item' = s.ctr set' inst' item')

/-- The tables of the state. -/
def Obligations.TablesStayCanonical : Prop :=
  ∀ (α : Type) [DecidableEq α] (d : α),
    (∀ (m : NMap α) (k : Nat) (v : α), (m.put d k v).get d k = v ∧ (m.wf d = true → (m.put d k v).wf d = true) ∧
      ∀ l, l ≠ k → (m.put d k v).get d l = m.get d l) ∧
    (∀ (m : NMap α) (k : Nat) (f : α → α), (m.upd d k f).get d k = f (m.get d k) ∧ (m.wf d = true → (m.upd d k f).wf d = true)) ∧
    (∀ m n : NMap α, m.wf d = true → n.wf d = true → (∀ k, m.get d k = n.get d k) → m = n)

/-- R277, R281, R282: token buckets. -/
def Obligations.PolicersMeterWithoutLoss : Prop :=
  (∀ (p : Policer) (a b : Nat), p.at_ ≤ a → a ≤ b → (p.fill a).fill b = p.fill b) ∧
  (∀ (p : Policer) (a : Nat), (p.fill a).tc ≤ p.cbs * 1024 ∧ (p.fill a).te ≤ p.ebs * 1024) ∧
  (∀ (p q : Policer) (colour charge r : Nat), p.decide colour charge = (q, r) → r ≤ 2 ∧
    ((p.mode = 2 ∨ p.mode = 4) → min colour 2 ≤ r) ∧
    (r = 0 → charge * 1024 ≤ p.tc ∧ q.tc = p.tc - charge * 1024 ∧
      (if p.mode ≤ 2 then q.te = p.te else charge * 1024 ≤ p.te ∧ q.te = p.te - charge * 1024)) ∧
    (r = 1 → charge * 1024 ≤ p.te ∧ q.te = p.te - charge * 1024 ∧ q.tc = p.tc) ∧ (r = 2 → q = p) ∧
    ((p.mode = 1 ∨ p.mode = 3) → charge * 1024 ≤ p.tc → charge * 1024 ≤ p.te → r = 0))

/-- R274: the choice at a release opportunity. -/
def Obligations.ThePromisedPhaseServesTheSmallestFinishTag : Prop :=
  ∀ (s : State) (p : Nat) (ok : Queue → Bool), (s.tm.queues.map Prod.fst).Pairwise (· < ·) →
    (∀ q, s.promisedPick p ok = some q → s.portOpen p s.follower = true ∧
      ∃ u, (q, u) ∈ s.portQueues p ∧ s.inPromised p (s.vNow p) u = true ∧ ok u = true ∧
        ∀ r w, (r, w) ∈ s.portQueues p → s.inPromised p (s.vNow p) w = true → ok w = true → u.vf < w.vf ∨ (u.vf = w.vf ∧ q ≤ r)) ∧
    (s.promisedPick p ok = none ↔ s.portOpen p s.follower = false ∨
      ∀ r w, (r, w) ∈ s.portQueues p → s.inPromised p (s.vNow p) w = true → ok w = false)

/-- R11, R310: time. -/
def Obligations.TimeRunsWithoutLoss : Prop :=
  (∀ (s : State) (m n : Nat), (s.pass m).pass n = s.pass (m + n) ∧ (s.pass m).cyc = s.cyc + m) ∧
  (∀ (s : State) (n : Nat), s.time.freqPpb = 0 → s.time.slew = none →
    (s.pass n).time.master = (s.time.master + n * (5 * 2 ^ 32 / 4)) % (2 ^ 48 * 1000000000 * 2 ^ 32)) ∧
  (∀ (s : State) (n : Nat) (ppb : Int), s.time.freqPpb = ppb → s.time.slew = none →
    (s.pass n).time.master = (s.time.master + n * (5368709120 + 5368709120 * ppb / 1000000000).toNat) % (2 ^ 48 * 1000000000 * 2 ^ 32)) ∧
  (∀ (s : State) (n : Nat), secOf (s.pass n).now < 2 ^ 48 ∧ nsOf (s.pass n).now < 1000000000 ∧ fracOf (s.pass n).now < 65536) ∧
  (∀ s : State, s.now = s.time.master * 65536 / 2 ^ 32) ∧ State.reset.time.master = 0

/-- R233, with R232's choice of the version. -/
def Obligations.TheTwinLinkRunsVersionTwoOrThree : Prop :=
  (∀ (s t : State) (dt : Nat) (j : Fin 26) (word : BitVec 64), exec (.capCellReceived dt j word) s = .next t →
    (s.link j).st ≠ .up → (t.link j).st = .up →
    ∃ v, v = (t.link j).version ∧ 1 ≤ v ∧ v ≤ 3 ∧ bit (s.offered j) v = true ∧ bit (capVersions word.toNat) v = true ∧
      (∀ w, v < w → bit (s.offered j) w = false ∨ bit (capVersions word.toNat) w = false) ∧ (24 ≤ j.val → v = 2 ∨ v = 3)) ∧
  (∀ (s : State) (j w : Nat), 24 ≤ j → capFe w = false → capEndpoint w ≠ s.ownEndpoint → s.commonVersion j w = 1 →
    ((s.decideLink j w).link j).st = .noCommon ∧ ((s.decideLink j w).link j).cause = 5)

/-- R33 to R39, R151: modes. -/
def Obligations.ModeCommandsAndTransitionsFollowTheWord : Prop :=
  (∀ (s : State) (dt : Nat) (v : Word32), let u := s.pass dt
    u.hostUp = true → u.serves 0 = true → v.getLsbD 0 = true → u.applied = false → u.modes.plan = [] →
    exec (.modeApply dt 0 v) s = .next (if u.wordCheck (u.reg 0x00100040) (u.regF 0x0010004C 0 6) false = stOk then
        ({ u with modes := { u.modes with lastStatus := stOk, applied := true, split := u.regF 0x0010004C 0 6 } }).applyWord
          (u.reg 0x00100040) none
      else { u with modes := { u.modes with lastStatus := u.wordCheck (u.reg 0x00100040) (u.regF 0x0010004C 0 6) false } })) ∧
  (∀ (s : State) (dt : Nat) (v : Word32), let u := s.pass dt
    u.hostUp = true → u.serves 0 = true → v.getLsbD 0 = true → u.applied = false → u.modes.plan ≠ [] →
    exec (.modeApply dt 0 v) s = .next { u with modes := { u.modes with applyWait := true } }) ∧
  (∀ (s : State) (dt : Nat) (fn : Fin 2) (v : Word32), let u := s.pass dt
    u.hostUp = true → u.serves fn = true → (u.applied = true ∨ v.getLsbD 0 = false ∨ fn = 1) →
    exec (.modeApply dt fn v) s = .next u) ∧
  (∀ a : Accepted setModeSpec, a.i.fn = 1 → exec (.setMode a.i) a.s = .next (a.ends a.t stProtected 0 [])) ∧
  (∀ a : Accepted setModeSpec, a.i.fn = 0 → a.t.modes.plan ≠ [] →
    exec (.setMode a.i) a.s = .next (a.waits a.t (.modeTurn false a.x))) ∧
  (∀ a : Accepted setModeSpec, a.i.fn = 0 → a.t.modes.plan = [] → bits a.x 32 32 = 0 →
    ∃ t, t = ((a.t.lastStatus stOk).setReg 0x00100040 (bits a.x 0 32)).applyWord (bits a.x 0 32) (some (a.i.fn, a.i.ring)) ∧
      exec (.setMode a.i) a.s = .next (
        if a.t.wordCheck (bits a.x 0 32) a.t.modes.split true = stOvercommit ∧
          a.t.wordCheck (bits a.x 0 32) a.t.modes.split true false = stOk then a.waits a.t .capacity
        else if a.t.wordCheck (bits a.x 0 32) a.t.modes.split true ≠ stOk then
          a.ends (a.t.lastStatus (a.t.wordCheck (bits a.x 0 32) a.t.modes.split true))
            (a.t.wordCheck (bits a.x 0 32) a.t.modes.split true) 0 []
        else if t.modes.plan = [] then a.ends { t with modes := { t.modes with owner := none } } stOk 0 []
        else a.waits t .modeDone)) ∧
  (∀ a : Accepted setModeSpec, a.i.fn = 0 → a.t.modes.plan = [] → bits a.x 32 32 ≠ 0 →
    exec (.setMode a.i) a.s = .next (a.ends (a.t.lastStatus stBadArg) stBadArg 0 [])) ∧
  (∀ a : Accepted partAssignSpec, bits a.x 6 58 ≠ 0 → exec (.partAssign a.i) a.s = .next (a.ends a.t stBadArg 0 [])) ∧
  (∀ a : Accepted partAssignSpec, bits a.x 6 58 = 0 → a.t.modes.plan ≠ [] →
    exec (.partAssign a.i) a.s = .next (a.waits a.t (.modeTurn true a.x))) ∧
  (∀ a : Accepted partAssignSpec, bits a.x 6 58 = 0 → a.t.modes.plan = [] → (∀ g < 6, (a.t.group g).st = .off) →
    exec (.partAssign a.i) a.s = .next (a.ends
      (({ a.t with modes := { a.t.modes with split := bits a.x 0 6 } }).setReg 0x0010004C (bits a.x 0 6)) stOk 0 [])) ∧
  (∀ a : Accepted partAssignSpec, bits a.x 6 58 = 0 → a.t.modes.plan = [] → (∃ g < 6, (a.t.group g).st ≠ .off) →
    exec (.partAssign a.i) a.s = .next (a.ends a.t stBadArg 0 [])) ∧
  (∀ (s : State) (dt : Nat) (m : Mode), let u := s.pass dt
    (u.mode m).st = .starting → u.modes.plan.head? = some (m, true) → u.modeReady m = true →
    exec (.modeStartingDone dt m) s = .next (u.modeOn m).modeNext) ∧
  (∀ (s : State) (dt : Nat) (m : Mode), let u := s.pass dt
    (u.mode m).st = .quiescing → u.modes.plan.head? = some (m, false) → u.modeDrained m = true →
    exec (.modeQuiescingDone dt m) s = .next (u.modeOff m).modeNext) ∧
  (∀ (s : State) (dt : Nat) (up : Bool), let u := s.pass dt
    u.modes.plan.head? = some (.partition, up) → u.modes.partWait = true → u.epochsSettled 0 = true → u.epochsSettled 1 = true →
    exec (.partitionTransitionBegin dt) s = .next (
      if up then ({ u with modes := { u.modes with partWait := false } }).showOwner.modeUp .partition
      else ({ u with modes := { u.modes with partWait := false } }).showOwner.modeDown .partition)) ∧
  (∀ (s : State) (m : Mode), s.modeReady m = true ↔ match m with
    | .gated => ∀ e ∈ s.tm.gates, e.2.counted = none ∨ e.2.startsAt ≤ s.follower
    | .partition => ∀ r < 64, ringBeyond r = true → (s.ring 0 r).st = .disabled
    | .transport => True
    | .cellar => True
    | .fabric => ∀ j < 24, ∀ n ∈ s.lanesOf (48 + j), (s.lane n).st ≠ .txOn
    | .direct => ∀ j < 24, ∀ n ∈ s.lanesOf (48 + j), (s.lane n).st ≠ .txOn
    | .twin => ∀ j, j = 24 ∨ j = 25 → ∀ n ∈ s.lanesOf (48 + j), (s.lane n).st ≠ .txOn) ∧
  (∀ (s : State) (w : Nat) (owner : Option (Nat × Nat)), s.planOf w =
      (([.gated, .twin, .transport, .fabric, .direct, .cellar, .partition] : List Mode).filter (s.reqOff w)).map (·, false) ++
      (([.partition, .cellar, .fabric, .direct, .transport, .twin, .gated] : List Mode).filter (s.reqOn w)).map (·, true) ∧
    s.applyWord w owner = (let t := s.takeWord w
      ({ t with modes := { t.modes with plan := s.planOf w, owner := owner, passedAt := t.follower } }).modeBegin))

/-- R63, R65 to R69, R72, R75 to R78, R85, R91: lanes and ports. -/
def Obligations.LanesWalkTheBringUpStates : Prop :=
  (∀ (s : State) (n : Nat) (st : LaneSt), let t := s.updLane n fun l => { l with st := st, since := s.cyc }
    s.moveLane n st = if ((s.lane n).st = .pcsUp ∨ (s.lane n).st = .rxLock) ∧ st.code < (s.lane n).st.code then t.bump ⟨2, 0, 2⟩ n
      else t) ∧
  (∀ (s : State) (dt : Nat) (lane : Fin 152), let u := s.pass dt
    (u.lane lane).st = .txOn → ∃ t, t = u.updLane lane (fun l => { l with st := if u.prbsOn lane then .prbs else .rxSignal, since := u.cyc }) ∧
      exec (.laneTxSettled dt lane) s = .next (match t.portOfLane lane with
        | none => t
        | some p => if (t.lanesOf p).any (fun n => (t.lane n).st == .txOn) then t else t.beginAttempt p)) ∧
  (∀ (s : State) (dt : Nat) (lane : Fin 152), let u := s.pass dt
    (u.lane lane).st = .rxSignal → (u.lane lane).since + cycMs ≤ u.cyc →
    ∃ t, t = u.updLane lane (fun l => { l with st := .rxAdapt, since := u.cyc }) ∧
      exec (.signalQualified dt lane) s = .next (match t.portOfLane lane with
        | none => t
        | some p => t.updPort p fun q => { q with adapted := true })) ∧
  (∀ (s : State) (dt : Nat) (lane : Fin 152), let u := s.pass dt
    (u.lane lane).st = .rxAdapt →
    exec (.laneAdapted dt lane) s = .next (u.updLane lane fun l => { l with st := .rxLock, since := u.cyc })) ∧
  (∀ (s : State) (dt : Nat) (p : Fin 74), let u := s.pass dt
    let framed := ∀ n ∈ u.lanesOf p, (u.level n).inFrame = true ∧ bit (u.entDefects (p / 8) 1 n) 0 = false
    let t := (u.updLanes p fun l => { l with st := .pcsUp, since := u.cyc, noPartner := false, noLock := false }).updPort p (fun q =>
      { q with attempt := none, failedAt := none, noLockRun := 0 })
    (u.lanesAll p .rxLock = false ∨ u.isFramerLine p = true ∧ ¬ framed → exec (.pcsAligned dt p) s = .next u) ∧
    (u.lanesAll p .rxLock = true → (u.isFramerLine p = true → framed) →
      exec (.pcsAligned dt p) s = .next (if 48 ≤ p.val then t.linkLanesUp (p - 48)
        else if t.isFramerLine p = true then (t.raise (t.portPart p) evLinkUp p 14).refreshGroup (p / 8)
        else (t.raise (t.portPart p) evLinkUp p (t.port p).typ).portReturns p))) ∧
  (∀ (s : State) (dt : Nat) (lane : Fin 152), let u := s.pass dt
    u.laneIdle lane = false → (u.lane lane).st = .rxAdapt →
    ∃ t, t = u.updLane lane (fun l => { l with st := .rxSignal, since := u.cyc }) ∧
      exec (.lossOfSignal dt lane) s = .next (if lane.val < 48 then t.raise (t.portPart lane) evLanePartnerLost lane else t)) ∧
  (∀ (s : State) (dt : Nat) (lane : Fin 152), let u := s.pass dt
    u.laneIdle lane = false → (u.lane lane).st = .rxLock ∨ (u.lane lane).st = .pcsUp →
    exec (.lossOfSignal dt lane) s = .next (u.laneFalls lane .rxSignal 0) ∧
    exec (.lossOfLock dt lane) s = .next (u.laneFalls lane .rxAdapt 1)) ∧
  (∀ (s : State) (dt : Nat) (lane : Fin 152), let u := s.pass dt
    (u.laneIdle lane = true ↔ 48 ≤ lane.val ∧ (u.link ((lane.val - 48) / 4)).rxIdle = true) ∧
    (u.laneIdle lane = true → exec (.lossOfSignal dt lane) s = .next u ∧ exec (.lossOfLock dt lane) s = .next u)) ∧
  (∀ (s : State) (dt : Nat) (p : Fin 74), let u := s.pass dt
    let t := (u.lanesOf p).foldl (fun s m => s.moveLane m .rxLock) u
    let idle := 48 ≤ p.val ∧ (u.link (p - 48)).rxIdle = true
    exec (.pcsAlignmentLost dt p) s = .next (if idle ∨ u.pcsUp p = false then u else t.portLeaves p 2) ∧
    exec (.highSer dt p) s = .next (if idle ∨ u.pcsUp p = false ∨ u.kp4 p = false then u else t.portLeaves p 3)) ∧
  (∀ (s : State) (p : Nat), (p < 48 → (s.kp4 p = true ↔ (s.port p).typ ∈ [5, 7, 8, 9, 10, 11, 12, 13, 14])) ∧
    (48 ≤ p → (s.kp4 p = true ↔ (s.lane (48 + 4 * (p - 48))).rate ≠ 1))) ∧
  (∀ (s : State) (dt t0 : Nat) (p : Fin 74), let u := s.pass dt
    (u.port p).attempt = some t0 → t0 + u.lockTimeoutCyc ≤ u.cyc →
    ∃ t, t = (u.updPort p fun q => { q with attempt := none, failedAt := some u.cyc
                                            noLockRun := if (u.port p).adapted then q.noLockRun + 1 else 0 }).updLanes p (fun l =>
        { l with noLock := l.noLock || (u.port p).adapted, noPartner := l.noPartner || !(u.port p).adapted
                 attempts := min 15 (l.attempts + 1) }) ∧
      exec (.lockTimeout dt p) s = .next (if 48 ≤ p.val then t
        else if (u.port p).adapted then
          (t.raise (t.portPart p) evLaneNoLock p ((t.lane p).rate + t.notLocked p * 256)).ladder p
        else t.raise (t.portPart p) evLaneNoPartner p (t.lane p).rate)) ∧
  (∀ (s : State) (dt t0 : Nat) (p : Fin 74), let u := s.pass dt
    (u.port p).failedAt = some t0 → t0 + u.retryCyc ≤ u.cyc → u.pcsUp p = false →
    exec (.retryInterval dt p) s = .next (((u.lanesOf p).foldl (fun s n =>
      if (s.lane n).st == .rxAdapt || (s.lane n).st == .rxLock || (s.lane n).st == .rxSignal then s.moveLane n .rxSignal else s)
      u).beginAttempt p)) ∧
  (∀ (s : State) (dt : Nat) (fn : Fin 2) (lane : Fin 48) (v : Word32), let u := s.pass dt
    let t := u.storeReg (0x00200008 + 0x40 * lane) v
    let keeps := (u.lane lane).st = .prbs ∧ u.prbsCode lane 4 = t.prbsCode lane 4
    let w := t.moveLane lane .rxSignal
    u.hostUp = true → u.serves fn = true → u.ownsGroup fn (lane / 8) = true → u.chip.d2dDown = false →
    exec (.prbsPatternSet dt fn lane v) s = .next (
      if (u.lane lane).st = .off then t
      else if t.prbsOn lane = true then
        (if (u.lane lane).st = .prbs then t else t.laneFalls lane .prbs 4).updLane lane fun l =>
          { l with prbsLock := if keeps then l.prbsLock else false }
      else if (u.lane lane).st = .prbs then
        match t.portOfLane lane with
        | none => w.updLane lane fun l => { l with prbsLock := false }
        | some p => (w.updLane lane fun l => { l with prbsLock := false }).beginAttempt p
      else t)) ∧
  (∀ (s : State) (dt : Nat) (lane : Fin 48), let u := s.pass dt
    (u.lane lane).st = .prbs → prbsActs (u.regF (0x00200008 + 0x40 * lane) 4 4) (u.lane lane).rate ≠ 0 →
    exec (.prbsCheckerLock dt lane) s = .next (u.updLane lane fun l => { l with prbsLock := true })) ∧
  (∀ (s : State) (dt n : Nat) (lane : Fin 48), let u := s.pass dt
    let t := if n = 0 then u else u.bump ⟨2, 0, 0⟩ lane n
    exec (.prbsLockLost dt lane n) s = .next (if (u.lane lane).prbsLock = false then u else if n ≤ 32 then t
      else (t.updLane lane fun l => { l with prbsLock := false }).raise (u.portPart lane) evPrbsLockLost lane)) ∧
  (∀ (s : State) (dt : Nat) (p : Fin 48) (b : Bool), let u := (s.pass dt).updPort p fun q => { q with remoteFault := b }
    exec (.remoteFaultReceived dt p b) s = .next (if b = true then u else u.pauseCheck p))

/-- R79, R81, R83 to R85, R258, R259, R385: the line MACs. -/
def Obligations.MacsCountFramesAndHonourPauses : Prop :=
  (∀ a : Accepted macAddrSetSpec, bits a.x 0 8 < 48 → bits a.x 13 51 = 0 → bits a.x 112 16 = 0 → bit a.x 64 = false →
    exec (.macAddrSet a.i) a.s = .next (if a.t.partOn = true ∧ a.t.portPart (bits a.x 0 8) ≠ a.part then a.ends a.t stProtected 0 []
      else a.ends { a.t with macs := a.t.macs.put 0 (bits a.x 0 8 * 16 + bits a.x 8 4) (bits a.x 64 48 + b2n (bit a.x 12) * 2 ^ 48) }
        stOk 0 [])) ∧
  (∀ a : Accepted macAddrSetSpec, (48 ≤ bits a.x 0 8 ∨ bits a.x 13 51 ≠ 0 ∨ bits a.x 112 16 ≠ 0 ∨ bit a.x 64 = true) →
    exec (.macAddrSet a.i) a.s = .next (a.ends a.t stBadArg 0 [])) ∧
  (∀ a : Accepted macAddrReadSpec, bits a.x 0 8 < 48 → bits a.x 8 56 = 0 → a.t.partOn = false →
    exec (.macAddrRead a.i) a.s = .next
      (a.ends a.t stOk 0 ((List.range 16).flatMap fun i => leBytes 8 (a.t.macEntry (bits a.x 0 8) i)))) ∧
  (∀ (s : State) (dt : Nat) (p : Fin 48) (f : List Byte) (err : RxErr), let u := s.pass dt
    (f = [] → exec (.frameReceived dt p f err) s = .next (u.idleLine p err)) ∧
    (f ≠ [] → u.portUp p = false ∨ u.chip.d2dDown = true → exec (.frameReceived dt p f err) s = .next u) ∧
    (f ≠ [] → u.portUp p = true → u.chip.d2dDown = false →
      (u.xptGroup (p.val / 8) = true → (u.client p).rxFrames = [] → exec (.frameReceived dt p f err) s = .next u) ∧
      (∀ g bad rest, u.xptGroup (p.val / 8) = true → (u.client p).rxFrames = (g, bad) :: rest →
        exec (.frameReceived dt p f err) s = .next
          ((u.updClient p fun c => { c with rxFrames := rest }).gotFrame p g { err with pcs := err.pcs || bad })) ∧
      (u.xptGroup (p.val / 8) = false → u.loopback p = 1 → (u.port p).looped = [] → exec (.frameReceived dt p f err) s = .next u) ∧
      (∀ g rest, u.xptGroup (p.val / 8) = false → u.loopback p = 1 → (u.port p).looped = g :: rest →
        exec (.frameReceived dt p f err) s = .next ((u.updPort p fun t => { t with looped := rest }).gotFrame p g err)) ∧
      (u.xptGroup (p.val / 8) = false → u.loopback p = 2 →
        exec (.frameReceived dt p f err) s = .next ((u.updEgress p fun e => { e with lastTx := f }).gotFrame p f err)) ∧
      (u.xptGroup (p.val / 8) = false → u.loopback p ≠ 1 → u.loopback p ≠ 2 →
        exec (.frameReceived dt p f err) s = .next (u.gotFrame p f err)))) ∧
  (∀ (s : State) (p : Nat) (f : List Byte) (err : RxErr),
    let v := (s.countLine p err).takeSeq p f.length (leNat (f.drop (f.length - 4)))
    let k := v.stamp p (s.port p).seq f
    let pp := { k.pp with version := 0, epoch := 0, length := 0, pairId := 0, claim := 0 }
    (err.jabber = true ∨ 16383 < f.length → s.gotFrame p f err = (v.bump (macCtr 8) p).captureAt 0 k.part pp f) ∧
    (err.jabber = false → f.length < 18 → s.gotFrame p f err = (v.bump (macCtr 4) p).captureAt 0 k.part pp f) ∧
    (err.jabber = false → 18 ≤ f.length → f.length ≤ 16383 → v.rxFlags p f err ≠ 0 →
      s.gotFrame p f err = v.badFrame p (s.port p).seq (v.rxFlags p f err) f) ∧
    (err.jabber = false → 18 ≤ f.length → f.length ≤ 16383 → v.rxFlags p f err = 0 →
      s.gotFrame p f err = if be16 f 12 = 0x8808 then (v.bumpPair (macCtr 0) p f.length).gotControl p f
        else (v.bumpPair (macCtr 0) p f.length).goodFrame p (s.port p).seq f err)) ∧
  (∀ (s : State) (dt : Nat) (p : Fin 48) (q : BitVec 16), let u := s.pass dt
    (u.portUp p = true → u.chip.d2dDown = false → u.loopback p ≠ 1 →
      ∃ v, v = ((u.takeControlSeq p).bumpPair (macCtr 0) p 64).bump (macCtr 13) p ∧
        exec (.pauseReceived dt p q) s = .next (if bit (v.macCfg p) 15 = true ∧ v.portUp p = true then v.setPause p 8 q.toNat else v)) ∧
    (u.portUp p = false ∨ u.chip.d2dDown = true ∨ u.loopback p = 1 → exec (.pauseReceived dt p q) s = .next u)) ∧
  (∀ (s : State) (dt : Nat) (p : Fin 48) (en : BitVec 8) (q : Vector (BitVec 16) 8), let u := s.pass dt
    (u.portUp p = true → u.chip.d2dDown = false → u.loopback p ≠ 1 →
      ∃ v, v = ((u.takeControlSeq p).bumpPair (macCtr 0) p 64).bump (macCtr 14) p ∧
        exec (.pfcReceived dt p en q) s = .next (if bit (v.macCfg p) 16 = true ∧ v.portUp p = true then
          (q.toList.map (·.toNat)).zipIdx.foldl (fun s (n, i) => if bit en.toNat i then s.setPause p i n else s) v else v)) ∧
    (u.portUp p = false ∨ u.chip.d2dDown = true ∨ u.loopback p = 1 → exec (.pfcReceived dt p en q) s = .next u)) ∧
  (∀ (s : State) (dt a e : Nat) (p : Fin 48) (cls : Option (Fin 8)), let u := s.pass dt
    (u.port p).pauses.find? ((cls.map (·.val)).getD 8) = some (a, e) → e ≤ u.cyc →
    exec (.pauseExpiry dt p cls) s = .next (u.endPause p ((cls.map (·.val)).getD 8) e)) ∧
  (∀ (s : State) (dt t0 : Nat) (p : Fin 48), let u := s.pass dt
    let f := u.macFlow p
    (u.port p).xoffSent = some t0 → u.pauseTx p ≠ 0 → t0 + u.quantaCyc p 0xFFFF / 2 ≤ u.cyc →
    (if bits f 12 12 < bits f 0 12 then bits f 12 12 else bits f 0 12 - 1) * 1024 < u.occupancy p →
    exec (.pauseResend dt p) s = .next ((u.updPort p fun t => { t with xoffSent := some u.cyc }).countPauseTx p 0xFFFF)) ∧
  (∀ (s : State) (dt w t0 : Nat) (p : Fin 48), let u := s.pass dt
    (u.port p).honorFrom = [] → (u.port p).downAt = some (w, t0) → (u.port p).interimAt.get 0 9 + 10 * cycMs ≤ u.cyc →
    exec (.ledgerExtendedInterim dt p) s = .next
      ((u.updPort p fun t => { t with interimAt := t.interimAt.put 0 9 u.cyc }).raiseExtended p 2 false 0xFF t0 u.now
        (u.outstandingBounds p 0xFF)))

/-- R97 to R115, R385. -/
def Obligations.TransportFramesBinsAndCommands : Prop :=
  (∀ (s : State) (dt : Nat) (level : Fin 240) (hits : List (Nat × Nat)), let u := s.pass dt
    let g := levelGroup level
    let r := u.runSeconds
    let a := r.level level
    let hm : NMap Nat := hits.foldl (fun m h => NMap.ins m h.1 h.2) []
    ((u.framerLive g = false ∨ u.levelExists level = false) → exec (.frameAlignCheck dt level hits) s = .next u) ∧
    (u.framerLive g = true → u.levelExists level = true →
      (a.inFrame = true → ∀ mf, hm.find? a.locked = some mf → exec (.frameAlignCheck dt level hits) s = .next (
        r.updLevel level fun a => { a with misses := 0, lastMf := mf })) ∧
      (a.inFrame = true → hm.find? a.locked = none → a.misses < 4 → exec (.frameAlignCheck dt level hits) s = .next (
        r.updLevel level fun a => { a with misses := a.misses + 1 })) ∧
      (a.inFrame = true → hm.find? a.locked = none → 4 ≤ a.misses →
        let v := r.levelSearch level
        let w := if level.val < 48 then (match v.portOfLane level with
          | some p => v.portToLock p 2
          | none => v) else v
        exec (.frameAlignCheck dt level hits) s = .next (w.refreshGroup g)) ∧
      (a.inFrame = false → let offs : NMap Unit := a.cands.foldl (fun m c => NMap.ins m c.1 ()) (hm.map fun h => (h.1, ()))
        exec (.frameAlignCheck dt level hits) s = .next (match searchFrame (decide (level.val < 48)) (r.ifCount g) hm offs a.cands [] with
          | .inl (off, mf) => ((r.updLevel level fun a => { inFrame := true, locked := off, lastMf := mf, lof := a.lof, since := r.cyc }).raiseLevel
              evXptOof level false).refreshGroup g
          | .inr new => r.updLevel level fun a => { a with cands := new })))) ∧
  (∀ (s : State) (dt : Nat) (level : Fin 240), let u := s.pass dt
    let a := u.level level
    exec (.lofDeclare dt level) s = .next (if u.framerLive (levelGroup level) = true ∧ u.levelExists level = true ∧ a.inFrame = false ∧
      a.lof = false ∧ a.since + 3 * cycMs ≤ u.cyc then ((u.runSeconds.updLevel level fun a => { a with lof := true }).raiseLevel evXptLof
        level true).refreshGroup (levelGroup level) else u) ∧
    exec (.lofClear dt level) s = .next (if a.inFrame = true ∧ a.lof = true ∧ a.since + 3 * cycMs ≤ u.cyc then
      ((u.runSeconds.updLevel level fun a => { a with lof := false }).raiseLevel evXptLof level false).refreshGroup (levelGroup level)
      else u)) ∧
  (∀ (s : State) (dt : Nat) (f : XptFrame), let u := s.pass dt
    let g := f.group.val
    let v := ((u.runSeconds.overhead f).justify f).pointer f
    let w := if f.layer = 7 then v else v.setDefects g f.layer f.index (v.seenDefects f)
    let z := if bit (w.entDefects g f.layer f.index) 0 = true ∧ f.layer = 1 then w.portToLock (w.lineOf f.index) 2 else w
    exec (.transportFrameReceived dt f) s = .next (
      if u.framerLive g = false ∨ u.entExists g f.layer f.index = false ∨ u.chip.d2dDown = true ∨
        f.layer = 7 ∧ u.clientKind (8 * g + f.index) = 2 then u
      else ((z.msiCheck f).memberFrame f).clientFrame f)) ∧
  (∀ (s : State) (f : XptFrame), let k := mkEnt f.group f.layer f.index
    let p := parityStep (bipDelay f.layer) (s.ent k).parity (bipOf (bipWidth f.layer (s.trib f.group f.index).vc4s) f.covered) f.bip
    let n := if f.layer = 7 then 0 else p.1
    let e := (s.overhead f).ent k
    e.beiPending = (if f.layer = 4 ∨ f.layer = 7 then (s.ent k).beiPending else (s.ent k).beiPending ++ [min n (beiCap f.layer)]) ∧
    e.secNe = (s.ent k).secNe + (if n = 0 then 0 else 1) ∧ e.secFrames = (s.ent k).secFrames + 1 ∧
    e.ttiRecv = (f.tti.map (· % 2 ^ (if f.layer = 4 then 128 else 512))).getD (s.ent k).ttiRecv ∧
    ∀ j, j ≠ k → (s.overhead f).ent j = s.ent j) ∧
  (∀ (s : State) (g layer ix d : Nat), s.setDefects g layer ix d =
    ((s.updEnt (mkEnt g layer ix) fun e => { e with defects := d }).raiseDefects g layer ix (s.entDefects g layer ix) d).refreshGroup g) ∧
  (∀ (s : State) (dt : Nat) (g : Fin 6) (layer index : Nat), let u := s.pass dt
    let head := u.outHead g layer index
    let v := u.updEnt (mkEnt g layer index) fun e =>
      { e with
        sent := e.sent + 1, lastBei := e.beiPending.headD 0, beiPending := e.beiPending.tail
        lastBdi := layer != 4 && layer != 7 && u.entFail g layer index
        out := if layer = 6 then u.outPath g index head else head }
    exec (.transportFrameSend dt g layer index) s = .next (if u.framerLive g = false ∨ u.entSends g layer index = false then u
      else if layer = 3 then v.outGmp (mkEnt g layer index) (gmpOfKind (v.trib g index).kind)
      else if layer = 7 then v.outClient (8 * g + index) else v)) ∧
  (∀ (s : State) (dt : Nat), let u := s.pass dt
    let n := secOf u.now - u.xpt.pmSec
    let v := if u.allMonitored = [] then u else u.seconds u.xpt.pmSec n
    exec (.pmSecond dt) s = .next (if secOf u.now ≤ u.xpt.pmSec then u else { v with xpt := { v.xpt with pmSec := secOf u.now } }) ∧
    exec (.pmBinStart dt) s = .next (u.runSeconds.allMonitored.foldl (fun (s : State) e => s.updEnt e (s.openEnt (secOf s.now)))
      u.runSeconds)) ∧
  (∀ (s : State) (k n : Nat), s.seconds k 0 = s ∧ s.seconds k (n + 1) = (s.allMonitored.foldl (fun (s : State) e =>
    s.updEnt e fun x => s.rollEnt (k + 1) ((s.openEnt k x).endSecond (entLayer e) (s.entBad e))) s).seconds (k + 1) n) ∧
  (∀ (s : State) (dt : Nat) (g : Fin 6) (day : Bool), let u := (s.pass dt).runSeconds
    (u.dueBins g day = [] → exec (.pmBinClosed dt g day) s = .next u) ∧
    (∀ k t, u.dueBins g day = k :: t → let k := t.foldl min k
      let v : State := { u with xpt := { u.xpt with ents := u.xpt.ents.map (finalEnt g day k) } }
      exec (.pmBinClosed dt g day) s = .next (v.raise (v.groupPart g) evPmBinClosed g (b2n day + k * 256)))) ∧
  (∀ a : Accepted xptOhSetSpec, let e := bits a.x 0 32
    exec (.xptOhSet a.i) a.s = .next (a.does (
      if a.t.entityOk e true = false ∨ bits a.x 32 32 ≠ 0 ∨ entLayer e = 4 ∧ bits a.x 192 384 ≠ 0 then .fail a.t stBadArg
      else if a.t.partOn = true ∧ a.t.groupPart (entGroup e) ≠ a.part then .fail a.t stProtected
      else .ok (a.t.updEnt e fun v => { v with ttiSent := bits a.x 64 512 })))) ∧
  (∀ a : Accepted xptOhReadSpec, let e := bits a.x 0 32
    exec (.xptOhRead a.i) a.s = .next (a.does (
      if a.t.entityOk e true = false ∨ bits a.x 32 32 ≠ 0 then .fail a.t stBadArg
      else if a.t.partOn = true ∧ a.t.groupPart (entGroup e) ≠ a.part then .fail a.t stProtected
      else .okResp a.t 0 (leBytes 64 (a.t.ent e).ttiRecv)))) ∧
  (∀ a : Accepted pmReadSpec, let e := bits a.x 0 32
    let num := bits a.x 48 8
    let h := a.t.ent e
    let l := if bit a.x 33 = true then (if bit a.x 32 = true then h.cur24 else h.cur15).toList
      else ((h.hist (bit a.x 32)).drop (bits a.x 40 8)).take num
    exec (.pmRead a.i) a.s = .next (a.does (
      if a.t.entityOk e false = false ∨ bits a.x 34 6 ≠ 0 ∨ bits a.x 56 8 ≠ 0 ∨
        (if bit a.x 33 = true then bits a.x 40 8 ≠ 0 ∨ num ≠ 0 else num < 1 ∨ 96 < num) then .fail a.t stBadArg
      else if a.t.partOn = true ∧ a.t.groupPart (entGroup e) ≠ a.part then .fail a.t stProtected
      else .okResp a.t l.length (l.flatMap (·.record e)))))

/-- R16, R188 to R192, R220 to R223, R281, R390, R391. -/
def Obligations.PuntsInjectsAndSwitchCellsMove : Prop :=
  (∀ (s : State) (dt : Nat) (fn : Fin 2) (ring : Fin 32) (p : Punt) (rest : List (Nat × Nat × Punt)), let u := s.pass dt
    let v : State := { u with byway := { u.byway with store := rest } }
    let g := v.ring fn (144 + ring)
    let n := ceilDiv (64 + p.pkt.data.length) (bufSize g)
    takePunt fn ring u.byway.store = some (p, rest) →
    (u.holds p.pkt.part = false → exec (.puntReservation dt fn ring) s = .next (v.puntNotClaimed p)) ∧
    (u.holds p.pkt.part = true → g.st = .running → g.fetchStop = false → u.canWrite fn = true → n ≤ g.posted.length →
      exec (.puntReservation dt fn ring) s = .next (v.deliverPunt fn ring n p)) ∧
    (u.holds p.pkt.part = true → (g.st ≠ .running ∨ g.fetchStop = true ∨ u.canWrite fn = false ∨ g.posted.length < n) →
      exec (.puntReservation dt fn ring) s = .next (v.ringShort fn ring p))) ∧
  (∀ (s : State) (dt : Nat) (fn : Fin 2) (ring : Fin 32), let u := s.pass dt
    takePunt fn ring u.byway.store = none → exec (.puntReservation dt fn ring) s = .next u) ∧
  (∀ (s : State) (dt : Nat) (fn : Fin 2) (ring : Fin 32) (data : Option (List Byte)) (e : BitVec 256) (rest : List (BitVec 256)),
    let u := s.pass dt
    let g := u.ring fn (176 + ring)
    let st := u.injectStatus (u.partOf fn) e.toNat data
    let v := (u.updRing fn (176 + ring) fun g =>
      { g with injects := rest, devIndex := (g.devIndex + 1) % 2 ^ 32
               injectOut := (fun l => l.drop (l.length - 2 ^ g.log2)) (g.injectOut ++ [injDone e st]) }).injectCount fn ring st data
    g.injects = e :: rest → g.st = .running → g.fetchStop = false → u.canWrite fn = true → u.chip.d2dDown = false →
    exec (.injectFrameRead dt fn ring data) s = .next (if st = stOk then v.injectFrame fn ring (u.partOf fn) (data.getD []) else v)) ∧
  (∀ (s : State) (dt : Nat) (slice : Fin 4) (k : Pkt) (rest : List Pkt), let u := s.pass dt
    let v := (u.updStaging slice fun _ => rest).pauseCheck k.pp.inPort
    let r := v.police k.sb.policer k.pp
    u.stagingOf slice = k :: rest → u.chip.d2dDown = false →
    (65536 < u.inBytes slice + k.data.length → exec (.stagingToLanding dt slice) s = .next u) ∧
    (u.inBytes slice + k.data.length ≤ 65536 → k.sb.polEn = false →
      exec (.stagingToLanding dt slice) s = .next (v.enterCore slice k)) ∧
    (u.inBytes slice + k.data.length ≤ 65536 → k.sb.polEn = true →
      exec (.stagingToLanding dt slice) s = .next (if r.2.2 = true then (r.1.capturePkt 3 k).dropRef k
        else r.1.enterCore slice { k with pp := r.2.1 }))) ∧
  (∀ (s : State) (dt : Nat), let u := s.pass dt
    let v := (List.range 30).foldl State.purgeInput u
    exec (.switchCellTime dt) s = .next (v.matching.pairs.foldl State.carryCell
      { v with switch := { v.switch with grantPtr := v.matching.grant, acceptPtr := v.matching.accept } })) ∧
  (∀ (s : State) (i o : Nat), let key := i * 64 + o
    (∀ x, s.switch.xfers.find? key = some x → s.carryCell (i, o) = s.moveCell x) ∧
    (s.switch.xfers.find? key = none → s.carryCell (i, o) = match (s.beginXfer (i, o)).switch.xfers.find? key with
      | some x => (s.beginXfer (i, o)).moveCell x
      | none => s.beginXfer (i, o))) ∧
  (∀ (s : State) (dt : Nat) (same : Bool), let u := s.pass dt
    let n := if same then u.chip.d2dFails + 1 else 0
    let v : State := { u with chip := { u.chip with d2dFails := n } }
    u.chip.d2dDown = false → exec (.d2dFlitCrcFail dt same) s = .next
      (if 16 ≤ n then ({ v with chip := { v.chip with d2dDown := true } }).raise 0 evD2dDown else v.bump ⟨0x16, 2, 0⟩ 0))

/-- R229, R230, R232, R238, R239, R241, R242, R244. What a CAP cell decides from CAP onwards, and from NO_COMMON after three changed
words, is the model's reading (its log says so). -/
def Obligations.FabricLinksNegotiateAndKeepAlive : Prop :=
  (∀ a : Accepted fabReachSpec, exec (.fabReachWrite a.i) a.s = .next (a.does (
    if bits a.x 12 20 ≠ 0 ∨ bits a.x 56 8 ≠ 0 then .fail a.t stBadArg
    else .ok { a.t with fabric := { a.t.fabric with reach := a.t.fabric.reach.put 0 (bits a.x 0 12) (bits a.x 32 24) } }))) ∧
  (∀ (s : State) (dt : Nat) (j : Fin 26) (word : BitVec 64), let u := s.pass dt
    let l := u.link j
    let w := word.toNat
    let g := u.goodCell j true
    (l.st = .down ∨ u.chip.d2dDown = true → exec (.capCellReceived dt j word) s = .next u) ∧
    (u.chip.d2dDown = false → l.st = .cap → let run := if l.capRun ≠ 0 ∧ l.capWord = w then l.capRun + 1 else 1
      let v := g.updLink j fun l => { l with capWord := w, capRun := run }
      exec (.capCellReceived dt j word) s = .next (if run = 3 then v.decideLink j w else v)) ∧
    (u.chip.d2dDown = false → l.st = .noCommon → let run := if l.changedRun ≠ 0 ∧ l.changed = w then l.changedRun + 1 else 1
      let v := g.updLink j fun l => { l with changed := w, changedRun := run }
      exec (.capCellReceived dt j word) s = .next (if w = l.word then g.updLink j fun l => { l with changedRun := 0 }
        else if run = 3 then v.toCap j else v)) ∧
    (u.chip.d2dDown = false → l.st = .up → exec (.capCellReceived dt j word) s = .next (if w = l.word then g else g.toCap j))) ∧
  (∀ (s : State) (dt : Nat) (j : Fin 26), let u := s.pass dt
    let l := u.link j
    exec (.capCellSend dt j) s = .next (if (l.st = .cap ∨ l.st = .noCommon) ∧ (∀ t, l.lastCap = some t → t + 10 * cycUs ≤ u.cyc) then
        (u.sendCell j (u.controlCell j 1 (u.capWord j))).updLink j fun l => { l with lastCap := some u.cyc }
      else u) ∧
    (u.hostUp = true → exec (.reneg dt 0 j) s = .next (
      if l.st = .noCommon ∨ l.st = .up then u.toCap j else u)) ∧
    exec (.creditSyncSend dt j) s = .next (if l.st = .up ∧ l.txIdle = false ∧ l.lastSync + 100 * cycUs ≤ u.cyc then
        (u.sendCell j (u.controlCell j 2 (l.sentUnits + l.returnedUnits * 2 ^ 32))).updLink j fun l => { l with lastSync := u.cyc }
      else u) ∧
    exec (.keepaliveSend dt j) s = .next (if l.st = .up ∧ l.txIdle = false ∧ l.lastSent + 100 * cycUs ≤ u.cyc then
      u.sendCell j (u.controlCell j 4 0) else u) ∧
    exec (.receiveTimeout dt j) s = .next (if l.st = .up ∧ l.rxIdle = false ∧ l.lastGood + cycMs ≤ u.cyc then u.linkDown j 1 else u) ∧
    exec (.idleEnter dt j) s = .next (if l.st = .up ∧ l.txIdle = false ∧ u.idleUs ≠ 0 ∧ l.lastSent + u.idleUs * cycUs ≤ u.cyc ∧
        u.txWaits j = false ∧ u.cyc < l.lastSync + 100 * cycUs then
        (u.sendCell j (u.controlCell j 3 0)).updLink j fun l => { l with txIdle := true } else u) ∧
    exec (.idleEnterReceived dt j) s = .next (if l.st = .up ∧ u.chip.d2dDown = false then (u.goodCell j true).updLink j fun l => { l with rxIdle := true } else u) ∧
    exec (.idleExit dt j) s = .next (if l.txIdle = true ∧ u.txWaits j = true then u.updLink j fun l => { l with txIdle := false } else u) ∧
    exec (.idleExitTimeout dt j) s = .next (if l.st = .up ∧ l.rxIdle = true then u.linkDown j 1 else u)) ∧
  (∀ (s : State) (dt : Nat) (j : Fin 26) (sent returned : BitVec 32), let u := s.pass dt
    let g := u.goodCell j true
    let d := (sent.toNat + 2 ^ 32 - (g.link j).unitsRecv) % 2 ^ 32
    let e := (returned.toNat + 2 ^ 32 - (g.link j).returnsRecv) % 2 ^ 32
    let v := if 0 < d ∧ d < 2 ^ 31 then g.updLink j fun l => { l with toReturn := l.toReturn + d, unitsRecv := sent.toNat } else g
    exec (.creditSyncReceived dt j sent returned) s = .next (if (u.link j).st ≠ .up ∨ u.chip.d2dDown = true then u
      else if 0 < e ∧ e < 2 ^ 31 then (v.addCredit j e).updLink j fun l => { l with returnsRecv := returned.toNat } else v)) ∧
  (∀ (s : State) (dt : Nat) (j : Fin 26), let u := (s.pass dt).noteCredit j
    ((u.link j).shortSince = none → exec (.fabCreditStall dt j) s = .next u) ∧
    (∀ t, (u.link j).shortSince = some t → exec (.fabCreditStall dt j) s = .next (
      if (u.link j).stalled = false ∧ t + u.stallCyc ≤ u.cyc then
        (u.updLink j fun l => { l with stalled := true }).raise 0 evFabCreditStall j else u)))

/-- R234 to R243, R246. -/
def Obligations.FabricCellsCarryPacketsAndCredit : Prop :=
  (∀ (s : State) (dt : Nat) (j : Fin 26), let u := (s.pass dt).noteCredit j
    let l := u.link j
    let owed := if l.toReturn = 0 then u else u.sendReturn j
    (l.st ≠ .up ∨ l.txIdle = true → exec (.fabricCellTransmit dt j) s = .next u) ∧
    (l.st = .up → l.txIdle = false →
      (∀ k bs, l.sending = some (k, bs) → exec (.fabricCellTransmit dt j) s = .next (
        if cellBytes l.version bs.length / 64 ≤ l.credit then u.sendData j k bs false else owed)) ∧
      (l.sending = none → exec (.fabricCellTransmit dt j) s = .next (
        if l.version = 1 ∧ l.toReturn ≠ 0 then u.sendReturn j
        else match u.pickPkt j with
          | none => owed
          | some k => (u.updOutput (linkOutput j) fun o => o.erase k).sendData j k (linkBytes l.version k) true)))) ∧
  (∀ (s : State) (dt : Nat) (j : Fin 26) (cell : List Byte) (err : CellErr), let u := s.pass dt
    let l := u.link j
    let c := u.countCell j err
    let v := if l.st = .up then l.version else 1
    let hdr := cellHeader v cell
    let g := c.goodCell j (hdrType hdr != 3)
    let r := g.gotReturn j (hdrReturn v hdr)
    let n := cell.length / 64
    exec (.dataCellReceived dt j cell err) s = .next (
      if l.st = .down ∨ u.chip.d2dDown = true then u
      else if err.lost = true ∨ hcrcGood v cell = false then c.bump (fabCtr 2) j
      else if cell.length ≠ cellLength v hdr then g.bump (fabCtr 2) j
      else if l.st ≠ .up then g
      else if hdrType hdr ≠ 0 then r
      else (r.updLink j fun l => { l with unitsRecv := (l.unitsRecv + n) % 2 ^ 32 }).takeCell j v hdr n
        (cell.drop (hdrBytes v)))) ∧
  (∀ (s : State) (j : Nat) (err : CellErr), s.countCell j err =
    let c := if err.corrCw = 0 then s else s.bump ⟨2, 1, 0⟩ (48 + j) err.corrCw
    let c := if err.uncorrCw = 0 then c else c.bump ⟨2, 1, 1⟩ (48 + j) err.uncorrCw
    (err.symErrs.take 4).zipIdx.foldl (fun s e => if e.1 = 0 then s else s.bump ⟨2, 0, 1⟩ (48 + 4 * j + e.2) e.1) c) ∧
  (∀ (s : State) (dt : Nat) (j : Fin 26) (src : Fin 4096), let u := s.pass dt
    ((u.link j).ctxs.find? src = none → exec (.reassemblyTimeout dt j src) s = .next u) ∧
    (∀ c, (u.link j).ctxs.find? src = some c → exec (.reassemblyTimeout dt j src) s = .next (
      if c.last + 100 * cycUs ≤ u.cyc then (u.reasmErr j c.units).updCtxs j (·.del src) else u))) ∧
  (∀ (s : State) (dt : Nat) (j : Fin 26) (kind : Fin 3) (units : Nat), let u := s.pass dt
    let g := u.goodCell j (kind != 0)
    exec (.idleOrCreditCellReceived dt j kind units) s = .next (if (u.link j).st = .down ∨ u.chip.d2dDown = true then u
      else if (g.link j).st = .up then g.gotReturn j units else g)) ∧
  (∀ (s : State) (j n : Nat), s.gotReturn j n = if n = 0 then s
    else (s.addCredit j n).updLink j fun l => { l with returnsRecv := (l.returnsRecv + n) % 2 ^ 32 })

/-- R117, R119, R121, R138, R142, R152, R161, R162, R384: tables. -/
def Obligations.TableCommandsStageDeleteAndRead : Prop :=
  (∀ a : Accepted tableWriteSpec, (a.t.tableCheck (a.s.cmdOf a.i a.d) a.x true false).1 ≠ stOk →
    exec (.tableWrite a.i) a.s = .next (a.ends a.t (a.t.tableCheck (a.s.cmdOf a.i a.d) a.x true false).1 0 [])) ∧
  (∀ a : Accepted tableWriteSpec, let c := a.s.cmdOf a.i a.d
    let key := tblKey (bits a.x 0 8) (a.t.tableCheck c a.x true false).2
    let ep := (a.t.stageEpoch c).1
    (a.t.tableCheck c a.x true false).1 = stOk → ((a.t.versions key).getLast?.all fun v => v.birth != ep) = true →
    (5 ≤ bits a.x 0 8 ∨ bits a.x 0 8 = 2) →
    exec (.tableWrite a.i) a.s = .next (if a.t.hasSpace c.part (bits a.x 0 8) (a.t.poolUsed c.part (bits a.x 0 8)) 1 = true then
        a.ends (a.t.setVersions key (stageWrite (a.t.versions key) ep (a.x / 2 ^ 128))) stOk 0 []
      else a.ends a.t stNoSpace 0 [])) ∧
  (∀ a : Accepted tableWriteSpec, let c := a.s.cmdOf a.i a.d
    let key := tblKey 3 (a.t.tableCheck c a.x true false).2
    let ep := (a.t.stageEpoch c).1
    (a.t.tableCheck c a.x true false).1 = stOk → ((a.t.versions key).getLast?.all fun v => v.birth != ep) = true → bits a.x 0 8 = 3 →
    exec (.tableWrite a.i) a.s = .next (if a.t.hasSpace c.part 3 (a.t.routeUsed c.part) (if bits a.x 140 4 = 4 then 2 else 3) = true then
        a.ends (a.t.setVersions key (stageWrite (a.t.versions key) ep (a.x / 2 ^ 128))) stOk 0 []
      else a.ends a.t stNoSpace 0 [])) ∧
  (∀ a : Accepted tableWriteSpec, let c := a.s.cmdOf a.i a.d
    let key := tblKey 4 (a.t.tableCheck c a.x true false).2
    let ep := (a.t.stageEpoch c).1
    (a.t.tableCheck c a.x true false).1 = stOk → ((a.t.versions key).getLast?.all fun v => v.birth != ep) = true → bits a.x 0 8 = 4 →
    exec (.tableWrite a.i) a.s = .next (if a.t.hasSpace c.part 4 (a.t.emUsed c.part) (emSlots (bits (a.x / 2 ^ 128) 0 2)) = true then
        a.ends ((a.t.setVersions key (stageWrite (a.t.versions key) ep (a.x / 2 ^ 128))).placeEm c.part key (bits (a.x / 2 ^ 128) 0 2)
          (bits (a.x / 2 ^ 128) 128 (8 * keyBytes (bits (a.x / 2 ^ 128) 0 2))) ep) stOk 0 []
      else a.ends a.t stNoSpace 0 [])) ∧
  (∀ a : Accepted tableWriteSpec, let c := a.s.cmdOf a.i a.d
    let key := tblKey 1 (a.t.tableCheck c a.x true false).2
    let bank := bits (a.x / 2 ^ 128) 0 4
    let ep := (a.t.stageEpoch c).1
    (a.t.tableCheck c a.x true false).1 = stOk → ((a.t.versions key).getLast?.all fun v => v.birth != ep) = true → bits a.x 0 8 = 1 →
    exec (.tableWrite a.i) a.s = .next (match a.t.tcamPlacement bank key (recPriority (a.x / 2 ^ 128)) ep with
      | .full => a.ends a.t stNoSpace 0 []
      | .move _ _ => a.waits (a.t.takeOrder c.part (a.t.stageEpoch c).2) (.tcamMove bank ep (a.t.stageEpoch c).2)
      | .slot i => a.ends ((a.t.putRow bank i key ep (a.x / 2 ^ 128)).setVersions key
          (stageWrite (a.t.versions key) ep (a.x / 2 ^ 128))) stOk 0 [])) ∧
  (∀ a : Accepted tableWriteSpec, let c := a.s.cmdOf a.i a.d
    let k := bits a.x 0 8
    let key := tblKey k (a.t.tableCheck c a.x true false).2
    let r := a.x / 2 ^ 128
    let ep := (a.t.stageEpoch c).1
    let s0 := a.t.replaceVersions key (unstage (a.t.versions key) ep)
    let s1 := s0.setVersions key (stageWrite (s0.versions key) ep r)
    let used := if k = 3 then a.t.routeUsed c.part else if k = 4 then a.t.emUsed c.part else a.t.poolUsed c.part k
    (a.t.tableCheck c a.x true false).1 = stOk → ((a.t.versions key).getLast?.any fun v => v.birth == ep) = true →
    (k ≠ 1 → exec (.tableWrite a.i) a.s = .next (if a.t.hasSpace c.part k used 0 = true then
        a.ends (if k = 4 then s1.placeEm c.part key (bits r 0 2) (bits r 128 (8 * keyBytes (bits r 0 2))) ep else s1) stOk 0 []
      else a.ends a.t stNoSpace 0 [])) ∧
    (k = 1 → exec (.tableWrite a.i) a.s = .next (match a.t.tcamPlacement (bits r 0 4) key (recPriority r) ep with
      | .full => a.ends ((s0.settleRow (bits r 0 4) key ep r 16384).setVersions key (stageWrite (s0.versions key) ep r)) stOk 0 []
      | .move _ _ => a.waits (a.t.takeOrder c.part (a.t.stageEpoch c).2) (.tcamMove (bits r 0 4) ep (a.t.stageEpoch c).2)
      | .slot i => a.ends ((s0.putRow (bits r 0 4) i key ep r).setVersions key (stageWrite (s0.versions key) ep r)) stOk 0 []))) ∧
  (∀ a : Accepted tableDeleteSpec, let c := a.s.cmdOf a.i a.d
    exec (.tableDelete a.i) a.s = .next (if (a.t.tableCheck c a.x false false).1 ≠ stOk then
        a.ends a.t (a.t.tableCheck c a.x false false).1 0 []
      else match stageDelete (a.t.versions (tblKey (bits a.x 0 8) (a.t.tableCheck c a.x false false).2)) (a.t.epochs c.part).cur
          (a.t.pendingEp c.part) with
        | none => a.ends a.t stBadArg 0 []
        | some vs => a.ends (a.t.replaceVersions (tblKey (bits a.x 0 8) (a.t.tableCheck c a.x false false).2) vs) stOk 0 [])) ∧
  (∀ a : Accepted tableReadSpec, let c := a.s.cmdOf a.i a.d
    exec (.tableRead a.i) a.s = .next (if (a.t.tableCheck c a.x false true).1 ≠ stOk then
        a.ends a.t (a.t.tableCheck c a.x false true).1 0 []
      else a.ends a.t stOk 0 (tableReadResp a.t c a.x))) ∧
  (∀ a : Accepted tcamBankFormatSpec, bits a.x 0 4 < 12 → bits a.x 4 4 = 0 → bits a.x 10 54 = 0 → a.t.partOn = false →
    exec (.tcamBankFormat a.i) a.s = .next (if a.t.lookup.bankRows.get [] (bits a.x 0 4) ≠ [] then a.ends a.t stBadArg 0 []
      else a.ends { a.t with lookup := { a.t.lookup with bankWidth := a.t.lookup.bankWidth.put 0 (bits a.x 0 4) (bits a.x 8 2) } }
        stOk 0 [])) ∧
  (∀ (s : State) (dt : Nat) (bank : Fin 12) (row : Fin 16384) (bad : Bool), let u := s.pass dt
    exec (.tcamScrub dt bank row bad) s = .next
      (if bit (u.reg 0x00A00010) 8 = true ∧ bad = true then u.tcamRepair (u.bankPart bank) bank row else u)) ∧
  (∀ (s : State) (dt fn r x ep order src dst : Nat) (run : Running) (l l' : List (Nat × Nat × Running)) (xs : List Nat) (bank : Fin 12),
    let u := s.pass dt
    let key := tcamKey bank (bits (x / 2 ^ 128) 16 14)
    let v := u.shiftRow bank src dst
    u.waiting = l ++ (fn, r, run) :: l' → (∀ w ∈ l, ∀ e o, w.2.2.wait ≠ .tcamMove bank e o) → run.wait = .tcamMove bank ep order →
    tableWriteSpec.split u run.desc.entries run.payloadLen run.payload = some xs → xs[run.doneEntries]? = some x →
    u.tcamPlacement bank key (recPriority (x / 2 ^ 128)) ep = .move src dst →
    exec (.tcamRowMove dt bank) s = .next (match v.tcamPlacement bank key (recPriority (x / 2 ^ 128)) ep with
      | .move _ _ => v
      | _ => (v.resume [tableWriteSpec] fn r).resumeWaits [epochDiscardSpec] Wait.isDiscard)) ∧
  (∀ a : Accepted parseGraphWriteSpec, bits a.x 1 3 = 0 → bits a.x 8 8 = 0 → bits a.x 48 16 = 0 →
    bits a.x 16 16 + bits a.x 32 16 ≤ graphEntries (bits a.x 4 4) →
    a.x / 2 ^ (8 * (8 + bits a.x 32 16 * graphBytes (bits a.x 4 4))) = 0 → a.t.partOn = false →
    exec (.parseGraphWrite a.i) a.s = .next (if bits a.x 0 1 = a.t.activeBank a.part then a.ends a.t stBadArg 0 []
      else a.ends { a.t with parse := { a.t.parse with graph := (List.range (bits a.x 32 16)).foldl (fun g i =>
        NMap.put g 0 (graphKey (bits a.x 0 1) (bits a.x 4 4) (bits a.x 16 16 + i))
          (bits a.x (64 + 8 * graphBytes (bits a.x 4 4) * i) (8 * graphBytes (bits a.x 4 4)))) a.t.parse.graph } } stOk 0 [])) ∧
  (∀ a : Accepted parseGraphActivateSpec, bits a.x 1 63 = 0 → a.t.partOn = false →
    exec (.parseGraphActivate a.i) a.s = .next (if a.t.graphOk (bits a.x 0 1) a.part = true then
        a.ends { a.t with parse := { a.t.parse with activeA := bits a.x 0 1, activeB := bits a.x 0 1 } } stOk 0 []
      else a.ends a.t stBadArg 0 []))

/-- R141, R143, R144, R148, R149: epochs. -/
def Obligations.EpochCommandsCommitStallAndReclaim : Prop :=
  (∀ a : Accepted epochCommitSpec, let p := a.part
    let e := a.t.epochs p
    let pend := a.t.pendingEp p
    let t := a.t.updEpochs p fun e => { e with nextOrder := max e.nextOrder (e.nextOrder + 1) }
    a.t.waitOf a.i.fn a.i.ring = none → t.commits p = [] → t.writing p = [] →
    (a.t.changes p pend = 0 → a.t.writing p = [] →
      exec (.epochCommit a.i) a.s = .next (a.ends t stOk (t.epochNum p e.cur) [])) ∧
    (0 < a.t.changes p pend → e.live pend ≤ t.liveLimit →
      exec (.epochCommit a.i) a.s = .next (a.ends (t.commitNow p pend).1 stOk
        ((t.commitNow p pend).1.epochNum p pend + (t.commitNow p pend).2 % 2 ^ 28 * 2 ^ 16) [])) ∧
    (0 < a.t.changes p pend → t.liveLimit < e.live pend →
      exec (.epochCommit a.i) a.s = .next (a.waits t (.commit (some pend) e.nextOrder (some t.cyc) false)))) ∧
  (∀ (s : State) (dt order : Nat) (fn : Fin 2) (ring : Fin 64) (claim since : Option Nat) (b : Bool), let u := s.pass dt
    u.waitOf fn ring = some (.commit claim order since b) →
    exec (.epochCommitResume dt fn ring) s = .next (u.resume [epochCommitSpec] fn ring)) ∧
  (∀ (s : State) (dt order t0 : Nat) (fn : Fin 2) (ring : Fin 64) (claim : Option Nat) (run : Running), let u := s.pass dt
    (u.ring fn ring).running = some run → run.wait = .commit claim order (some t0) false → t0 + 100 * cycMs ≤ u.cyc →
    exec (.epochStall dt fn ring) s = .next
      ((u.updRing fn ring fun g => { g with running := some { run with wait := .commit claim order (some t0) true } }).raise (u.partOf fn)
        evEpochStall (u.epochs (u.partOf fn)).oldest)) ∧
  (∀ (s : State) (dt order : Nat) (fn : Fin 2) (ring : Fin 64) (claim since : Option Nat) (run : Running), let u := s.pass dt
    (u.ring fn ring).running = some run → run.wait = .commit claim order since true → exec (.epochStall dt fn ring) s = .next u) ∧
  (∀ a : Accepted epochDiscardSpec, a.t.waitOf a.i.fn a.i.ring = none →
    (∀ w ∈ a.t.writing a.part, (a.t.epochs a.part).nextOrder ≤ w.2) →
    ∃ es, es = ((a.t.entriesOf a.part).filter fun (_, vs) => changedAt vs (a.t.pendingEp a.part)) ∧
      exec (.epochDiscard a.i) a.s = .next (a.ends
        (es.foldl (fun s (k, vs) => s.replaceVersions k (unstage vs (a.t.pendingEp a.part))) a.t) stOk es.length [])) ∧
  (∀ a : Accepted epochDiscardSpec, let n := (a.t.epochs a.part).nextOrder
    a.t.waitOf a.i.fn a.i.ring = none → (∃ w ∈ a.t.writing a.part, w.2 < n) →
    exec (.epochDiscard a.i) a.s = .next (a.waits (a.t.takeOrder a.part n) (.discard n))) ∧
  (∀ (s : State) (dt : Nat) (p : Fin 2), let u := s.pass dt
    let o := (u.epochs p).oldest
    (u.epochs p).reclaimed < o → exec (.versionReclaim dt p) s = .next
      (((u.entriesOf p).foldl (fun s (k, vs) => if (vs.filter fun v => v.death.all (o < ·)).length = vs.length then s
        else s.replaceVersions k (vs.filter fun v => v.death.all (o < ·))) u).updEpochs p fun e => { e with reclaimed := o })) ∧
  (∀ (s : State) (dt : Nat) (p : Fin 2), let u := s.pass dt
    (u.epochs p).oldest ≤ (u.epochs p).reclaimed → exec (.versionReclaim dt p) s = .next u)

/-- R195 to R199, R256: multicast. -/
def Obligations.MulticastCommandsAndStagesMakeCopies : Prop :=
  (∀ a : Accepted mcastGroupSpec, let e := bits a.x 64 128
    let g := bits a.x 0 20
    let t := ({ a.t with caravan := { a.t.caravan with groups := a.t.caravan.groups.put 0 g e } }).recRewritten structGroup g
    let chains := (t.caravan.copies.filter fun k => k.2.2.1 == g).map fun k => k.2.1
    a.t.partOn = false →
    exec (.mcastGroupWrite a.i) a.s = .next (
      if bits a.x 20 44 ≠ 0 ∨ bits e 61 67 ≠ 0 ∨ 16384 < grpCount e ∨ 8388608 < grpBase e + grpCount e then a.ends a.t stBadArg 0 []
      else if chains.isEmpty = true then a.ends t stOk 0 [] else a.waits t (.mcast g (a.t.caravan.groups.get 0 g) chains))) ∧
  (∀ a : Accepted mcastReadSpec, a.t.partOn = false →
    exec (.mcastGroupRead a.i) a.s = .next (if bits a.x 20 44 ≠ 0 then a.ends a.t stBadArg 0 []
      else a.ends a.t stOk 0 (leBytes 16 (a.t.caravan.groups.get 0 (bits a.x 0 20))))) ∧
  (∀ a : Accepted mcastMembersSpec, a.t.partOn = false → bits a.x 23 9 = 0 → bits a.x 45 19 = 0 →
    bits a.x 0 23 + bits a.x 32 13 ≤ 8388608 → (∀ e ∈ memberList a.x, bits e.2 0 8 < 48) →
    exec (.mcastMembersWrite a.i) a.s = .next (a.ends ((memberList a.x).foldl (fun (s : State) e =>
      ({ s with caravan := { s.caravan with members := s.caravan.members.put 0 e.1 e.2 } }).recRewritten structMember e.1) a.t)
      stOk 0 [])) ∧
  (∀ a : Accepted mcastEsetSpec, a.t.partOn = false →
    exec (.mcastEsetWrite a.i) a.s = .next (if bits a.x 16 48 ≠ 0 then a.ends a.t stBadArg 0 []
      else a.ends (({ a.t with caravan := { a.t.caravan with
        esets := a.t.caravan.esets.put 0 (bits a.x 0 16) (bits a.x 64 4096) } }).recRewritten structEset (bits a.x 0 16)) stOk 0 [])) ∧
  (∀ (s : State) (dt i : Nat) (rest : List Nat), let u := s.pass dt
    let v : State := { u with caravan := { u.caravan with first := rest } }
    (u.caravan.first = [] → exec (.caravanFirstStage dt) s = .next u) ∧
    (u.caravan.first = i :: rest → exec (.caravanFirstStage dt) s = .next (match (v.inputOf i).find? (·.first) with
      | some k => v.replicate i k
      | none => v))) ∧
  (∀ (s : State) (i : Nat) (k : Pkt), let r := (s.countNoCopy k).makeCopies i (s.firstCopies k)
    let l := (if k.goesOn = true then [{ k with sb := {}, first := false }] else []) ++ r.2
    let g := if l.length ≤ 1 then 0 else r.1.caravan.nextGrp
    let v : State := { r.1 with caravan := { r.1.caravan with nextGrp := r.1.caravan.nextGrp + 1 } }
    let w := v.updInput i fun q => q.takeWhile (· != k) ++ l.map (fun c => { c with grp := g }) ++ (q.dropWhile (· != k)).drop 1
    s.replicate i k = if k.goesOn = true then w else w.dropRef k) ∧
  (∀ (s : State) (dt w : Nat) (k : Pkt) (rest : List (Nat × Pkt)), let u := s.pass dt
    let v : State := { u with caravan := { u.caravan with second := rest } }
    let e := v.groupEntry k.pp.dest
    u.caravan.second = (w, k) :: rest →
    ((grpValid e = false ∨ grpCount e = 0) →
      exec (.caravanSecondStage dt) s = .next (((v.bump (groupCtr 4) k.pp.dest).capturePkt 10 k).dropRef k)) ∧
    (grpValid e = true → grpCount e ≠ 0 → (v.allocChain (grpPool e) (roomsOf k.data.length)).2 = none →
      exec (.caravanSecondStage dt) s = .next ((((v.allocChain (grpPool e) (roomsOf k.data.length)).1.bump (groupCtr 3) k.pp.dest
        (grpCount e)).capturePkt 10 k).dropRef k)) ∧
    (∀ c, grpValid e = true → grpCount e ≠ 0 → (v.allocChain (grpPool e) (roomsOf k.data.length)).2 = some c →
      ∃ y r, y = (v.allocChain (grpPool e) (roomsOf k.data.length)).1.updChain c (fun h => { h with share := grpCount e }) ∧
        r = (y.groupMembers e).foldl (fun (x : State × List (Nat × Nat × Nat × Pkt)) (m : Option Nat) =>
          match m with
          | none => (((x.1.bump (groupCtr 4) k.pp.dest).releaseChain c agentCaravan), x.2)
          | some m => (x.1.takeRef k.part k.ep, x.2 ++ [(w, c, k.pp.dest, x.1.memberCopy k m)])) (y, y.caravan.copies) ∧
        exec (.caravanSecondStage dt) s = .next (if (r.2.any fun e => e.2.1 == c) = true then
            { r.1 with caravan := { r.1.caravan with copies := r.2 } }
          else { r.1 with caravan := { r.1.caravan with copies := r.2 } }.dropRef k))) ∧
  (∀ (s : State) (dt c g : Nat) (w : Fin 8) (k : Pkt) (rest : List (Nat × Nat × Nat × Pkt)), let u := s.pass dt
    takeCopy w u.caravan.copies = some ((c, g, k), rest) →
    (u.evalSlot w k.pp.queue = none → exec (.ledgerAdmission dt w) s = .next u) ∧
    (∀ j, u.evalSlot w k.pp.queue = some j → exec (.ledgerAdmission dt w) s = .next
      (((({ u with caravan := { u.caravan with copies := rest } }).evaluated j w k.pp.queue).decideCopy c g k).endReplications))) ∧
  (∀ (s : State) (dt : Nat) (w : Fin 8) (k : Pkt) (rest : List Pkt), let u := s.pass dt
    let v := u.updOutput (24 + w) fun _ => rest
    takeCopy w u.caravan.copies = none → u.outputOf (24 + w) = k :: rest →
    (k.pp.kind = kindMulticast → exec (.ledgerAdmission dt w) s = .next (v.pushSecond w k)) ∧
    (k.pp.kind ≠ kindMulticast → u.evalSlot w k.pp.queue = none → exec (.ledgerAdmission dt w) s = .next u) ∧
    (∀ j, k.pp.kind ≠ kindMulticast → u.evalSlot w k.pp.queue = some j →
      exec (.ledgerAdmission dt w) s = .next ((v.evaluated j w k.pp.queue).offer none k).1)) ∧
  (∀ (s : State) (dt : Nat) (w : Fin 8), let u := s.pass dt
    takeCopy w u.caravan.copies = none → u.outputOf (24 + w) = [] → exec (.ledgerAdmission dt w) s = .next u)

/-- R204, R209, R211 to R217: The Inn, while PARTITION is not ON for the commands. -/
def Obligations.InnCommandsSpillPullAndAudit : Prop :=
  (∀ a : Accepted innPoolSetSpec, a.t.partOn = false → bits a.x 5 3 = 0 → bits a.x 37 3 = 0 → bits a.x 56 8 = 0 →
    (16 ≤ bits a.x 40 16 ∨ ∀ q ∈ a.t.tm.queues, q.2.spillEn = true → q.2.pool ≠ bits a.x 0 5) →
    exec (.innPoolSet a.i) a.s = .next (if (a.t.roomRange a.part).2 < a.t.poolSum a.part (bits a.x 0 5) (bits a.x 8 29) then
        a.ends a.t stNoSpace 0 []
      else a.ends (a.t.updPool (bits a.x 0 5) fun q => { q with rooms := bits a.x 8 29, reserve := bits a.x 40 16 }) stOk 0 [])) ∧
  (∀ a : Accepted innPoolSetSpec, (bits a.x 5 3 ≠ 0 ∨ bits a.x 37 3 ≠ 0 ∨ bits a.x 56 8 ≠ 0) →
    exec (.innPoolSet a.i) a.s = .next (a.ends a.t stBadArg 0 [])) ∧
  (∀ a : Accepted innQueueSetSpec, let q := bits a.x 0 20
    let t := a.t.updQueue q fun u => { u with pool := bits a.x 24 5, spillEn := bit a.x 29, spillPages := bits a.x 32 20
                                              pullAhead := bits a.x 52 8, markKib := bits a.x 64 24 }
    let lim := t.pullLimit (a.t.queuePart q)
    a.t.partOn = false →
    exec (.innQueueSet a.i) a.s = .next (if innQueueOk a.t a.x = false then a.ends a.t stBadArg 0 []
      else if bit a.x 29 = true ∧ lim < t.spillSum (a.t.queuePart q) false then a.ends a.t stOvercommit 0 []
      else if bit a.x 29 = true ∧ lim < t.spillSum (a.t.queuePart q) true then a.waits a.t .capacity else a.ends t.landed stOk 0 [])) ∧
  (∀ a : Accepted innAuditSpec, exec (.innAudit a.i) a.s = .next (a.waits a.t .audit)) ∧
  (∀ (s : State) (dt : Nat) (fn : Fin 2) (ring : Fin 64), let u := s.pass dt
    let live := u.inn.chains.flatMap fun (c, _) => u.chainRooms c
    let back := u.inn.quarantined.filter fun (r, p) =>
      u.poolPart p == u.partOf fn && !live.contains r && !u.roomRetired r
    let v : State := { u with inn := { u.inn with quarantined := u.inn.quarantined.filter fun e => !back.contains e } }
    u.waitOf fn ring = some .audit →
    exec (.innAuditDone dt fn ring) s = .next ((((back.foldl (fun (s : State) (r, p) => s.returnRoom p r false) v).lowerQuarantined (u.partOf fn)
      back.length)).endWait fn ring stOk 0 back.length [])) ∧
  (∀ (s : State) (dt : Nat) (q : Fin 1048576) (out : Fin 3), let u := s.pass dt
    let k := u.queue q
    let part := u.queuePart q
    (u.isOn .cellar = false ∨ k.spillEn = false ∨ k.depth ≤ k.spillPages * 4096 ∨ k.tailRooms < 16 ∨ k.allRooms < 16 * k.spillPages + 16 →
      exec (.cellarSpill dt ⟨q, out⟩) s = .next u) ∧
    (u.isOn .cellar = true → k.spillEn = true → k.spillPages * 4096 < k.depth → 16 ≤ k.tailRooms → 16 * k.spillPages + 16 ≤ k.allRooms →
      (u.findPage part q = none → exec (.cellarSpill dt ⟨q, out⟩) s = .next (u.spillBlocked part q)) ∧
      (∀ page, u.findPage part q = some page → let v := u.spillPage part q page out
        exec (.cellarSpill dt ⟨q, out⟩) s = .next (
          if u.trafficFits part 0 32768 = false ∨ u.pullBefore part none = true ∨ u.spillsNow part q = false then u
          else if v.findPage part q = none then v.cellarState part true else v)))) ∧
  (∀ (s : State) (part q page out : Nat), let u := s.queue q
    let from_ := if u.cpages.isEmpty then 16 * u.spillPages else u.hRooms + u.cRooms
    let h := if u.cpages.isEmpty then 16 * u.spillPages else u.hRooms
    let v : State := { s.drawn with inn := { s.inn with
        pages := s.inn.pages.ins page q, pageChan := s.inn.pageChan.put 7 part (page % 8), spillTurn := s.inn.spillTurn.ins part q } }
    let w := (unitsIn h from_ (from_ + 16) 0 u.pkts).zipIdx.foldl (fun (s : State) ((k, n, hIn), i) =>
      let l := s.chainRooms k.chain
      let r := s.readChain part k.chain ((l.drop hIn).take n) (if i = 0 then out else 0)
      let x := if r.2 = true then r.1.updQueue q fun u =>
          { u with pkts := u.pkts.map fun p => if p.chain = k.chain then { p with poisoned := true } else p } else r.1
      if 1 < (x.chain k.chain).share then x
      else (x.linkRooms k.chain (l.take hIn ++ l.drop (hIn + n))).freeRooms k.chain agentInn ((l.drop hIn).take n))
      ((v.noteTraffic part 0 32768).touch (v.pageUnit page))
    s.spillPage part q page out = (w.updQueue q fun x =>
      { x with cpages := x.cpages ++ [(page, 16)], tRooms := x.tailRooms - 16, blocked := x.blocked - 1 }).bump (innPart 3) part) ∧
  (∀ (s : State) (dt page n : Nat) (q : Fin 1048576) (out : Fin 3) (rest : List (Nat × Nat)), let u := s.pass dt
    let k := u.queue q
    let part := u.queuePart q
    let needs := u.pullNeeds k n
    let o := if u.inn.poisonPages.contains page = true then 2 else out.val
    k.cpages = (page, n) :: rest → k.hRooms < 16 * k.pullAheadActs →
    (u.pullShort needs ≠ [] → k.pullStalled = false →
      exec (.pullBack dt q out) s = .next
        (((u.pullShort needs).foldl (fun s p => s.bump ⟨0x0E, 0, 1⟩ p) u).updQueue q fun x => { x with pullStalled := true })) ∧
    (u.pullShort needs ≠ [] → k.pullStalled = true → exec (.pullBack dt q out) s = .next u) ∧
    (u.pullShort needs = [] → u.trafficFits part 1 32768 = false ∨ u.pullBefore part (some k) = true →
      exec (.pullBack dt q out) s = .next u) ∧
    (u.pullShort needs = [] → u.trafficFits part 1 32768 = true → u.pullBefore part (some k) = false →
      ∃ w hit, hit = (unitsIn k.hRooms k.hRooms (k.hRooms + n) 0 k.pkts).map (·.1) ∧
        w = (needs.foldl (fun (s : State) (c, i, m) => s.growChain c i m) (u.noteTraffic part 1 32768)).updQueue q (fun x =>
          { x with
            cpages := rest, pullStalled := false, tRooms := if rest.isEmpty then 0 else x.tRooms
            pkts := if o = 2 then x.pkts.map fun p => if hit.contains p then { p with poisoned := true } else p else x.pkts }) ∧
        exec (.pullBack dt q out) s = .next
          (((w.readOne part (w.pageUnit page) structPage page o).freePage q page (o == 2)).bump (innPart 4) part))) ∧
  (∀ (s : State) (dt : Nat) (q : Fin 1048576) (out : Fin 3), let u := s.pass dt
    ((u.queue q).cpages = [] ∨ 16 * (u.queue q).pullAheadActs ≤ (u.queue q).hRooms) → exec (.pullBack dt q out) s = .next u)

/-- R297 to R307, R440. -/
def Obligations.MemoryControllersTrainRefreshAndScrub : Prop :=
  (∀ (s : State) (dt : Nat) (k : Fin 4) (ok : Bool), let u := s.pass dt
    let v := (List.range 4).foldl (fun s g => s.domainOn (184 + 4 * k.val + g)) (u.updStack k fun h => { h with st := 3, boot := false })
    exec (.hbmTrainingDone dt k ok) s = .next (if (u.stack k).boot = false then u
      else if ok = true then (v.startUnits ((List.range 32).map (32 + 32 * k.val + ·)) ((List.range 16).map (8 + 16 * k.val + ·))).refreshRooms.autoOn
      else (u.updStack k fun h => { h with st := 4, boot := false }).raise 0 evMemStackFail k)) ∧
  (∀ (s : State) (dt : Nat) (c : Fin 8) (dimms ranks : Fin 3) (gib : Fin 129) (conforms readable dense : Bool), let u := s.pass dt
    exec (.dimmProbeDone dt c dimms ranks gib conforms readable dense) s = .next (if (u.xm c).probed = true then u
      else u.updXm c fun x => { x with
        probed := true, st := if dimms.val = 0 then 0 else 1, dimms := dimms, ranks := if dimms.val = 0 then 0 else ranks.val, dense := dense
        conforms := conforms && (ranks.val == 1 || ranks.val == 2) && decide (gib.val ≤ 128), readable := readable, dimmGib := gib })) ∧
  (∀ a : Accepted memTrainSpec, let m := bits a.x 0 8
    let u := ((List.range 8).filter fun c => bit m c).foldl (fun (s : State) c => let v := s.domainSwitch (200 + c) true
      if (v.xm c).dimms = 0 then v
      else v.updXm c fun x => { x with st := 2, cause := 0, gib := 0, map := v.regF (0x02000000 + 0x20 * c) 0 2 }) a.t
    exec (.memTrain a.i) a.s = .next (a.does (
      if bits a.x 8 56 ≠ 0 ∨ m = 0 then .fail a.t stBadArg
      else if a.t.partOn = true ∧ m &&& chanMaskOf (1 - a.part) ≠ 0 then .fail a.t stProtected
      else if (a.t.mode .cellar).st ≠ .off then .fail a.t stBadArg
      else .wait u (.memTrain m)))) ∧
  (∀ (s : State) (dt : Nat) (fn : Fin 2) (ring : Fin 64) (margin m : Nat), let u := s.pass dt
    let l := (List.range 8).filter fun c => bit m c
    let v := l.foldl (fun s c => s.trainChannel c (bit margin c)) u
    let failed := l.filter fun c => (v.xm c).st == 4
    u.waitOf fn ring = some (.memTrain m) →
    exec (.memTrainDone dt fn ring margin) s = .next (if (l.any fun c => (u.domain (200 + c)).st != .on) = true then u
      else match failed with
        | [] => v.endWait fn ring stOk 0 0 []
        | c :: _ => v.endWait fn ring stMemErr 0 ((failed.map (2 ^ ·)).foldl (· + ·) 0 + (v.xm c).cause * 256) [])) ∧
  (∀ (s : State) (dt : Nat) (n : Fin 20) (t : Int), let u := s.pass dt
    let v : State := { u with mem := { u.mem with readAt := u.mem.readAt.put 0 n (u.readPeriod n) } }
    let r := 4 * ((n.val - 4) / 2) + 2 * ((n.val - 4) % 2)
    exec (.temperatureReading dt n t) s = .next (if u.readPeriod n ≤ u.mem.readAt.get 0 n then u
      else if n.val < 4 then (if v.readingHeld n = true then v.updStack n fun h => { h with deferred := some t } else v.readStack n t)
      else if (v.xm ((n.val - 4) / 2)).dimms ≤ (n.val - 4) % 2 then v
      else ((v.setTemp n t).readUnits [r] t).readUnits [r + 1] t)) ∧
  (∀ (s : State) (dt : Nat) (k : Fin 160), let u := s.pass dt
    let r := u.unit k
    exec (.refreshDue dt k) s = .next (if u.unitLive k = false ∨ u.cyc < r.dueAt + r.trefi then u
      else u.updUnit k fun r => let r := { r with dueAt := r.dueAt + r.trefi }
        if r.burst ≠ 0 then { r with burstDue := r.burstDue + 1 } else { r with debt := min r.limit (r.debt + 1) }) ∧
    exec (.refreshIssue dt k) s = .next (if u.unitLive k = true ∧ r.debt ≠ 0 ∧ r.burst = 0 then
      (u.updUnit k fun r => { r with debt := r.debt - 1 }).tryCool k else u) ∧
    exec (.refreshBurstEnd dt k) s = .next (if r.burst = 0 ∨ u.cyc < r.burstAt + r.burst * u.refreshCyc k then u
      else ((u.updUnit k fun r => { r with burst := 0, burstDue := 0, debt := r.burstDue }).tryCool k).takeDeferred) ∧
    exec (.powerDownEntry dt k) s = .next (if u.unitLive k = true ∧ u.pdEn k = true ∧ r.powerDown = false ∧
      r.lastAccess + u.pdCyc k ≤ u.cyc then u.updUnit k fun r => { r with powerDown := true } else u)) ∧
  (∀ (s : State) (dt : Nat) (ch : Fin 72), let u := s.pass dt
    let v : State := { u with mem := { u.mem with
        pauses := u.mem.pauses.ins ch u.cyc, lastPause := u.mem.lastPause.ins ch u.cyc
        lastBuf := if 40 ≤ ch.val then some u.cyc else u.mem.lastBuf } }
    exec (.retrainingPause dt ch) s = .next (if bit (u.reg 0x02000200) 16 = true ∧ u.chanLive ch = true ∧ u.mem.pauses.find? ch = none ∧
      u.pauseAllowed ch = true ∧ u.mem.lastPause.get 0 ch + u.retrainCyc ≤ u.cyc then v.bump ⟨0x13, 2, 0⟩ ch else u) ∧
    (∀ low : Bool, exec (.retrainingPauseEnd dt ch low) s = .next (if u.mem.pauses.find? ch = none then u
      else if low = true then (u.endRetrain ch).raise 0 evMemRetrainWarn ch else u.endRetrain ch))) ∧
  (∀ (s : State) (dt : Nat) (k : Fin 160) (addr kind : Nat) (outcome : Fin 3), let u := s.pass dt
    let v := (u.updUnit k fun r => { r with powerDown := false, lastAccess := u.cyc }).noteScrub k
    exec (.memScrubRead dt k addr kind outcome) s = .next (
      if bit (u.reg 0x02000204) 8 = false ∨ u.unitLive k = false ∨ u.unitHeld k = true ∨ u.locatedIn kind addr k = false ∨
        u.scrubOpen k = false then u
      else if outcome = 0 then v else if outcome = 1 then v.bumpUnit k 0 else v.scrubUe k addr kind)) ∧
  (∀ (s : State) (k : Nat), s.unitHeld k = true ↔ (s.unit k).burst ≠ 0 ∨ s.mem.pauses.find? (unitChannel k) ≠ none)

/-- R261, R262, R265 to R269: the Ledger's commands, and the instant at which a reduction's rate is given up. -/
def Obligations.LedgerCommands : Prop :=
  (∀ a : Accepted ledgerClassSpec, let v := bits a.x 32 32
    exec (.ledgerClassSet a.i) a.s = .next (a.does (
      if ¬ (bits a.x 4 4 = 0 ∧ bits a.x 9 23 = 0 ∧ (bit a.x 8 = true → bits a.x 0 4 = 0) ∧
          (if bit a.x 8 = true then 100000 else 2000) ≤ v ∧ v ≤ 500000000) then .fail a.t stBadArg
      else if bit a.x 8 = true then
        if a.t.isOn .cellar = false ∧ a.t.classAbove a.part v = true then .fail a.t stOvercommit
        else .ok { a.t with tm := { a.t.tm with hbmTime := a.t.tm.hbmTime.put 0 a.part v } }.landed
      else .ok { a.t with tm := { a.t.tm with deadlines := a.t.tm.deadlines.put 0 (a.part * 16 + bits a.x 0 4) v } }.landed))) ∧
  (∀ a : Accepted ledgerPortSpec, let p := bits a.x 0 8
    exec (.ledgerPortSet a.i) a.s = .next (a.does (
      if 48 ≤ p ∨ signed 8 (bits a.x 8 8) < -64 ∨ bits a.x 32 32 ≠ 0 then .fail a.t stBadArg
      else if a.t.partOn = true ∧ a.t.portPart p ≠ a.part then .fail a.t stProtected
      else .ok (a.t.updEgress p fun e => { e with oPort := signed 8 (bits a.x 8 8), downHold := bits a.x 16 16 }).landed))) ∧
  (∀ a : Accepted ledgerQueueSpec, let n := bits a.x 0 20
    let g := bits a.x 32 32
    let sync := match a.t.queuePort n with
      | none => a.t
      | some p => a.t.syncV p
    let new := sync.updQueue n fun (u : Queue) =>
      { u with dclass := bits a.x 24 4, refuse := bit a.x 28, gRate := g, spillQ := bits a.x 64 20, qlimit := bits a.x 96 24
               held := if g < u.gRate ∧ a.t.follower < u.horizon then (u.gRate, u.horizon) :: u.held.filter (fun h => decide (a.t.follower < h.2))
                 else u.held.filter (fun h => decide (a.t.follower < h.2)) }
    let after := match a.t.queuePort n, (a.t.queue n).pkts with
      | some p, k :: _ => if a.t.heldRate (a.t.queue n) = 0 then new.tagQueue p n k.pkt.pp.length else new
      | _, _ => new
    exec (.ledgerQueueSet a.i) a.s = .next (a.does (
      if a.t.ledgerQueueOk a.x = false then .fail a.t stBadArg
      else if a.t.partOn = true ∧ (a.t.queuePart n ≠ a.part ∨ bit a.x 28 = true ∧ a.t.queuePart (bits a.x 64 20) ≠ a.part) then
        .fail a.t stProtected
      else if g = (a.t.queue n).gRate ∨ after.ratesOk true = true then .ok after.landed
      else if after.ratesOk false = true then .wait a.t .capacity
      else .fail a.t stOvercommit))) ∧
  (∀ (s : State) (x : Nat), s.ledgerQueueOk x = true ↔
    bits x 20 4 = 0 ∧ bits x 29 3 = 0 ∧ bits x 84 12 = 0 ∧ bits x 120 8 = 0 ∧
    (bit x 28 = true → bits x 64 20 ≠ bits x 0 20 ∧ (s.queue (bits x 64 20)).gRate = 0 ∧
      ∀ p r, s.queuePort (bits x 0 20) = some p → s.queuePort (bits x 64 20) = some r → p = r) ∧
    (bits x 32 32 ≠ 0 → (∀ i q, (i, q) ∈ s.tm.queues → i ≠ bits x 0 20 → q.refuse = true → q.spillQ ≠ bits x 0 20) ∧
      ∀ p, s.queuePort (bits x 0 20) = some p → bits x 32 32 ≤ s.portRate p)) ∧
  (∀ a : Accepted ledgerReadSpec, let n := bits a.x 0 20
    let u := a.t.queue n
    exec (.ledgerQueueRead a.i) a.s = .next (a.does (
      if bits a.x 20 44 ≠ 0 then .fail a.t stBadArg
      else if a.t.partOn = true ∧ a.t.queuePart n ≠ a.part then .fail a.t stProtected
      else .okResp a.t 0 (leBytes 16 (n + u.dclass * 2 ^ 24 + b2n u.refuse * 2 ^ 28 + u.gRate * 2 ^ 32 + u.spillQ * 2 ^ 64
          + u.qlimit * 2 ^ 96)
        ++ leBytes 8 (min (ceilDiv (u.horizon - a.t.follower) qNs) 0xFFFFFFFF + min u.outstanding 0xFFFFFF * 2 ^ 32
          + b2n (u.held.any fun h => decide (a.t.follower < h.2)) * 2 ^ 56))))) ∧
  (∀ (s : State) (dt : Nat) (q : Fin 1048576), let u := s.pass dt
    let due := (u.queue q).held.any fun h => decide (h.2 ≤ u.follower)
    let sync := match u.queuePort q with
      | none => u
      | some p => u.syncV p
    exec (.rateReductionRelease dt q) s = .next (if due = false then u else
      (sync.updQueue q fun x => { x with held := (u.queue q).held.filter fun h => decide (u.follower < h.2) }).resumeWaits
        capacitySpecs fun w => w == .capacity))

/-- R278 to R280, R283, R285 to R288, R263: records of the scheduler and the policers, and gate lists. Which
terms a list has while GATED is not ON, and that a list is pending there too, is the model's reading (its log says so). -/
def Obligations.SchedulerGateAndPolicerCommands : Prop :=
  (∀ a : Accepted schedNodeSpec, let level := bits a.x 0 2
    let ix := bits a.x 4 17
    let up := bits a.x 24 17
    let burst := bits a.x 128 24
    let new := a.t.syncAllV.updNode (nodeKey level ix) fun (n : Node) =>
      let o := n.fill a.t.cyc
      let o := { o with shRate := bits a.x 96 32, shBurst := burst, shOver := signed 8 (bits a.x 152 8), tokens := min o.tokens (1024 * (burst : Int)) }
      if level = 0 then o
      else { o with parent := up, enable := bit a.x 41, prio := bits a.x 42 3, weight := bits a.x 48 10, gRate := bits a.x 64 32
                    deficit := if up = n.parent then o.deficit else 0 }
    exec (.schedNodeSet a.i) a.s = .next (a.does (
      if ¬ (bits a.x 2 2 = 0 ∧ bits a.x 21 3 = 0 ∧ bits a.x 45 3 = 0 ∧ bits a.x 58 6 = 0 ∧ bits a.x 160 32 = 0 ∧ ix < levelCount level ∧
          (level ≠ 0 → up < levelCount (level - 1)) ∧ -64 ≤ signed 8 (bits a.x 152 8)) then .fail a.t stBadArg
      else if a.t.partOn = true ∧ (a.t.elemPart level ix ≠ a.part ∨ level ≠ 0 ∧ a.t.elemPart (level - 1) up ≠ a.part) then .fail a.t stProtected
      else if (a.t.pathChanges new).1 = true then .fail a.t stBadArg
      else if (a.t.pathChanges new).2 = true then .fail a.t stOvercommit
      else if ((a.t.nodeAt level ix).parent = (new.nodeAt level ix).parent ∧ (a.t.nodeAt level ix).enable = (new.nodeAt level ix).enable ∧
          (a.t.nodeAt level ix).gRate = (new.nodeAt level ix).gRate ∧ (a.t.nodeAt level ix).shRate = (new.nodeAt level ix).shRate) ∨
        new.ratesOk true = true then .ok new.landed
      else if new.ratesOk false = true then .wait a.t .capacity
      else .fail a.t stOvercommit))) ∧
  (∀ a : Accepted schedQueueSpec, let n := bits a.x 0 20
    let up := bits a.x 24 17
    let burst := bits a.x 128 24
    let new := a.t.syncAllV.updQueue n fun (q : Queue) =>
      let o := q.fill a.t.cyc
      { o with parent := up, enable := bit a.x 41, prio := bits a.x 42 3, tc := bits a.x 45 3, weight := bits a.x 48 10
               excessEn := bit a.x 58, shRate := bits a.x 96 32, shBurst := burst, shOver := signed 8 (bits a.x 152 8)
               tokens := min o.tokens (1024 * (burst : Int)), deficit := if up = q.parent then o.deficit else 0 }
    exec (.schedQueueSet a.i) a.s = .next (a.does (
      if ¬ (bits a.x 20 4 = 0 ∧ bits a.x 59 37 = 0 ∧ bits a.x 160 32 = 0 ∧ -64 ≤ signed 8 (bits a.x 152 8)) then .fail a.t stBadArg
      else if a.t.partOn = true ∧ (a.t.queuePart n ≠ a.part ∨ a.t.elemPart 3 up ≠ a.part) then .fail a.t stProtected
      else if (a.t.pathChanges new).1 = true ∨ bits a.x 45 3 ≠ (a.t.queue n).tc ∧ (a.t.queue n).pkts ≠ [] then .fail a.t stBadArg
      else if (a.t.pathChanges new).2 = true then .fail a.t stOvercommit
      else if (up = (a.t.queue n).parent ∧ bit a.x 41 = (a.t.queue n).enable ∧ bits a.x 45 3 = (a.t.queue n).tc ∧
          bits a.x 96 32 = (a.t.queue n).shRate) ∨ new.ratesOk true = true then .ok new.landed
      else if new.ratesOk false = true then .wait a.t .capacity
      else .fail a.t stOvercommit))) ∧
  (∀ a : Accepted policerSetSpec, let ix := bits a.x 0 21
    let mode := bits a.x 24 3
    let cbs := bits a.x 128 24
    let ebs := bits a.x 152 24
    let new := a.t.updPolicer ix fun (p : Policer) =>
      let o := p.fill a.t.cyc
      let keep := bit a.x 29 && o.mode != 0
      let keep2 := keep && (mode == 0 || meterFamily o.mode == meterFamily mode)
      { mode := mode, yellowAct := bit a.x 27, redAct := bit a.x 28, overhead := signed 8 (bits a.x 32 8), cir := bits a.x 64 32
        pir := bits a.x 96 32, cbs := cbs, ebs := ebs, at_ := a.t.cyc
        tc := if keep = true then min o.tc (cbs * 1024) else cbs * 1024, remC := if keep = true then o.remC else 0
        te := if keep2 = true then min o.te (ebs * 1024) else ebs * 1024, remP := if keep2 = true then o.remP else 0 }
    exec (.policerSet a.i) a.s = .next (a.does (
      if ¬ (bits a.x 21 3 = 0 ∧ mode ≤ 4 ∧ bits a.x 30 2 = 0 ∧ bits a.x 40 24 = 0 ∧ bits a.x 176 16 = 0 ∧
          -64 ≤ signed 8 (bits a.x 32 8) ∧ (3 ≤ mode → bits a.x 64 32 ≤ bits a.x 96 32)) then .fail a.t stBadArg
      else if a.t.partOn = true ∧ a.t.halfPart 0x100000 ix ≠ a.part then .fail a.t stProtected
      else .ok new))) ∧
  (∀ a : Accepted gateSetSpec, let p := bits a.x 0 8
    let new := gateListOf a.x
    let m := a.t.promisedMask p
    let on := a.t.isOn .gated
    let up := (a.t.mode .gated).st != .off && raises ((a.t.gate p).terms on m) (termsOf on new m)
    let u := a.t.gatePend p new up
    exec (.gateListSet a.i) a.s = .next (a.does (
      if gateSetOk a.t a.x = false then .fail a.t stBadArg
      else if a.t.partOn = true ∧ a.t.portPart p ≠ a.part then .fail a.t stProtected
      else if (a.t.gate p).pending ≠ none then .wait a.t (.gateTurn p)
      else if up = false ∨ u.ratesOk true = true then .wait u (.gateStart p)
      else if u.ratesOk false = true then .wait a.t .capacity
      else .fail a.t stOvercommit))) ∧
  (∀ (g : Gate) (c : GateChange) (x : Nat),
    g.switchAt c = (match (if g.suspended then none else g.cur) with
      | some l => l.startFrom (max c.passed c.bound)
      | none => max c.passed c.bound) ∧
    g.newStart c x = (match c.new with
      | some l => l.startFrom (max x g.startsAt)
      | none => x)) ∧
  (∀ (s : State) (dt : Nat) (port : Fin 48), let u := s.pass dt
    let g := u.gate port
    (g.pending = none → exec (.gateListStart dt port) s = .next u) ∧
    (∀ c, g.pending = some c → let x := c.start.getD (g.switchAt c)
      let t := g.newStart c x
      exec (.gateListStart dt port) s = .next (if u.follower < x then u else if t ≤ u.follower then u.gateFinish port c t
        else (u.syncV port).updGate port fun g => { g with pending := some { c with start := some t } }))) ∧
  (∀ (s : State) (p start : Nat) (c : GateChange),
    let v := ((s.syncV p).updGate p fun g => { g with cur := c.new, pending := none, suspended := false, startsAt := 0, entry := 0 }).markBounds
      p false
    let w := if c.new.isSome then v.raise (v.portPart p) evGateListStarted p (secOf start % 2 ^ 48 + nsOf start * 2 ^ 48) else v
    s.gateFinish p c start = (w.endWaits (fun w => w == .gateStart p) stOk (termsOf true c.new (w.promisedMask p)).1).resumeWaits
      [gateSetSpec] fun w => w == .gateTurn p) ∧
  (∀ (s : State) (dt : Nat) (port : Fin 48), let u := s.pass dt
    exec (.gateEntryBoundary dt port) s = .next (match u.gateNow port with
      | none => u
      | some l => (u.syncV port).updGate port fun g => { g with entry := (l.entryAt u.follower).1 }))

/-- R273 to R276, R184, R63, R260, R324: what happens to a port's packets from release to the line. A device whose D2D link is down
edits nothing. -/
def Obligations.ReleaseEditAndTransmit : Prop :=
  (∀ (s : State) (dt : Nat) (port : Fin 48) (out : Fin 3), let u := s.pass dt
    let v := (u.syncV port).noteGateHeld port
    let w := match v.select port false with
      | some (n, _, _) => v.notePullLate port n
      | none => v
    exec (.releaseOpportunity dt port out) s = .next (
      if u.portUp port = false ∨ u.elapsedQ < (u.egress port).nextRel then u
      else match w.select port true with
        | none => w
        | some (n, prom, x) => match (x.queue n).pkts with
          | [] => w
          | k :: _ =>
            let read (y : State) : State × Bool := y.readChain (y.queuePart n) k.chain (y.chainRooms k.chain) out
            if k.poisoned = true ∨ (read w).2 = true then
              (((read w).1.dropPoisoned n port k).reTag port n).clearDeficits n (w.pathOf (w.queue n))
            else (read x).1.releaseHead port n prom k)) ∧
  (∀ (s : State) (dt : Nat) (port : Fin 48) (o0 o1 : Fin 3), let u := s.pass dt
    (u.egress port).released = [] → exec (.egressEdit dt port (o0, o1)) s = .next u) ∧
  (∀ (s : State) (dt : Nat) (port : Fin 48) (o0 o1 : Fin 3) (e : Rel) (rest : List Rel), let u := s.pass dt
    let k := e.pkt
    let v := u.updEgress port fun g => { g with released := rest }
    let sl := 4 + u.egressSlice port k
    let body := k.data.take (k.data.length - 4)
    let x := (if o0 = 2 ∨ o1 = 2 then v.holdSlots sl v.slotNow else v).readRewrite k.pp.edit k.ep k.part o0 o1
    let r := x.recordAt (tblKey 8 k.pp.edit) k.ep
    let y := x.perfEvent sl 8 (if bit r 1 = true then 2 else 1) (some k.part)
    (u.egress port).released = e :: rest →
    exec (.egressEdit dt port (o0, o1)) s = .next (
      if u.chip.d2dDown = true then u
      else if v.sliceOn sl = false then
        ((v.dropRef k).updQueue e.queue fun q => { q with outstanding := q.outstanding - 1 }).updDomain (152 + 4 * sl) fun d =>
          { d with dropped := d.dropped + 1 }
      else if k.pp.edit = 0 then (if k.noL2 = true then v.editDrop port e.queue k 0 else v.editPass port e body 0).dropRef k
      else match edit r k body with
        | .inl item => (y.editDrop port e.queue k item).dropRef k
        | .inr f => if y.maxFrame port < f.length + 4 then (y.editDrop port e.queue k 2).dropRef k
          else (y.editPass port e f (bits r 8 2)).dropRef k)) ∧
  (∀ (s : State) (dt : Nat) (port : Fin 48), let u := s.pass dt
    (u.portUp port = false ∨ (u.port port).remoteFault = true ∨ u.pickTx port (u.egress port).edited = none) →
    exec (.macTransmit dt port) s = .next u) ∧
  (∀ (s : State) (p : Nat) (l rest : List Rel) (e : Rel), s.pickTx p l = some (e, rest) ↔ ∃ a b, l = a ++ e :: b ∧ rest = a ++ b ∧
    s.pausedFor p e.pkt.pp.tc (decide (0 < s.heldRate (s.queue e.queue))) = false ∧
    ∀ h ∈ a, s.pausedFor p h.pkt.pp.tc (decide (0 < s.heldRate (s.queue h.queue))) = true) ∧
  (∀ (s : State) (dt : Nat) (port : Fin 48) (e : Rel) (rest : List Rel), let u := s.pass dt
    let k := e.pkt
    let v := u.updEgress port fun g => { g with edited := rest }
    let sl := 4 + v.egressSlice port k
    let t := v.txTime port
    let one := (if e.tsOp = 1 then v.oneStep port t k.pp e.edited else (v, e.edited))
    let two := (if e.tsOp = 2 then one.1.twoStep port t k.pp e.edited else one.1)
    let f := withFcs one.2
    u.portUp port = true → (u.port port).remoteFault = false → u.pickTx port (u.egress port).edited = some (e, rest) →
    exec (.macTransmit dt port) s = .next (
      if v.maxFrame port < e.edited.length + 4 then
        ((v.bump (macCtr 12) port).updQueue e.queue fun q => { q with outstanding := q.outstanding - 1 }).takeSlot sl 0 k.part
      else (((two.bumpPair (macCtr 2) port f.length).takeSlot sl 0 k.part).toLine port f).departed port e f.length)) ∧
  (∀ f : List Byte, withFcs f = (f ++ List.replicate (60 - f.length) 0) ++ leBytes 4 (fcs32 (f ++ List.replicate (60 - f.length) 0)) ∧
    64 ≤ (withFcs f).length) ∧
  (∀ (s : State) (dt : Nat) (port : Fin 48), let u := s.pass dt
    exec (.downFlush dt port) s = .next (match (u.port port).downAt with
      | none => u
      | some (c, t0) => if c + (u.egress port).downHold * cycUs ≤ u.cyc then u.flushDown port t0 else u)) ∧
  (∀ (s : State) (dt : Nat) (q : Fin 1048576), let u := s.pass dt
    exec (.ageDiscard dt q) s = .next (match (u.queue q).pkts with
      | [] => u
      | k :: _ => let v := ((u.dropHead q agentDiscard).dropRef k.pkt).bump ⟨0x11, 2, 0⟩ k.pkt.pp.port
        if u.follower < k.admitted + 240 * qSec then u else (v.reTag k.pkt.pp.port q).clearDeficits q (v.pathOf (u.queue q))))

/-- R418 to R422, R425, R426, R428, R429. -/
def Obligations.CounterAndSampleCommands : Prop :=
  (∀ a : Accepted counterReadSpec, let st := a.t.ctrCheck a.part a.x .read
    let u := a.t.ctrSync a.x
    exec (.counterRead a.i) a.s = .next (a.does (if st ≠ stOk then .fail a.t st else .okResp u 0 (u.ctrValues a.part a.x)))) ∧
  (∀ a : Accepted counterReadClearSpec, let st := a.t.ctrCheck a.part a.x .clear
    let u := a.t.ctrSync a.x
    let v := if ceSet a.x = 0x41 then u.flowClear (ceInst a.x)
      else (List.range (ceNum a.x)).foldl (fun s i => s.ctrSet (ceSet a.x) (ceInst a.x) (ceItem a.x + i) 0) u
    exec (.counterReadClear a.i) a.s = .next (a.does (if st ≠ stOk then .fail a.t st else .okResp v 0 (u.ctrValues a.part a.x)))) ∧
  (∀ a : Accepted counterWriteSpec, let st := a.t.ctrCheck a.part a.x .write
    let u := a.t.ctrSync a.x
    exec (.counterWrite a.i) a.s = .next (a.does (
      if ctr32 (ceSet a.x) (ceInst a.x) = true ∧ 0xFFFFFFFF < bits a.x 64 64 then .fail a.t stBadArg
      else if st ≠ stOk then .fail a.t st else .ok (u.ctrSet (ceSet a.x) (ceInst a.x) (ceItem a.x) (bits a.x 64 64))))) ∧
  (∀ (s : State) (x : Nat), s.ctrSync x =
    let u := if ceSet x = 0x30 then s.syncSlots (ceInst x % 2 ^ 24) else s
    (List.range (ceNum x)).foldl (fun v i =>
      if unbacked (ceSet x) (ceInst x) (ceItem x + i) = true then v else (v.readStat (ceSet x) (ceInst x) (ceItem x + i) 0 0).1) u) ∧
  (∀ (s : State) (part x : Nat), s.ctrValues part x =
    leBytes 8 (((List.range (ceNum x)).map fun i => s.ctrRead part (ceSet x) (ceInst x) (ceItem x + i)).zipIdx.foldl
      (fun m (v, i) => if v.2 then m + 2 ^ i else m) 0)
    ++ ((List.range (ceNum x)).map fun i => s.ctrRead part (ceSet x) (ceInst x) (ceItem x + i)).flatMap fun v => leBytes 8 v.1) ∧
  (∀ a : Accepted counterSetCfgSpec, exec (.counterSetCfg a.i) a.s = .next (a.does (
    if bits a.x 9 55 ≠ 0 ∨ ctrModeSet (bits a.x 0 8) = false then .fail a.t stBadArg
    else let u := a.t.settleSet (bits a.x 0 8) a.part
      .ok { u with tele := { u.tele with saturate := u.tele.saturate.put false (bits a.x 0 8 * 2 + a.part) (bit a.x 8) } }))) ∧
  (∀ (s : State) (set part : Nat), s.settleSet set part = s.tele.ctrs.foldl (fun v e =>
    let inst := e.1 / 256 % 0x10000000
    if e.1 / (0x10000000 * 256) = set ∧ v.ctrPart set inst = part ∧ unbacked set inst (e.1 % 256) = false
      then v.flushCtr set inst (e.1 % 256) else v) s) ∧
  (∀ set ∈ [0x00, 0x02, 0x03, 0x18, 0x2F, 0x30, 0x31, 0x33, 0x40, 0x41, 0xFF], ctrModeSet set = false) ∧
  (∀ set ∈ [0x01, 0x04, 0x05, 0x06, 0x07, 0x08, 0x09, 0x0A, 0x0B, 0x0C, 0x0D, 0x0E, 0x0F, 0x10, 0x11, 0x12, 0x13, 0x14, 0x15, 0x16,
    0x17, 0x32], ctrModeSet set = true) ∧
  (∀ a : Accepted perfCfgSpec, let tile := bit a.x 0
    let unit := bits a.x 8 4
    let ctr := bits a.x 12 3
    let period := bits a.x 32 48
    let u := if tile = true then a.t else a.t.syncSlots unit
    exec (.perfCfg a.i) a.s = .next (a.does (
      if perfCfgOk a.x = false then .fail a.t stBadArg
      else if a.t.partOn = true ∧ (if tile = true then a.t.halfPart 8 unit else a.t.halfPart 4 ctr) ≠ a.part then .fail a.t stProtected
      else .ok (u.updPerf (perfKey tile unit ctr) fun _ =>
        { value := if bit a.x 25 = true then 2 ^ 48 - period else 0, event := bits a.x 16 8, enable := bit a.x 24
          sampleEn := bit a.x 25, period := if bit a.x 25 = true then period else 0, loadedAt := u.tmcNow })))) ∧
  (∀ x, perfCfgOk x = true ↔ bits x 1 7 = 0 ∧ bit x 15 = false ∧ bits x 26 6 = 0 ∧ bits x 80 48 = 0 ∧
    (bit x 0 = true → bits x 12 3 < 4 ∧ (bits x 16 8 = 0 ∨ 0x40 ≤ bits x 16 8 ∧ bits x 16 8 ≤ 0x46) ∧ bit x 25 = false) ∧
    (bit x 0 = false → bits x 8 4 < 8 ∧ bits x 16 8 ≤ 0x0C) ∧
    (bit x 25 = true → 4096 ≤ bits x 32 48 ∧ bits x 32 48 ≤ 2 ^ 47)) ∧
  (∀ (s : State) (dt set inst item : Nat) (out0 out1 : Fin 3) (e : Entity) (n : Nat), let u := s.pass dt
    ctrKind set inst = some (e, n) → item < n → inst % 2 ^ 24 < e.count → unbacked set inst item = false →
    exec (.accumulatorFlush dt set inst item (out0, out1)) s = .next (let r := u.readStat set inst item out0 out1
      if r.2 = true then r.1 else r.1.flushCtr set inst item)) ∧
  (∀ set inst item : Nat, unbacked set inst item = true ↔
    ctr32 set inst = true ∨ set = 0x31 ∨ set = 0x40 ∨ set = 0x41 ∨ set = 0x30 ∧ 5 ≤ item) ∧
  (∀ (s : State) (set inst item o0 o1 : Nat), let k := ctrKey set inst item
    let p := s.ctrPart set inst
    let r := s.readTwo p structStat k (statUnit set k 0) (statUnit set k 1) o0 o1
    let c := r.1.ctr set inst item
    (r.2 = true → (o0 = 2 ∨ s.recPoisoned structStat (2 * k) = true) ∧ (o1 = 2 ∨ s.recPoisoned structStat (2 * k + 1) = true)) ∧
    (r.2 = false → s.readStat set inst item o0 o1 = (r.1, false)) ∧
    (r.2 = true → s.readStat set inst item o0 o1 = ((((r.1.setCtr set inst item { c with backing := c.acc, acc := 0, lost := true }
      ).statWritten k).raise p evCounterLost set (inst % 2 ^ 32 + item * 2 ^ 32)), true))) ∧
  (∀ (s : State) (set inst item : Nat), let c := s.ctr set inst item
    let full := s.satMode set (s.ctrPart set inst) = true ∧ 0xFFFFFFFFFFFFFFFF < c.backing + c.acc
    (¬ full → s.flushCtr set inst item = (s.setCtr set inst item
      { c with backing := (c.backing + c.acc) % 2 ^ 64, acc := 0 }).statWritten (ctrKey set inst item)) ∧
    (full → let v := (s.setCtr set inst item { c with backing := 0xFFFFFFFFFFFFFFFF, acc := 0, spent := true }).statWritten (ctrKey set inst item)
      s.flushCtr set inst item = if c.spent = true then v else v.raiseSaturated set inst item)) ∧
  (∀ (s : State) (dt : Nat) (slice ctr : Fin 8) (skid : Fin 17) (cat : Fin 4) (pp : Option (BitVec 256)), let u := s.pass dt
    let k := perfKey false slice ctr
    let v := u.updPerf k fun p => { p with due := p.due - 1 }
    let w : State := { v with tele := { v.tele with sampleAt := v.tele.sampleAt.ins slice v.cyc } }
    let part := w.perfPart false slice ctr
    let rec_ := w.evtOf ⟨0x30, (u.perf k).event, false⟩ (slice.val * 8 + ctr.val)
      ((pp.map (·.toNat)).getD 0 + cat.val * 2 ^ 256 + b2n pp.isSome * 2 ^ 258 + skid.val * 2 ^ 259) true
    let sent := w.sendEvt part { rec_ with kind := 2 }
    exec (.perfSample dt slice ctr skid cat pp) s = .next (
      if (u.perf k).due = 0 then u
      else if (v.tele.sampleAt.find? slice).any (fun t => decide (v.cyc < t + cycUs)) = true then v.bump ⟨0x32, 0, 0⟩ slice
      else if sent.2 = true then sent.1.raiseSaturated 0x16 (evtRingIx (w.routeOf part 0x30).1 (w.routeOf part 0x30).2) 0
      else sent.1)) ∧
  (∀ (s : State) (dt : Nat) (index : Fin 268435456) (evict : Bool), let u := s.pass dt
    exec (.flowCacheWriteback dt index evict) s = .next (match u.tele.flowCache.find? index with
      | none => u
      | some (t, _) => if t + cycSec ≤ u.cyc ∨ evict = true ∧ 262144 ≤ u.tele.flowCache.length then u.flowWrite index else u))

/-- R5 to R9, R33, R49, R95, R245, R363, R370, R450, R453: a register write through MW0. -/
def Obligations.ARegisterWriteKeepsToItsRules : Prop :=
  (∀ (s : State) (dt : Nat) (fn : Fin 2) (off : Nat) (v : Word32) (hi : Option Word32), let u := s.pass dt
    exec (.registerWrite dt fn off v hi) s = .next (
      if u.hostUp = false then u
      else if off % (if hi = none then 4 else 8) ≠ 0 ∨ 0x800000 ≤ off then u.raise (u.partOf fn) evHifBadAccess off
      else match hi with
        | none => u.writeMw0 fn off v
        | some h => (u.writeMw0 fn off v).writeMw0 fn (off + 4) h)) ∧
  (∀ off < 0x800000, addrOfOff off < 2 ^ 26 ∧ addrOfOff off / 2 ^ 17 % 8 = 0 ∧ offOfAddr (addrOfOff off) = off) ∧
  (∀ (s : State) (fn : Fin 2) (off : Nat) (v : Word32), let a := addrOfOff off
    (fn = 0 ∨ s.partOn = true ∨ a = 0 ∨ a = 0x10 ∨ a = 0x14 → s.writeMw0 fn off v = s.writeReg fn a v) ∧
    (¬ (fn = 0 ∨ s.partOn = true ∨ a = 0 ∨ a = 0x10 ∨ a = 0x14) →
      s.writeMw0 fn off v = s.raise (s.partOf fn) evHifBadAccess off)) ∧
  (∀ (s : State) (fn : Fin 2) (v : Word32) (r : Fin 208) (n : Fin 48) (g : Fin 6) (j : Fin 26),
    exec (.versionOffer 0 fn v) s = .next (s.writeReg fn 0x10 v) ∧
    exec (.hifAbortGo 0 fn v) s = .next (s.writeReg fn 0x20 v) ∧
    exec (.modeApply 0 fn v) s = .next (s.writeReg fn 0x00100044 v) ∧
    exec (.timeLatch 0 fn v) s = .next (s.writeReg fn 0x02800020 v) ∧
    exec (.timeInitGo 0 fn v) s = .next (s.writeReg fn 0x0280004C v) ∧
    (if v.getLsbD 0 = true then exec (.ringEnable 0 fn r v) s else exec (.ringDisable 0 fn r v) s) =
      .next (s.writeReg fn (0x1008 + 0x20 * r) v) ∧
    exec (.prbsPatternSet 0 fn n v) s = .next (s.writeReg fn (0x00200008 + 0x40 * n) v) ∧
    (if v.getLsbD 0 = true then exec (.groupEnable 0 fn g) s else exec (.groupDisable 0 fn g) s) =
      .next (s.writeReg fn (0x00201004 + 0x10 * g) v) ∧
    (if v.getLsbD 0 = true then exec (.reneg 0 fn j) s else .next s) = .next (s.writeReg fn (0x01C0110C + 0x10 * j) v)) ∧
  (∀ (s : State) (fn : Fin 2) (a : Nat) (v : Word32), s.writeRow fn a v = none →
    (s.chip.d2dDown = true ∧ [0x02, 0x04, 0x05, 0x08, 0x0A, 0x0C, 0x28].contains (a / 0x100000) = true ∨ s.ownsReg fn a = false ∨
      a / 0x100000 = 0x38 ∨ a / 0x100000 = 0x3C → s.writeReg fn a v = s)) ∧
  (∀ (s : State) (fn : Fin 2) (a : Nat) (v : Word32), s.writeRow fn a v = none → a / 0x100000 = 0 → s.ownsReg fn a = true →
    (a = 0x18 → s.writeReg fn a v = s.updFunc fn fun p => { p with fatalVec := v.toNat % 256 }) ∧
    (∀ b < 64, a = 0x400 + 4 * b →
      s.writeReg fn a v = s.updFunc fn fun p => { p with evtRoute := p.evtRoute.put 0 b (v.toNat % 16) }) ∧
    (∀ r < 208, a = 0x1000 + 0x20 * r → s.writeReg fn a v = if (s.ring fn r).st = .disabled then s.updRing fn r fun g =>
      { g with base := BitVec.ofNat 64 (setBits g.base.toNat 0 32 (v.toNat / 4096 * 4096)) } else s) ∧
    (∀ r < 208, a = 0x1004 + 0x20 * r → s.writeReg fn a v = if (s.ring fn r).st = .disabled then s.updRing fn r fun g =>
      { g with base := BitVec.ofNat 64 (setBits g.base.toNat 32 32 v.toNat) } else s)) ∧
  (∀ (s : State) (fn : Fin 2) (a : Nat) (v : Word32), s.writeRow fn a v = none → (s.chip.d2dDown && fDieBlock a) = false →
    s.ownsReg fn a = true → a / 0x100000 ≠ 0x38 → a / 0x100000 ≠ 0x3C → a / 0x100000 ≠ 0 →
    (∀ g, guardedGroup a = some g → s.writeReg fn a v = if (s.group g).st = .off then s.storeReg a v
      else s.orReg (0x00201008 + 0x10 * g) 0x100) ∧
    (guardedGroup a = none → s.writeBarred a = true → s.writeReg fn a v = s) ∧
    (guardedGroup a = none → s.writeBarred a = false →
      (a = 0x01C01000 → s.writeReg fn a v = if (s.mode .fabric).st = .off ∧ (s.mode .direct).st = .off then s.storeReg a v
        else s.storeReg a (BitVec.ofNat 32 (setBits v.toNat 0 16 (s.reg a)))) ∧
      (∀ p < 48, a = 0x00400000 + 0x20 * p → s.writeReg fn a v = s.writeMacCfg p v) ∧
      (∀ i < 16, a = 0x00C02000 + 4 * i →
        s.writeReg fn a v = s.setReg (a + if s.partOn = true then fn.val * 2 ^ 32 else 0) v.toNat) ∧
      (a ≠ 0x01C01000 → (∀ p < 48, a ≠ 0x00400000 + 0x20 * p) → ¬ (0x00C02000 ≤ a ∧ a < 0x00C02040) →
        s.writeReg fn a v = s.storeReg a v))) ∧
  (∀ (n : Fin 48) (g : Fin 6), guardedGroup (0x00200000 + 0x40 * n) = some (n / 8) ∧
    guardedGroup (0x0020000C + 0x40 * n) = some (n / 8) ∧ guardedGroup (0x00201000 + 0x10 * g) = some g.val ∧
    guardedGroup (0x00500000 + 0x10 * n) = some (n / 8) ∧ guardedGroup (0x00501000 + 0x10 * g) = some g.val) ∧
  (∀ s : State,
    (s.writeBarred 0x00100040 = s.applied ∧ s.writeBarred 0x0010004C = s.applied ∧ s.writeBarred 0x02800040 = s.applied ∧
      s.writeBarred 0x02800044 = s.applied ∧ s.writeBarred 0x02800048 = s.applied) ∧
    (s.writeBarred 0x01000008 = true ↔ (s.mode .cellar).st ≠ .off) ∧ (s.writeBarred 0x0300000C = true ↔ (s.mode .cellar).st ≠ .off) ∧
    (∀ k < 3, s.writeBarred (0x02C00000 + 4 * k) = true ↔ (s.mode .twin).st ≠ .off) ∧
    (∀ j < 26, s.writeBarred (0x01C01100 + 0x10 * j) = true ↔ ∃ n ∈ s.lanesOf (48 + j), (s.lane n).st ≠ .off))

/-- R8, R9, R452. -/
def Obligations.StoredRegistersTakeOnlyTheirWritableBits : Prop :=
  (∀ (s : State) (a : Nat) (v : BitVec 32),
    (regRow a = none → s.storeReg a v = s) ∧
    (∀ r, regRow a = some r →
      (∀ i < 32, ((s.storeReg a v).reg a).testBit i = if r.rw.testBit i = true then v.getLsbD i
        else if r.w1c.testBit i = true ∧ v.getLsbD i = true then (s.reg a).testBit i && (s.freshBits a).testBit i
        else (s.reg a).testBit i) ∧
      (∀ b, b ≠ a → (s.storeReg a v).reg b = s.reg b))) ∧
  (∀ (s : State) (a m i : Nat), i < 32 → ((s.orReg a m).reg a).testBit i = ((s.reg a).testBit i || m.testBit i) ∧
    ((s.orReg a m).freshBits a).testBit i = ((s.freshBits a).testBit i || m.testBit i))

/-- R311 to R320, R327, R330. The direction of a step and the cycle of its decision are the rules'; the follower's error is the row's
operand, which the model leaves to whoever sends the command (log 2). -/
def Obligations.TimeCommandsStepsAndAlignment : Prop :=
  (∀ a : Accepted timeAdjustSpec, let amount := mkTime (bits a.x 64 48) (bits a.x 112 32) (bits a.x 144 16)
    let ppb := signed 32 (bits a.x 32 32)
    exec (.timeAdjust a.i) a.s = .next (a.does (
      if a.part = 1 then .fail a.t stProtected
      else if bits a.x 0 2 = 3 ∨ bits a.x 2 6 ≠ 0 ∨ bits a.x 9 23 ≠ 0 ∨ bits a.x 160 32 ≠ 0 ∨ 999999999 < bits a.x 112 32 ∨
        bits a.x 0 2 = 2 ∧ 200000 < ppb.natAbs then .fail a.t stBadArg
      else if bits a.x 0 2 = 2 then .ok { a.t with time := { a.t.time with freqPpb := ppb } }
      else if bits a.x 0 2 = 0 then
        .wait (a.t.decideStep 0 (if bit a.x 8 = true then -(amount : Int) else amount) none (some (a.i.fn, a.i.ring))) .timeStep
      else .wait (a.t.decideStep 1 0 (some amount) (some (a.i.fn, a.i.ring))) .timeStep))) ∧
  (∀ (s : State) (cause : Nat) (rel : Int) (target : Option Nat) (owner : Option (Nat × Nat)), s.decideStep cause rel target owner =
    { s with time := { s.time with steps := s.time.steps ++ [{ cause := cause, rel := rel, abs_ := target, owner := owner
                                                               actAt := max (s.cyc + cycUs) ((s.time.steps.map (·.actAt)).foldl max 0) }] } }) ∧
  (∀ a : Accepted tsReadSpec, let k := bits a.x 0 2
    let es := (a.t.tsQueue k).entries.take (bits a.x 8 6)
    exec (.tsRead a.i) a.s = .next (a.does (
      if ¬ (bits a.x 2 6 = 0 ∧ bits a.x 14 50 = 0 ∧ 1 ≤ bits a.x 8 6 ∧ bits a.x 8 6 ≤ 32) then .fail a.t stBadArg
      else .okResp ((a.t.updTsQueue k fun q => { q with entries := q.entries.drop es.length }).flushLost k) es.length
        (es.flatMap (leBytes 16))))) ∧
  (∀ (s : State) (dt : Nat) (v : Word32), let u := s.pass dt
    u.hostUp = true →
    exec (.timeLatch dt 0 v) s = .next (if v.getLsbD 0 = true ∧ u.chip.d2dDown = false then { u with time := { u.time with snap := u.now } } else u) ∧
    exec (.timeInitGo dt 0 v) s = .next (
      if v.getLsbD 0 = true ∧ u.applied = false ∧ u.reg 0x02800048 ≤ 999999999 ∧ u.chip.d2dDown = false then
        u.decideStep 2 0 (some (mkTime (u.reg 0x02800040 + u.reg 0x02800044 * 2 ^ 32) (u.reg 0x02800048) 0)) none
      else u)) ∧
  (∀ (s : State) (dt : Nat), let u := s.pass dt
    (u.time.steps = [] → exec (.stepActivation dt) s = .next u) ∧
    (∀ o rest, u.time.steps = o :: rest → let v : State := { u with time := { u.time with steps := rest } }
      exec (.stepActivation dt) s = .next (if u.cyc < o.actAt then u else match u.stepTarget o with
        | some q => (v.applyStep o.cause q).stepOwner o stOk
        | none => v.stepOwner o stBadArg))) ∧
  (∀ (s : State) (dt : Nat), let u := s.pass dt
    exec (.slewEnd dt) s = .next (match u.time.slew with
      | none => u
      | some (_, e) => if e ≤ u.cyc then { u with time := { u.time with slew := none } } else u)) ∧
  (∀ (s : State) (dt : Nat) (e : Int), let u := s.pass dt
    let w := u.syncAllV
    let x : State := { w with time := { w.time with follErr := e, follAt := w.cyc } }
    let v : State := { x with tm := { x.tm with
      egress := x.tm.egress.foldl (fun m p => NMap.put m {} p.1 { p.2 with vDev := x.follower }) x.tm.egress } }
    exec (.followerCheck dt e) s = .next (
      if u.time.follAt ≠ 0 ∧ u.cyc < u.time.follAt + 800000 then u
      else if 131072 < e.natAbs then { v with time := { v.time with follSet := true } }.raise 0 evTimeFollowerErr (unsigned 32 e) else v) ∧
    exec (.followerErrorCleared dt) s = .next (if u.time.follSet = true ∧ u.follError.natAbs ≤ 131072 then
      { u with time := { u.time with follSet := false } }.raiseSt 0 evTimeFollowerErr (unsigned 32 u.follError) 0 false else u)) ∧
  (∀ (s : State) (dt : Nat) (falling : Bool), let u := s.pass dt
    let r := ppsOffsetOf u.now
    exec (.ppsInEdge dt falling) s = .next (if falling ≠ bit (u.reg 0x02800000) 2 then u
      else if u.captures r.1 r.2 = true then u.capturePps r.1 r.2 else u.bump ⟨0x14, 0, 0⟩ 0)) ∧
  (∀ (s : State) (dt : Nat), let u := s.pass dt
    (u.time.corr = none → exec (.ppsCorrectionDecision dt) s = .next u) ∧
    (∀ off at_, u.time.corr = some (off, at_) → let v : State := { u with time := { u.time with corr := none } }
      let m := if u.time.steps ≠ [] ∨ v.timeFollower = true then 0 else v.regF 0x02800000 0 2
      exec (.ppsCorrectionDecision dt) s = .next (if u.now < at_ + 250 * 65536 then u
        else if m = 1 ∧ v.alignNs < off.natAbs ∨ m = 3 ∧ v.stepThresh ≤ off.natAbs then v.decideStep 3 (-off * qNs) none none
        else if m = 2 ∨ m = 3 then v.slewOff off else v))) ∧
  (∀ (s : State) (dt : Nat), let u := s.pass dt
    let b := (u.now - u.ppsWindow * qNs) / qSec
    let miss := if u.time.winCaptured = some b then 0 else u.time.missed + 1
    let v : State := { u with time := { u.time with winDone := b, missed := miss } }
    exec (.ppsWindowEnd dt) s = .next (if u.time.align = 0 ∨ b ≤ u.time.winDone then u
      else if u.time.align = 1 ∧ 2 ≤ miss then v.enterAlign 2 else v) ∧
    exec (.holdoverExpiry dt) s = .next (if u.time.align = 2 ∧ u.time.holdAt + u.holdoverCyc ≤ u.cyc then u.enterAlign 0 else u)) ∧
  (∀ (s : State) (dt : Nat), let u := s.pass dt
    let b := u.ppsOutSecond u.now
    let v : State := { u with time := { u.time with ppsOutSec := b.toNat } }
    exec (.ppsOutPulse dt) s = .next (if ¬ (u.ppsOutSecond ((u.now : Int) - maxTick) < b ∧ (u.time.ppsOutSec : Int) < b) then u
      else if bit (u.reg 0x02800000) 3 = true ∧ (bit (u.reg 0x02800000) 4 = true → u.time.align ≠ 0) then
        { v with time := { v.time with ppsOut := true, ppsOutAt := u.cyc + min 500 (max 1 (u.regF 0x02800010 0 9)) * cycMs } }
      else v) ∧
    exec (.ppsOutPulseEnd dt) s = .next (if u.time.ppsOut = true ∧ u.time.ppsOutAt ≤ u.cyc then
      { u with time := { u.time with ppsOut := false } } else u))

/-- R332, R333, R342, R344 to R349. -/
def Obligations.TwinPairsLanternsAndClaims : Prop :=
  (∀ (s : State) (dt : Nat), let u := s.pass dt
    let miss (s : State) (hb : Bool) : State :=
      if (s.path hb).lastGood + 100 * cycUs < s.cyc ∨ (s.path hb).count = none then s.bump ⟨0x15, 2, b2n hb⟩ 0 else s
    let v := u.updTwin fun t => { t with lanternAt := u.cyc }
    exec (.lanternSend dt) s = .next (if u.lanternsRun = false ∨ u.cyc < u.twin.lanternAt + 100 * cycUs then u
      else (miss (miss v false) true).lantern)) ∧
  (∀ (s : State) (dt : Nat) (hb : Bool) (word : BitVec 128), let u := s.pass dt
    let x := word.toNat
    let m := lanternFields x
    let g := u.goodLantern hb m.count
    (u.isOn .twin = false ∨ bits x 0 8 ≠ 0xA5 ∨ hb = true ∧ crc16 (leBytes 12 (x % 2 ^ 96)) ≠ bits x 96 16 ∨
      (u.path hb).count = some m.count → exec (.lanternReceived dt hb word) s = .next u) ∧
    (u.isOn .twin = true → bits x 0 8 = 0xA5 → (hb = true → crc16 (leBytes 12 (x % 2 ^ 96)) = bits x 96 16) →
      (u.path hb).count ≠ some m.count → exec (.lanternReceived dt hb word) s = .next (
        if g.lanternFits m = true then g.lanternActs hb m else g.configFails))) ∧
  (∀ x : Nat, let m := lanternFields x
    m.pairIdA = bits x 8 8 ∧ m.pairIdB = bits x 16 8 ∧ m.unit = bits x 24 1 ∧ m.lockMode = bit x 25 ∧ m.partition = bit x 26 ∧
    m.goingDown = bit x 29 ∧ m.claimA = bits x 32 8 ∧ m.claimB = bits x 40 8 ∧ m.health = bits x 48 8 ∧ m.count = bits x 64 16 ∧
    m.seqAligned = bits x 80 48) ∧
  (∀ (s : State) (m : LanternMsg), s.lanternFits m = true ↔ bits s.twinCfg 8 8 ≠ 0 ∧
    (s.partOn = true → bits s.twinCfg 16 8 ≠ 0 ∧ bits s.twinCfg 16 8 ≠ bits s.twinCfg 8 8) ∧ m.pairIdA = bits s.twinCfg 8 8 ∧
    (s.partOn = true → m.pairIdB = bits s.twinCfg 16 8) ∧ m.unit ≠ b2n s.unit1 ∧ m.lockMode = s.lockMode ∧
    m.partition = s.partOn) ∧
  (∀ (s : State) (dt : Nat) (hb : Bool), let u := s.pass dt
    let v := (u.updPath hb fun p => { p with up := false }).raise 0 evTwinPathLost (b2n hb)
    exec (.pathLost dt hb) s = .next (if u.isOn .twin = false ∨ (u.path hb).up = false ∨ u.cyc < (u.path hb).lastGood + 300 * cycUs then u
      else if v.twin.tw.up = false ∧ v.twin.hb.up = false ∧ (v.twin.pair = 1 ∨ v.twin.pair = 2) then v.declareFailed else v)) ∧
  (∀ (s : State) (dt : Nat), let u := s.pass dt
    exec (.twinPairReform dt) s = .next (if u.isOn .twin = true ∧ u.twin.pair = 3 ∧ u.twin.tw.up = true ∧ u.twin.tw.since + cycMs ≤ u.cyc ∧
      u.twin.hb.up = true ∧ u.twin.hb.since + cycMs ≤ u.cyc then u.enterForming else u)) ∧
  (∀ (s : State) (dt : Nat) (p : Fin 2), let u := s.pass dt
    exec (.claimWaitEnd dt p) s = .next (match (u.claim p).waitEnd with
      | none => u
      | some t => if t ≤ u.cyc then u.startSide p else u) ∧
    exec (.sideEffectsStopped dt p) s = .next (if (u.claim p).stopping = 0 then u else u.stopSide p)) ∧
  (∀ (s : State) (dt : Nat) (level : Bool), let u := s.pass dt
    let v := u.updTwin fun t => { t with lock := level }
    let w := v.raise 0 evTwinLockChange (b2n level)
    exec (.twinLockLevelChange dt level) s = .next (if level = u.twin.lock then u
      else if v.isOn .twin = false ∨ v.lockRules = false then v
      else if w.lockMine = true then w.updTwin fun t => { t with lockGain := some (w.cyc + 12 * cycUs) }
      else w.twinParts.foldl (fun s p => if (s.claim p).num = 0 then s else s.yieldClaim p 4) (w.updTwin fun t => { t with lockGain := none }))) ∧
  (∀ (s : State) (dt : Nat), let u := s.pass dt
    let v := u.updTwin fun t => { t with lockGain := none, arbClaim := false }
    (u.twin.lockGain = none → exec (.lockGainStart dt) s = .next u) ∧
    (∀ t, u.twin.lockGain = some t → exec (.lockGainStart dt) s = .next (if u.cyc < t then u
      else v.twinParts.foldl State.lockStart v)) ∧
    (∀ (s : State) (p : Nat), let w := if (s.claim p).stopping = 0 then s else s.stopSide p
      s.lockStart p = (w.twinChange fun s => s.updClaim p fun c => { c with num := 1 }).startSide p)) ∧
  (∀ (s : State) (dt : Nat), let off := (s.pass dt).updTwin fun t => { t with grant := false }
    let on := (s.pass dt).updTwin fun t => { t with grant := true }
    exec (.arbGrantDeassert dt) s = .next (if off.isOn .twin = true ∧ off.grantGate = true ∧ off.lockMode = false ∧ off.twin.a.num ≠ 0 ∧
      off.twin.a.stopping = 0 then (off.raise 0 evTwinGrantLost).yieldClaim 0 3 else off) ∧
    exec (.arbGrantAssert dt) s = .next (if on.isOn .twin = true ∧ on.twin.pair = 3 ∧ on.twin.a.waitGrant = true then on.autoTake 0 else on)) ∧
  (∀ a : Accepted twinClaimSpec, let p := a.part
    let n := bits a.x 0 8
    let k := a.t.claim p
    let u := a.t.takeClaim p n
    exec (.twinClaim a.i) a.s = .next (a.does (
      if a.t.isOn .twin = false ∨ a.t.lockMode = true ∨ n = 0 ∨ bits a.x 9 55 ≠ 0 ∨ claimHigher n k.num = false ∨
        claimHigher n k.peerClaim = false then .fail a.t stBadArg
      else if a.t.grantGate = true ∧ p = 0 ∧ a.t.twin.grant = false ∨ bit a.x 8 = false ∧ (k.diverged = true ∨ a.t.twin.pair = 1) then
        .fail a.t stNotClaimed
      else if (u.claim p).active = true then .ok u else .wait u .twinClaim))) ∧
  (∀ a : Accepted twinReleaseSpec, let p := a.part
    let u := a.t.yieldClaim p 1
    exec (.twinRelease a.i) a.s = .next (a.does (
      if a.t.lockMode = true then .fail a.t stBadArg
      else if (a.t.claim p).num = 0 then .ok a.t
      else if (u.claim p).num = 0 then .ok u else .wait u .twinRelease)))

/-- R335 to R339, R350 to R354, R356, R357, R385. -/
def Obligations.TwinSyncSequenceAndNightWatch : Prop :=
  (∀ (s : State) (dt : Nat), let u := s.pass dt
    exec (.syncSend dt) s = .next (if u.isOn .twin = true ∧ u.twin.syncAt + 10 * cycMs ≤ u.cyc ∧ ((u.link 24).st = .up ∨ (u.link 25).st = .up) then
      u.updTwin fun t => { t with syncAt := u.cyc, lastT1 := u.now, lastSync := u.syncBytes } else u)) ∧
  (∀ (s : State) (dt : Nat) (msg : List Byte), let u := s.pass dt
    let m := syncFields msg
    let a := u.updTwin fun t => { t with echoT1 := m.t1, echoT2 := u.now, peerUarno := m.uarnoVer, peerTimeState := m.timeState }
    let b := if a.twin.pair = 1 ∧ m.echoT1 ≠ 0 then
      (a.twinChange fun s => s.updTwin fun t => { t with pair := 2 }).raise 0 evTwinPairUp else a
    let own := (b.func 0).chosen
    let c := if m.uarnoVer < own ∧ b.twin.versionRaised = false then
      (b.updTwin fun t => { t with versionRaised := true }).raise 0 evTwinVersion own m.uarnoVer else b
    let d := (c.seeRan m.ranMask).seeDigest 0 m.digestA
    let e := if d.partOn = true then d.seeDigest 1 m.digestB else d
    exec (.syncReceived dt msg) s = .next (
      if byteAt msg 0 ≠ 2 ∨ u.isOn .twin = false ∨ ¬ (u.twin.pair = 1 ∨ u.twin.pair = 2) ∨ u.twin.echoT1 = m.t1 then u else e.syncTimeActs m u.now)) ∧
  (∀ msg : List Byte, let m := syncFields msg
    let at_ (o : Nat) : Nat := let x := leNat ((msg.drop o).take 12)
      mkTime (bits x 0 48) (bits x 48 32) (bits x 80 16)
    m.digestA = leNat ((msg.drop 1).take 32) ∧ m.digestB = leNat ((msg.drop 33).take 32) ∧ m.uarnoVer = byteAt msg 65 ∧
    m.ranMask = byteAt msg 66 ∧ m.timeState = byteAt msg 67 ∧ m.t1 = at_ 68 ∧ m.echoT1 = at_ 80 ∧ m.echoT2 = at_ 92) ∧
  (∀ (s : State) (dt : Nat) (p : Fin 2), let u := s.pass dt
    let c := u.claim p
    (c.diffSince = none → exec (.divergeTimeout dt p) s = .next u) ∧
    (∀ t, c.diffSince = some t → exec (.divergeTimeout dt p) s = .next (
      if u.isOn .twin = false ∨ c.diverged = true ∨ u.cyc < t + u.divergeCyc then u
      else (u.updClaim p fun c => { c with diverged := true }).raise p evTwinDiverged 0
        (u.digest p % 2 ^ 160 + c.peerDigest % 2 ^ 160 * 2 ^ 160)))) ∧
  (∀ (s : State) (dt : Nat) (port : Fin 48), let u := s.pass dt
    let t := u.port port
    let due := u.paired = true ∧ u.leads (u.portPart port) = true ∧ u.portExists port = true ∧
      t.sampleAt + (if bit u.twin.peerAligned port = true then cycMs else 10 * cycUs) ≤ u.cyc
    (¬ due ∨ t.sample u.cyc = none → exec (.seqSampleSend dt port) s = .next u) ∧
    (∀ h, due → t.sample u.cyc = some h → exec (.seqSampleSend dt port) s = .next (
      (u.updPort port fun t => { t with sampleAt := u.cyc }).updTwin fun w =>
        { w with lastSample := leBytes 13 (3 + port.val * 2 ^ 8 + h.1 * 2 ^ 16 + h.2.1 * 2 ^ 32 + h.2.2.1 * 2 ^ 64) }))) ∧
  (∀ (s : State) (dt : Nat) (x : Byte) (len : BitVec 16) (fcs : BitVec 32) (seq : BitVec 40), let u := s.pass dt
    let port := x.toNat
    exec (.seqSampleReceived dt x len fcs seq) s = .next (
      if port < 48 ∧ u.paired = true ∧ u.leads (u.portPart port) = false then
        u.updPort port fun t => { t with samples := t.samples ++ [(len.toNat, fcs.toNat, seq.toNat, u.cyc)] } else u)) ∧
  (∀ (s : State) (dt : Nat) (port : Fin 48), let u := s.pass dt
    ((u.port port).samples = [] → exec (.seqSampleDecide dt port) s = .next u) ∧
    (∀ len fcs seq at_ rest, (u.port port).samples = (len, fcs, seq, at_) :: rest →
      let v := u.updPort port fun t => { t with samples := rest }
      exec (.seqSampleDecide dt port) s = .next (if u.cyc < at_ + 128 * cycUs then u
        else if v.paired = true ∧ v.leads (v.portPart port) = false then v.decideSample port ((v.port port).result len fcs seq at_)
        else v))) ∧
  (∀ a : Accepted twinFwdSpec, let m := bits a.x 0 48
    let own (p : Nat) : Bool := a.t.portPart p == a.part
    let mask := (List.range 48).foldl (fun z p => if bit (if own p = true then m else a.t.twin.fwdMask) p = true then z + 2 ^ p else z) 0
    let sum := ((List.range 48).map fun p => if (bit mask p && a.t.portExists p) = true then a.t.portRate p else 0).foldl (· + ·) 0
    exec (.twinFwdSet a.i) a.s = .next (a.does (
      if bits a.x 48 16 ≠ 0 then .fail a.t stBadArg
      else if ((List.range 48).any fun p => bit m p && !own p) = true then .fail a.t stProtected
      else if 800000000 < sum then .fail a.t stOvercommit else .ok (a.t.updTwin fun t => { t with fwdMask := mask })))) ∧
  (∀ a : Accepted twinDigestSpec, exec (.twinDigestRead a.i) a.s = .next (a.does
    (.okResp a.t 0 (leBytes 32 (a.t.digest a.part) ++ leBytes 32 (a.t.claim a.part).peerDigest)))) ∧
  (∀ a : Accepted nwLoadSpec, exec (.nwLoad a.i) a.s = .next (a.does (
    if bits a.x 5 59 ≠ 0 then .fail a.t stBadArg
    else match nwRecords (bits a.x 0 5) (a.x >>> 64) with
      | none => .fail a.t stBadArg
      | some l => if (l.any fun r => a.t.portPart r.1 != a.part) = true then .fail a.t stProtected
        else .ok (a.t.updTwin fun t => { t with tests := (t.tests.filter fun r => a.t.portPart r.1 != a.part) ++ l })))) ∧
  (∀ (s : State) (dt : Nat) (p : Fin 2) (pathOk : Bool), let u := s.pass dt
    let c := u.claim p
    let tests := u.twin.tests.filter fun r => u.portPart r.1 == p.val
    let holder := c.num != 0
    let v := if holder = true then u else u.bump ⟨0x15, 4, 0⟩ p tests.length
    let checks := v.nwChecks p (!holder && !tests.isEmpty && !(pathOk && tests.all u.testPasses))
    let mask := checks.zipIdx.foldl (fun m (b, i) => if b.1 then m + 2 ^ i else m) 0
    let w := checks.zipIdx.foldl (fun s (b, i) => if b.1 && !bit c.failed i then s.raise p evNwFail i b.2 else s) v
    exec (.nightWatch dt p pathOk) s = .next (
      if u.isOn .twin = false ∨ u.twinParts.contains p.val = false ∨ u.chip.thermal.st ≠ 0 ∨ u.cyc < c.nwAt + u.nwCyc then u
      else w.updClaim p fun c =>
        { c with nwAt := w.cyc, ueSeen := w.mem.ueTotal, failed := mask, health := mask + (if mask = 0 then 128 else 0) })) ∧
  (∀ (s : State) (dt : Nat) (pairId inPort : Fin 256) (p : Fin 2), let u := s.pass dt
    let key := windowKey pairId inPort p
    (u.twin.windows.find? key = none → exec (.dedupWindowAge dt pairId inPort p) s = .next u) ∧
    (∀ w, u.twin.windows.find? key = some w → exec (.dedupWindowAge dt pairId inPort p) s = .next (
      if w.last + u.windowAge ≤ u.cyc then { u with twin := { u.twin with windows := u.twin.windows.del key } } else u)))

/-- R361, R362, R364, R365, R370, R434, R460, R461: the link, the functions' PCIe state and bad accesses. -/
def Obligations.LinkAndFunctionRowsSetTheFunction : Prop :=
  (∀ (s : State) (dt speed width : Nat), s.chip.porst = true → s.chip.sysrst = true → s.chip.thermal.st ≠ 2 →
    (speed = 1 ∨ speed = 2 ∨ speed = 3) → (width = 4 ∨ width = 8 ∨ width = 16) →
    ∃ t, exec (.pcieLinkTrained dt speed width) s = .next t ∧
      t.vitals = { (s.pass dt).vitals with linkUp := true, speed := speed, width := width }) ∧
  (∀ (s : State) (dt speed width : Nat), ¬ (speed = 1 ∨ speed = 2 ∨ speed = 3) ∨ ¬ (width = 4 ∨ width = 8 ∨ width = 16) →
    exec (.pcieLinkTrained dt speed width) s = .next (s.pass dt)) ∧
  (∀ (s : State) (dt : Nat), exec (.pcieLinkDown dt) s =
    .next { s.pass dt with host := { s.host with linkUp := false, speed := 0, width := 0 } }) ∧
  (∀ (s : State) (dt : Nat) (fn : Fin 2),
    (∀ r, (s.ring fn r).held = [] ∧ (s.ring fn r).heldEvts = [] ∧ (s.ring fn r).discard = none ∧ (s.ring fn r).fetched = []) →
    exec (.busMasterEnable dt fn) s = .next ((s.pass dt).updFunc fn fun p => { p with busMaster := true })) ∧
  (∀ (s : State) (dt : Nat) (fn : Fin 2),
    exec (.busMasterDisable dt fn) s = .next ((s.pass dt).updFunc fn fun p => { p with busMaster := false })) ∧
  (∀ (s : State) (dt : Nat) (fn : Fin 2), let u := s.pass dt
    let sub : Nat := if s.host.subsysTaken = true then s.host.subsys else u.reg 0x03C00010
    exec (.configurationRequest dt fn) s = .next { u with host := { s.host with
      subsysTaken := true, subsys := sub
      cfgOut :=
        { vendor := 0x1F3A, device := if fn.val = 0 then 0x4880 else 0x4881
          revision := if s.chip.stepping = 0 then 0x00 else 0x10, classCode := 0x028000
          subsysVendor := bits sub 0 16, subsysId := (bits sub 16 16 + fn.val) % 0x10000, multiFunction := true } } }) ∧
  (∀ (s : State) (dt : Nat) (fn : Fin 2) (off : Fin 4096) (value : Word32), off.val % 16 = 12 → value.getLsbD 0 = false →
    ((s.func fn).msix.get {} (off.val / 16)).pending = true → s.hostUp = true → s.canWrite fn = true →
    ∃ t, exec (.msixTableWrite dt fn off value) s = .next t ∧
      (t.func fn).msix.get {} (off.val / 16) =
        { (s.func fn).msix.get {} (off.val / 16) with
          masked := false, pending := false, sent := ((s.func fn).msix.get {} (off.val / 16)).sent + 1 } ∧
      (∀ v, v ≠ off.val / 16 → (t.func fn).msix.get {} v = (s.func fn).msix.get {} v) ∧ t.vitals = s.vitals) ∧
  (∀ (s : State) (dt : Nat) (fn : Fin 2) (value : Word32), s.hostUp = true → (s.func fn).idle = true →
    exec (.versionOffer dt fn value) s = .next ((s.pass dt).updFunc fn fun p =>
      { p with offer := value.toNat % 256, chosen := highestVersion s.supported (min (value.toNat % 256) 7) })) ∧
  (∀ (s : State) (dt : Nat) (fn : Fin 2) (value : Word32), (s.func fn).idle = false →
    exec (.versionOffer dt fn value) s = .next (s.pass dt)) ∧
  (∀ (s : State) (dt off size : Nat) (fn : Fin 2), s.hostUp = true → s.serves fn = true →
    exec (.mw2BadWrite dt fn off size) s = .next ((s.pass dt).raise (s.partOf fn) evHifBadAccess off)) ∧
  (∀ (s : State) (dt off size : Nat) (fn : Fin 2) (write : Bool), s.hostUp = true →
    exec (.mw0BadAccess dt fn off size write) s = .next (if write then (s.pass dt).raise (s.partOf fn) evHifBadAccess off
      else { s.pass dt with chip := { s.chip with mw0Read := BitVec.allOnes 32 } }.raise (s.partOf fn) evHifBadAccess off))

/-- R370, R372, R373, R379, R388, R390, R391: doorbells. -/
def Obligations.DoorbellsMoveTheHostIndex : Prop :=
  (∀ (s : State) (dt : Nat) (fn : Fin 2) (ring : Fin 64) (value : BitVec 64) (entries : List (BitVec 512)),
    let g := s.ring fn ring
    s.doorbellLive fn = true → (g.st = .running ∨ g.st = .fenced) → value.toNat < 2 ^ 32 → g.producerOk value.toNat = true →
    g.fetchStop = false → g.newly value.toNat ≤ entries.length →
    exec (.commandDoorbell dt fn ring value entries) s = .next
      ((((s.pass dt).updRing fn ring fun g => { g with hostIndex := value.toNat }).updRing fn ring fun h =>
        { h with fetched := h.fetched ++ (takeDescs g.partialDesc (entries.take (g.newly value.toNat))).1
                 partialDesc := (takeDescs g.partialDesc (entries.take (g.newly value.toNat))).2 }).settle fn ring)) ∧
  (∀ (s : State) (dt : Nat) (fn : Fin 2) (ring : Fin 64) (value : BitVec 64) (entries : List (BitVec 512)),
    let g := s.ring fn ring
    s.doorbellLive fn = true → (g.st = .running ∨ g.st = .fenced) → 2 ^ 32 ≤ value.toNat ∨ g.producerOk value.toNat = false →
    exec (.commandDoorbell dt fn ring value entries) s = .next
      (((s.pass dt).updRing fn ring fun g => { g with err := 3 }).raise (s.partOf fn) evRingDoorbellBad ring value.toNat)) ∧
  (∀ (s : State) (dt : Nat) (fn : Fin 2) (ring : Fin 64) (value : BitVec 64) (entries : List (BitVec 512)),
    (s.ring fn ring).st = .disabled ∨ (s.ring fn ring).st = .stopping →
    exec (.commandDoorbell dt fn ring value entries) s = .next (s.pass dt)) ∧
  (∀ (s : State) (dt : Nat) (fn : Fin 2) (ring : Fin 64) (value : BitVec 64),
    let g := s.ring fn (compRing ring)
    s.doorbellLive fn = true → g.st ≠ .disabled → value.toNat < 2 ^ 32 → g.consumerOk value.toNat = true →
    exec (.completionDoorbell dt fn ring value) s = .next
      ((((s.pass dt).updRing fn (compRing ring) fun h =>
        { h with hostIndex := value.toNat, comps := h.comps.drop (h.newly value.toNat) }).drainComps fn ring g.held.length).settle
          fn ring)) ∧
  (∀ (s : State) (dt : Nat) (fn : Fin 2) (ring : Fin 16) (value : BitVec 64),
    let g := s.ring fn (evtRing ring)
    s.doorbellLive fn = true → g.st ≠ .disabled → value.toNat < 2 ^ 32 → g.consumerOk value.toNat = true →
    exec (.eventDoorbell dt fn ring value) s = .next
      (((s.pass dt).updRing fn (evtRing ring) fun h =>
        { h with hostIndex := value.toNat, evts := h.evts.drop (h.newly value.toNat) }).drainEvts fn (evtRing ring) 257)) ∧
  (∀ (s : State) (dt : Nat) (fn : Fin 2) (ring : Fin 32) (value : BitVec 64) (entries : List (BitVec 128)),
    let g := s.ring fn (144 + ring.val)
    s.doorbellLive fn = true → g.st ≠ .disabled → value.toNat < 2 ^ 32 → g.producerOk value.toNat = true → g.fetchStop = false →
    g.newly value.toNat ≤ entries.length →
    exec (.puntDoorbell dt fn ring value entries) s = .next
      (((s.pass dt).updRing fn (144 + ring.val) fun h => { h with hostIndex := value.toNat }).updRing fn (144 + ring.val) fun h =>
        { h with posted := h.posted ++ (entries.take (g.newly value.toNat)).map (·.truncate 64) })) ∧
  (∀ (s : State) (dt : Nat) (fn : Fin 2) (ring : Fin 32) (value : BitVec 64) (entries : List (BitVec 256)),
    let g := s.ring fn (176 + ring.val)
    s.doorbellLive fn = true → g.st ≠ .disabled → value.toNat < 2 ^ 32 → g.producerOk value.toNat = true → g.fetchStop = false →
    g.newly value.toNat ≤ entries.length →
    exec (.injectDoorbell dt fn ring value entries) s = .next
      (((s.pass dt).updRing fn (176 + ring.val) fun h => { h with hostIndex := value.toNat }).updRing fn (176 + ring.val) fun h =>
        { h with injects := h.injects ++ entries.take (g.newly value.toNat) }))

/-- R368, R369, R371, R378, R410: ring control, moderation and progress. -/
def Obligations.RingControlStartsAndStopsRings : Prop :=
  (∀ (s : State) (dt : Nat) (fn : Fin 2) (r : Fin 208) (v : Word32), let u := s.pass dt
    (u.hostUp = false → exec (.ringEnable dt fn r v) s = .next u ∧ exec (.ringDisable dt fn r v) s = .next u) ∧
    (u.hostUp = true → u.serves fn = false → let t := u.raise (u.partOf fn) evHifBadAccess (0x1008 + 0x20 * r)
      exec (.ringEnable dt fn r v) s = .next t ∧ exec (.ringDisable dt fn r v) s = .next t)) ∧
  (∀ (s : State) (dt : Nat) (fn : Fin 2) (r : Fin 208) (v : Word32), let u := s.pass dt
    let w := u.updRing fn r fun g => (g.shape v.toNat).control v.toNat
    let e := if bits v.toNat 4 5 < 6 ∨ 16 < bits v.toNat 4 5 then 1 else if (u.func fn).chosen = 0 then 2
      else if u.partOn && ringBeyond r then 6 else if r.val < 64 ∧ (u.ring fn (64 + r)).st ≠ .running then 7 else 0
    let on := w.updRing fn r Ring.enabled
    u.hostUp = true → u.serves fn = true → exec (.ringEnable dt fn r v) s = .next (
      if v.getLsbD 0 = false ∨ (u.ring fn r).st ≠ .disabled then w
      else if e ≠ 0 then w.updRing fn r fun g => { g with err := e }
      else if 128 ≤ r.val ∧ r.val < 144 then on.drainEvts fn r 257 else on)) ∧
  (∀ (g : Ring) (v : Nat), let h := (g.shape v).control v
    h.intEn = bit v 1 ∧ h.vector = bits v 16 8 ∧ h.modUs = bits v 24 8 ∧ h.st = g.st ∧
    (g.st = .disabled → h.log2 = bits v 4 5 ∧ h.bufCode = bits v 12 3) ∧ (g.st ≠ .disabled → h.log2 = g.log2 ∧ h.bufCode = g.bufCode) ∧
    g.enabled.st = .running ∧ g.enabled.err = 0 ∧ g.enabled.devIndex = 0 ∧ g.enabled.hostIndex = 0 ∧ g.enabled.lastSeq = none ∧
    g.enabled.fetched = [] ∧ g.enabled.heldEvts = g.heldEvts ∧ g.enabled.base = g.base ∧ g.enabled.log2 = g.log2) ∧
  (∀ (s : State) (dt : Nat) (fn : Fin 2) (r : Fin 208) (v : Word32), let u := s.pass dt
    let w := u.updRing fn r fun g => (g.shape v.toNat).control v.toNat
    u.hostUp = true → u.serves fn = true → exec (.ringDisable dt fn r v) s = .next (
      if v.getLsbD 0 = true ∨ (u.ring fn r).st = .disabled then w
      else if r.val < 64 then w.ringAbort fn r
      else if r.val < 128 ∧ (u.ring fn (r.val - 64)).st ≠ .disabled then w
      else w.updRing fn r fun g => { g with st := .disabled, unsignalled := none })) ∧
  (∀ (s : State) (fn n : Nat), let stop := (s.updRing fn n fun g => { g with st := .stopping, abortCount := 0 }).abortHead fn n
    ((s.ring fn n).st ≠ .running → (s.ring fn n).st ≠ .fenced → s.ringAbort fn n = s) ∧
    ((s.ring fn n).st = .running ∨ (s.ring fn n).st = .fenced → s.ringAbort fn n =
      if (stop.ring fn n).running = none ∧ stop.chip.d2dDown = false then stop.flushDescs fn n else stop) ∧
    (s.runningOn fn n = none → s.abortHead fn n = s)) ∧
  (∀ (s : State) (fn n : Nat), let g := s.ring fn n
    let l := g.fetched ++ (g.partialDesc.map fun d => ({ raw := d : Desc })).toList
    let used := (g.fetched.map fun d => if d.auth then 2 else 1).foldl (· + ·) 0 + g.partialDesc.toList.length
    s.flushDescs fn n = l.foldl (fun s d =>
        (s.bump ⟨0x16, 1, 1⟩ (n + if s.partOn = true then 32 * fn else 0)).complete fn n d stAborted 0 0 false [])
      (s.updRing fn n fun g => { g with
        fetched := [], partialDesc := none, devIndex := (g.devIndex + used) % 2 ^ 32, abortCount := g.abortCount + l.length })) ∧
  (∀ (s : State) (dt : Nat) (fn : Fin 2) (ring : Fin 64), let u := s.pass dt
    let w := u.flushDescs fn ring
    exec (.commandRingStopped dt fn ring) s = .next (
      if (u.ring fn ring).st ≠ .stopping ∨ (u.ring fn ring).running ≠ none ∨ u.chip.d2dDown = true then u
      else if (w.ring fn (64 + ring)).held = [] then w.updRing fn ring fun g => { g with st := .disabled } else w)) ∧
  (∀ (s : State) (dt : Nat) (fn : Fin 2) (r : Fin 208), let u := s.pass dt
    let g := u.ring fn r
    (g.unsignalled = none → exec (.interruptModerationExpiry dt fn r) s = .next u) ∧
    (∀ t, g.unsignalled = some t → exec (.interruptModerationExpiry dt fn r) s = .next (if t + g.modUs * 800 ≤ u.cyc then
      (u.updRing fn r fun g => { g with unsignalled := none }).sendVector fn g.vector else u))) ∧
  (∀ (s : State) (dt : Nat) (fn : Fin 2) (ring : Fin 64), let u := s.pass dt
    ((u.ring fn ring).running = none → exec (.progressReport dt fn ring) s = .next u) ∧
    (∀ run, (u.ring fn ring).running = some run → exec (.progressReport dt fn ring) s = .next (
      if u.reports run.wait = true then
        u.updRing fn ring fun g => { g with progSeq := run.seq, progStatus := 0x0D, progTick := (g.progTick + 1) % 256 } else u))) ∧
  (∀ (s : State) (w : Wait), s.reports w = true ↔ (w = .modeDone ∧ (s.modes.partWait = true ∨ s.modes.pageDrain = true)) ∨
    (∃ p, w = .gateTurn p) ∨ (∃ p, w = .gateStart p ∧ ∃ c, (s.gate p).pending = some c ∧ c.raising = true) ∨ w = .capacity ∨
    ∃ claim order since stalled, w = .commit claim order (some since) stalled)

/-- R396, R397, R404, R408: the security commands. -/
def Obligations.SecurityCommandsSetKeysPolicyAndFence : Prop :=
  (∀ a : Accepted keyInstallSpec, bits a.x 3 61 = 0 → bits a.x 0 3 = a.d.keySlot →
    exec (.keyInstall a.i) a.s = .next (match keyUnwrap a.t.sec.kek (leBytes 40 (bits a.x 64 320)) with
      | some key => a.ends
          ((a.t.updSlot a.d.keySlot fun p =>
            { p with key := some key, last := a.d.counter, window := [{ counter := a.d.counter, tag := a.d.tag }] }).raise
            a.part evKeyInstalled a.d.keySlot a.d.counter) stOk 0 []
      | none => a.ends a.t stBadArg 0 [])) ∧
  (∀ a : Accepted keyInstallSpec, bits a.x 0 3 ≠ a.d.keySlot → exec (.keyInstall a.i) a.s = .next (a.ends a.t stBadArg 0 [])) ∧
  (∀ a : Accepted keyClearSpec, bits a.x 3 61 = 0 → bits a.x 0 3 = a.d.keySlot →
    exec (.keyClear a.i) a.s = .next (a.ends
      ((a.t.updSlot a.d.keySlot fun p => { p with key := none }).raise a.part evKeyCleared a.d.keySlot) stOk 0 [])) ∧
  (∀ a : Accepted authPolicySpec, bits a.x 1 63 = 0 →
    exec (.authPolicySet a.i) a.s = .next (a.ends { a.t with sec :=
      if a.part = 0 then { a.t.sec with commitAuthA := bit a.x 0 } else { a.t.sec with commitAuthB := bit a.x 0 } } stOk 0 [])) ∧
  (∀ a : Accepted fenceClearSpec, bits a.x 16 48 = 0 → (a.t.ring a.i.fn a.i.ring).st ≠ .fenced →
    exec (.fenceClear a.i) a.s = .next (a.ends a.t stOk 0 [])) ∧
  (∀ a : Accepted fenceClearSpec, bits a.x 16 48 = 0 → (a.t.ring a.i.fn a.i.ring).st = .fenced →
    bits a.x 0 16 = (a.t.ring a.i.fn a.i.ring).fenceSeq →
    exec (.fenceClear a.i) a.s = .next (a.ends
      ((a.t.updRing a.i.fn a.i.ring fun g => { g with st := .running }).raise a.part evRingUnfenced a.i.ring
        (a.t.ring a.i.fn a.i.ring).fenceSeq) stOk ((a.t.ring a.i.fn a.i.ring).fenceSeq + 0x10000) [])) ∧
  (∀ a : Accepted fenceClearSpec, bits a.x 16 48 = 0 → (a.t.ring a.i.fn a.i.ring).st = .fenced →
    bits a.x 0 16 ≠ (a.t.ring a.i.fn a.i.ring).fenceSeq →
    exec (.fenceClear a.i) a.s = .next (a.ends a.t stFenced (a.t.ring a.i.fn a.i.ring).fenceSeq []))

/-- R364, R382, R393, R409, R411, R412: NOP, aborts, the reset of a function and the burning of the KEK. -/
def Obligations.AbortsResetsAndFuseBurnEndWhatTheyName : Prop :=
  (∀ a : Accepted nopSpec, exec (.nop a.i) a.s = .next (a.ends a.t stOk 0 [])) ∧
  (∀ (s : State) (func : Nat), s.abortRange func =
    ((if s.partOn = true then [32, 16, 16, 8, 1, 1, 6, 8, 12] else [64, 32, 32, 16, 1, 1, 6, 8, 12])[func]?).getD 0) ∧
  (∀ (s : State) (fn func index : Nat) (own : Option Nat),
    let other := s.partOn = true ∧ (func = 6 ∧ s.groupPart index ≠ fn ∨ (func = 7 ∨ func = 8 ∧ index < 8) ∧ index / 4 ≠ fn ∨
      func = 8 ∧ 8 ≤ index ∧ fn = 1)
    s.abortCheck fn func index own = if s.abortRange func ≤ index ∨ func = 0 ∧ own = some index then stBadArg
      else if other then stProtected else stOk) ∧
  (∀ a : Accepted abortSpec, let func := bits a.x 0 4
    let index := bits a.x 8 8
    let st := a.t.abortCheck a.i.fn func index (some a.i.ring)
    (bits a.x 4 4 ≠ 0 ∨ bits a.x 16 48 ≠ 0 → exec (.abort a.i) a.s = .next (a.ends a.t stBadArg 0 [])) ∧
    (bits a.x 4 4 = 0 → bits a.x 16 48 = 0 → st ≠ stOk → exec (.abort a.i) a.s = .next (a.ends a.t st 0 [])) ∧
    (bits a.x 4 4 = 0 → bits a.x 16 48 = 0 → st = stOk → exec (.abort a.i) a.s = .next (match a.t.abortAct a.i.fn func index with
      | (u, some n) => a.ends (u.raise (u.partOf a.i.fn) evAbortDone func (index + n * 256)) stOk n []
      | (u, none) => a.waits u (.abort func index)))) ∧
  (∀ (s : State) (fn index : Nat),
    s.abortAct fn 0 index = (if (s.ring fn index).st = .disabled then (s, some 0) else (s.ringAbort fn index, none)) ∧
    s.abortAct fn 1 index = (s.updRing fn (144 + index) fun g => { g with st := .disabled, unsignalled := none }, some 0) ∧
    s.abortAct fn 2 index = (s.updRing fn (176 + index) fun g => { g with st := .disabled, unsignalled := none }, some 0) ∧
    s.abortAct fn 3 index = (s.updRing fn (128 + index) fun g => { g with st := .disabled, unsignalled := none }, some 0) ∧
    s.abortAct fn 4 index = ((s.abortTables (s.partOf fn)).1, some (s.abortTables (s.partOf fn)).2) ∧
    s.abortAct fn 5 index = ((s.abortCaravan (s.partOf fn)).1, some (s.abortCaravan (s.partOf fn)).2) ∧
    ((s.group index).st = .on ∨ (s.group index).st = .off → s.abortAct fn 6 index = (s, some 0)) ∧
    ((s.group index).st = .starting ∨ (s.group index).st = .quiescing → (s.abortAct fn 6 index).2 = none) ∧
    s.abortAct fn 7 index = ((s.abortTraining index).1, some (s.abortTraining index).2) ∧
    s.abortAct fn 8 index = (s.abortPauses index, some 0)) ∧
  (∀ (s : State) (dt : Nat) (fn : Fin 2) (func index : Nat), let u := s.pass dt
    exec (.abortComplete dt fn func index) s = .next (
      if u.abortAwaited fn func index = true ∧ (func = 0 → (u.ring fn index).st ≠ .stopping) ∧
        (func = 6 → (u.group index).st ≠ .quiescing) then u.abortEnd fn func index else u)) ∧
  (∀ (s : State) (fn func index : Nat), s.abortAwaited fn func index = true ↔ (s.func fn).abortBusy = some (func, index) ∨
    ∃ e ∈ s.waiting, e.1 = fn ∧ e.2.2.wait = .abort func index) ∧
  (∀ (s : State) (fn func index : Nat), let n := s.abortCounted fn func index
    let v : State := { s with host := { s.host with
      aborts := s.host.aborts.filter fun a => !(a.fn == fn && a.func == func && a.index == index) } }
    let w := (if (s.func fn).abortBusy = some (func, index) then
      v.updFunc fn fun p => { p with abortBusy := none, abortStatus := stOk, abortCount := min n 0xFFFF } else v).raise (s.partOf fn)
        evAbortDone func (index + n * 256)
    s.abortEnd fn func index = w.waiting.foldl (fun s e =>
      if e.1 = fn ∧ e.2.2.wait = .abort func index then s.endWait e.1 e.2.1 stOk 0 n [] else s) w) ∧
  (∀ (s : State) (dt : Nat) (fn : Fin 2) (v : Word32), let u := s.pass dt
    let func := bits v.toNat 0 4
    let index := bits v.toNat 8 8
    let st := u.abortCheck fn func index none
    exec (.hifAbortGo dt fn v) s = .next (
      if u.hostUp = false then u
      else if u.serves fn = false ∨ (u.func fn).abortBusy ≠ none then u.raise (u.partOf fn) evHifBadAccess 0x20
      else if v.getLsbD 31 = false then u
      else if st ≠ stOk then u.updFunc fn fun p => { p with abortStatus := st, abortCount := 0 }
      else match u.abortAct fn func index with
        | (w, some n) => (w.updFunc fn fun p => { p with abortStatus := stOk, abortCount := min n 0xFFFF }).raise (w.partOf fn)
            evAbortDone func (index + n * 256)
        | (w, none) => w.updFunc fn fun p => { p with abortBusy := some (func, index) })) ∧
  (∀ (s : State) (dt : Nat) (fn : Fin 2), let w := (s.pass dt).abortRings fn 0
    ∃ t, exec (.functionLevelReset dt fn) s = .next t ∧ exec (.d3hotEntry dt fn) s = .next t ∧
      t.func fn = { busMaster := (w.func fn).busMaster, msix := (w.func fn).msix, rings := keepHeld (w.func fn).rings } ∧
      (∀ k, k ≠ fn.val → t.func k = w.func k) ∧
      (∀ r, (t.ring fn r).st = .disabled ∧ (t.ring fn r).heldEvts = (w.ring fn r).heldEvts)) ∧
  (∀ (s : State) (fn : Nat), s.abortRings fn 0 = (List.range 64).foldl (fun s n => s.ringAbort fn n) s) ∧
  (∀ (s : State) (dt : Nat), let u := s.pass dt
    let v : State := { u with chip := { u.chip with sbStatus := some stOk } }
    exec (.kekBurn dt) s = .next (if u.chip.sbReady = false then u
      else if u.sec.fuseState = 0 then { v with sec := { u.sec with fuseState := 1, burnStart := u.cyc } } else v)) ∧
  (∀ (s : State) (dt : Nat) (ok : Bool), let u := s.pass dt
    exec (.fuseBurnDone dt ok) s = .next (if u.sec.fuseState ≠ 1 then u else
      { u with sec := { u.sec with kek := if ok = true then u.sec.kekBytes else [], fuseState := if ok = true then 2 else 3
                                   kekData := [] } }.raise 0 evFuseBurnt (if ok = true then 2 else 3)))

/-- R73, R413, R438 to R441: lane groups and power domains. -/
def Obligations.GroupsAndDomainsRunTheirTransitions : Prop :=
  (∀ (s : State) (dt : Nat) (fn : Fin 2) (g : Fin 6), let u := s.pass dt
    (u.hostUp = false → exec (.groupEnable dt fn g) s = .next u ∧ exec (.groupDisable dt fn g) s = .next u) ∧
    (u.hostUp = true → u.serves fn = false → let t := u.raise (u.partOf fn) evHifBadAccess (0x41004 + 0x10 * g)
      exec (.groupEnable dt fn g) s = .next t ∧ exec (.groupDisable dt fn g) s = .next t) ∧
    (u.hostUp = true → u.serves fn = true → u.applied = true ∨ u.ownsGroup fn g = false ∨ u.chip.d2dDown = true →
      exec (.groupEnable dt fn g) s = .next u ∧ exec (.groupDisable dt fn g) s = .next u)) ∧
  (∀ (s : State) (dt : Nat) (fn : Fin 2) (g : Fin 6), let u := s.pass dt
    let c := u.groupEnableCheck g
    u.hostUp = true → u.serves fn = true → u.applied = false → u.ownsGroup fn g = true → u.chip.d2dDown = false →
    exec (.groupEnable dt fn g) s = .next (if (u.group g).wantsOn = true then u.setReg (0x00201004 + 0x10 * g) 1
      else if c.2 = true then (c.1.setReg (0x00201004 + 0x10 * g) 1).groupSwitch g true
      else c.1.orReg (0x00201008 + 0x10 * g) 0x100) ∧
    exec (.groupDisable dt fn g) s = .next (
      if (u.group g).wantsOn = true ∧ u.groupPromises g = true then u.orReg (0x00201008 + 0x10 * g) 0x100
      else (u.setReg (0x00201004 + 0x10 * g) 0).groupSwitch g false)) ∧
  (∀ (s : State) (g : Nat), let v : State := { s with xpt := { s.xpt with mapErr := s.xpt.mapErr.put 0 g (s.mapErrOf g) } }
    s.groupEnableCheck g = if s.layoutOk g = false then (s, false) else if s.xptGroup g = true then (v, s.mapErrOf g == 0)
      else (s, true)) ∧
  (∀ (s : State) (g : Nat), (s.groupPromises g = true ↔ ∃ p ∈ s.groupPorts g, s.portPromises p = true) ∧
    (s.groupLit g = true ↔ ∀ l ∈ s.groupLines g, ∀ n ∈ s.lanesOf l.1, (s.lane n).st ≠ .txOn)) ∧
  (∀ (s : State) (g : Nat) (on : Bool),
    ((s.group g).wantsOn = on → s.groupSwitch g on = s) ∧
    ((s.group g).wantsOn ≠ on → s.groupSwitch g on = (s.updGroup g fun d => { d with todo := d.todo ++ [on] }).groupNext g) ∧
    (∀ t, (s.group g).st = .off → (s.group g).todo = true :: t →
      s.groupNext g = (s.updGroup g fun d => { d with todo := t }).groupStart g) ∧
    (∀ t, (s.group g).st = .on → (s.group g).todo = false :: t →
      s.groupNext g = (s.updGroup g fun d => { d with todo := t }).groupStop g) ∧
    ((s.group g).todo = [] ∨ (s.group g).st = .starting ∨ (s.group g).st = .quiescing → s.groupNext g = s)) ∧
  (∀ (s : State) (dt : Nat) (g : Fin 6), let u := s.pass dt
    exec (.groupStartingDone dt g) s = .next (if (u.group g).st ≠ .starting ∨ u.groupLit g = false then u
      else ((u.updGroup g fun d => { d with st := .on }).powerDone 1 g (u.group g).turn 0).groupNext g) ∧
    exec (.groupQuiescingDone dt g) s = .next (if (u.group g).st ≠ .quiescing then u else u.groupOff g)) ∧
  (∀ (s : State) (dt : Nat) (d : Fin 236), let u := s.pass dt
    ((u.domain d).st ≠ .starting → exec (.domainStartingDone dt d) s = .next u) ∧
    ((u.domain d).st = .starting → domKind d ≠ .hbm → exec (.domainStartingDone dt d) s = .next (u.domainOn d)) ∧
    ((u.domain d).st = .starting → domKind d = .hbm → let k := (d.val - 184) / 4
      let g := (d.val - 184) % 4
      let v := (u.domainOn d).startUnits ((List.range 8).map (32 + 32 * k + 8 * g + ·)) ((List.range 4).map (8 + 16 * k + 4 * g + ·))
      let w := if ((List.range 4).all fun g => (v.domain (184 + 4 * k + g)).st == .on) = true then
        v.updStack k fun h => { h with st := 3 } else v
      exec (.domainStartingDone dt d) s = .next (if (u.stack k).boot = true ∨ (u.stack k).st = 4 then u
        else (if k < 2 then w.resetF else w.resetT).refreshRooms))) ∧
  (∀ (s : State) (dt : Nat) (d : Fin 236), let u := s.pass dt
    exec (.domainQuiescingDone dt d) s = .next (
      if (u.domain d).st ≠ .quiescing ∨ u.domainHolds d = true ∨ u.domainFree d = false then u else u.domainOff d 0)) ∧
  (∀ (s : State) (dt : Nat) (d : Fin 236), let u := s.pass dt
    let f := u.domainFlush d
    exec (.domainDrainTimeout dt d) s = .next (
      if (u.domain d).st ≠ .quiescing ∨ u.cyc < (u.domain d).since + domainBound d then u
      else if f.1.domainFree d = true then f.1.domainOff d f.2
      else f.1.updDomain d fun x => { x with dropped := x.dropped + f.2 })) ∧
  (∀ d : Nat, domainBound d = (if 152 ≤ d ∧ d < 184 then 50 * 800 else if 184 ≤ d ∧ d < 208 then 20 * 800
    else if 208 ≤ d ∧ d < 220 then 10 * 800 else if 220 ≤ d then 10 * 800000 else 250 * 800))

/-- R433 to R436, R443 to R446, R457 to R459: resets, clocks, temperatures, the sideband. -/
def Obligations.ResetsClocksThermalAndSidebandActAsStated : Prop :=
  (∀ (s : State) (dt : Nat), let u := s.pass dt
    ∃ t, exec (.porstNAssert dt) s = .next t ∧ t = ({ u with chip := { u.chip with porst := false } }).cleared ∧ t.regs = [] ∧
      t.lanes = [] ∧ t.chip.porst = false ∧ t.sec.slots = [] ∧ t.sec.kek = u.sec.kek ∧ t.sec.fuseState = u.sec.fuseState) ∧
  (∀ (s : State) (dt : Nat), let u := s.pass dt
    u.chip.porst = false → exec (.porstNRelease dt) s = .next
      (({ u.cleared with chip := { u.cleared.chip with porst := true, resets := u.chip.resets }
                         sec := { u.cleared.sec with nonce := u.sec.nonce } }).startUp)) ∧
  (∀ (s : State) (dt : Nat), let u := s.pass dt
    u.chip.sysrst = true → u.chip.porst = true → u.chip.thermal.st ≠ 2 →
    exec (.sysrstNAssert dt) s = .next ((({ u with chip := { u.chip with sysrst := false } }).allStop).orReg 0x03400008 2)) ∧
  (∀ (s : State) (dt : Nat), let u := s.pass dt
    u.chip.sysrst = false → u.chip.porst = true → u.chip.thermal.st ≠ 2 →
    ∃ t, t = ({ u with chip := { u.chip with sysrst := true } }).sysCleared ∧ exec (.sysrstNRelease dt) s = .next
      (({ t with chip := { t.chip with resets := u.chip.resets }, sec := { t.sec with nonce := u.sec.nonce } }).startUp)) ∧
  (∀ (s : State) (dt : Nat) (b : Bool), let u := s.pass dt
    u.chip.thermal.st = 2 ∨ u.chip.porst = false →
    exec (if b then .sysrstNRelease dt else .sysrstNAssert dt) s = .next { u with chip := { u.chip with sysrst := b } }) ∧
  (∀ (s : State) (dt : Nat) (sys pcie ln fb : Bool), let u := s.pass dt
    u.chip.clkAt + 10 * cycUs ≤ u.cyc → u.chip.porst = true →
    ∃ t, t = { u with chip := { u.chip with clkAt := u.cyc, sysOk := sys, pcieOk := sys && pcie, lnOk := sys && ln, fbOk := sys && fb } } ∧
      exec (.clockCheck dt sys pcie ln fb) s = .next (t.orReg 0x00100004 (lostBits u.chip.clkOk t.chip.clkOk))) ∧
  (∀ (s : State) (dt : Nat) (f t : Vector (Option Int) 16), let u := s.pass dt
    let v := (f.toList ++ t.toList).zipIdx.foldl (fun s (r, k) => s.readSensor k r) (u.setThermal fun x => { x with readAt := u.cyc })
    let w := v.setThermal fun x =>
      { x with tempF := highest (x.valid 0 f.toList) x.tempF, tempT := highest (x.valid 1 t.toList) x.tempT }
    let j := max w.chip.thermal.tempF w.chip.thermal.tempT
    u.chip.thermal.st ≠ 2 → u.chip.porst = true → u.chip.thermal.readAt + 100 * cycUs ≤ u.cyc →
    w.chip.thermal.valid 0 f.toList ≠ [] → w.chip.thermal.blind 0 = false → w.chip.thermal.blind 1 = false →
    (j < 95 → j < w.warnC - 5 → exec (.thermalReading dt f t) s = .next (w.setThermal fun x => { x with warned := false })) ∧
    (115 ≤ j → ∃ t', exec (.thermalReading dt f t) s = .next t' ∧ t'.chip.thermal.st = 2 ∧ t'.host.linkUp = false)) ∧
  (∀ (s : State) (dt : Nat) (f t : Vector (Option Int) 16), let u := s.pass dt
    u.chip.thermal.st = 0 → u.chip.porst = true → u.chip.thermal.readAt + 100 * cycUs ≤ u.cyc →
    (∀ k < 32, u.chip.thermal.excluded.get false k = true) →
    exec (.thermalReading dt f t) s = .next
      ((u.setThermal fun x => { x with readAt := u.cyc, stuck := true }).throttle (max u.chip.thermal.tempF u.chip.thermal.tempT))) ∧
  (∀ (s : State) (dt : Nat), let u := s.pass dt
    u.chip.thermal.st = 1 → u.chip.thermal.stuck = false → u.chip.thermal.hotAt + 10 * cycMs ≤ u.cyc →
    exec (.throttleRelease dt) s = .next ((u.syncIngress.setThermal fun x => { x with st := 0 }).raiseSt 0 evThermThrottle 0
      (temp8 (max u.chip.thermal.tempF u.chip.thermal.tempT)) false)) ∧
  (∀ (s : State) (dt : Nat), let u := s.pass dt
    u.chip.porst = true → exec (.sidebandReady dt) s = .next { u with chip := { u.chip with sbReady := true } }) ∧
  (∀ (s : State) (dt : Nat) (addr v : Word32), let u := s.pass dt
    u.chip.sbReady = true → ∃ t st, exec (.smbRegisterWrite dt addr v) s = .next { t with chip := { t.chip with sbStatus := some st } } ∧
      st = (if badAddr addr.toNat then stBadArg else if sbWritable addr.toNat then stOk else stProtected) ∧
      t = if badAddr addr.toNat = false ∧ sbWritable addr.toNat = true then u.sbWrite addr.toNat v else u) ∧
  (∀ (s : State) (dt : Nat) (addr : Word32), let u := s.pass dt
    u.chip.sbReady = true → exec (.smbSetReadAddress dt addr) s = .next { u with chip := { u.chip with sbAddr := some addr } }) ∧
  (∀ (s : State) (dt : Nat), let u := s.pass dt
    u.chip.sbReady = true → exec (.smbReadResult dt) s = .next { u with
      freeCtr := u.freeCtr + 1
      chip := { u.chip with sbOut := (u.chip.sbStatus.getD u.sbResult.1, u.sbResult.2), sbStatus := none } }) ∧
  (∀ (s : State) (dt : Nat) (addr v : Word32), let u := s.pass dt
    u.chip.sbReady = false → exec (.smbRegisterWrite dt addr v) s = .next u ∧ exec (.smbSetReadAddress dt addr) s = .next u ∧
      exec (.smbReadResult dt) s = .next u)

/-- R413, R437 to R442: power commands, while PARTITION is not ON. -/
def Obligations.PowerCommandsSwitchDomainsAndGroups : Prop :=
  (∀ a : Accepted powerOnSpec, (bits a.x 2 6 ≠ 0 ∨ bits a.x 16 48 ≠ 0 ∨ 2 ≤ bits a.x 0 2 ∨ (bits a.x 0 2 = 0 ∧ bits a.x 8 8 < 152) ∨
      236 ≤ bits a.x 8 8 ∨ (bits a.x 0 2 = 1 ∧ 6 ≤ bits a.x 8 8)) →
    exec (.powerDomainOn a.i) a.s = .next (a.ends a.t stBadArg 0 [])) ∧
  (∀ a : Accepted powerOnSpec, powerOk a.x = true → a.t.partOn = false → bits a.x 0 2 = 0 →
    ∃ t d, t = a.t.domainSwitch (bits a.x 8 8) true ∧ d = t.domain (bits a.x 8 8) ∧
      exec (.powerDomainOn a.i) a.s = .next (if d.todo = [] ∧ (d.st = .on ∨ d.st = .off) then a.ends t stOk 0 []
        else a.waits t (.power 0 (bits a.x 8 8) (d.turn + d.todo.length)))) ∧
  (∀ a : Accepted powerOnSpec, powerOk a.x = true → a.t.partOn = false → bits a.x 0 2 = 1 →
    ∃ r t d, r = (if (a.t.group (bits a.x 8 8)).wantsOn then (a.t, true) else a.t.groupEnableCheck (bits a.x 8 8)) ∧
      t = r.1.groupSwitch (bits a.x 8 8) true ∧ d = t.group (bits a.x 8 8) ∧
      exec (.powerDomainOn a.i) a.s = .next (if a.t.applied = false then a.ends a.t stBadArg 0 []
        else if r.2 = false then a.ends r.1 stBadArg 0 []
        else if d.todo = [] ∧ (d.st = .on ∨ d.st = .off) then a.ends t stOk 0 []
        else a.waits t (.power 1 (bits a.x 8 8) (d.turn + d.todo.length)))) ∧
  (∀ a : Accepted powerOffSpec, powerOk a.x = true → a.t.partOn = false → bits a.x 0 2 = 0 →
    ∃ t d, t = a.t.domainSwitch (bits a.x 8 8) false ∧ d = t.domain (bits a.x 8 8) ∧
      exec (.powerDomainOff a.i) a.s = .next (
        if (a.t.domain (bits a.x 8 8)).wantsOn = true ∧ a.t.offRefused (bits a.x 8 8) ≠ stOk then
          a.ends a.t (a.t.offRefused (bits a.x 8 8)) 0 []
        else if d.todo = [] ∧ (d.st = .on ∨ d.st = .off) then a.ends t stOk 0 []
        else a.waits t (.power 0 (bits a.x 8 8) (d.turn + d.todo.length)))) ∧
  (∀ a : Accepted powerOffSpec, powerOk a.x = true → a.t.partOn = false → bits a.x 0 2 = 1 →
    ∃ t d, t = a.t.groupSwitch (bits a.x 8 8) false ∧ d = t.group (bits a.x 8 8) ∧
      exec (.powerDomainOff a.i) a.s = .next (if a.t.applied = false then a.ends a.t stBadArg 0 []
        else if (a.t.group (bits a.x 8 8)).wantsOn = true ∧ a.t.groupPromises (bits a.x 8 8) = true then a.ends a.t stOvercommit 0 []
        else if d.todo = [] ∧ (d.st = .on ∨ d.st = .off) then a.ends t stOk 0 []
        else a.waits t (.power 1 (bits a.x 8 8) (d.turn + d.todo.length)))) ∧
  (∀ a : Accepted powerReadSpec, exec (.powerStatusRead a.i) a.s = .next (a.ends a.t stOk 0 a.t.powerStatus))

/-- R158. -/
def Obligations.PrefilterMapsNeverChangeAResult : Prop :=
  (∀ v0 m v : Nat, v0 < 256 → m < 256 → v < 256 → (bit (byteMap v0 m) v = true ↔ v &&& m = v0 &&& m)) ∧
  (∀ (s : State) (bank slot rec_ j v : Nat), let w := s.bankWidth bank
    let t := s.mapRow bank slot rec_
    (j < keyBytes w → v < 256 → v &&& bits (recMask rec_ w) (8 * j) 8 = bits (recValue rec_ w) (8 * j) 8 &&& bits (recMask rec_ w) (8 * j) 8 →
      bit (t.blockMap bank (s.rowBlock bank slot) j) v = true) ∧
    ∀ b block i, bit (s.blockMap b block i) v = true → bit (t.blockMap b block i) v = true) ∧
  (∀ (s : State) (bank j v : Nat) (r : Nat × Nat × Nat), let w := s.bankWidth bank
    let x := s.rowRecord r
    r ∈ s.lookup.bankRows.get [] bank → j < keyBytes w → v < 256 →
    v &&& bits (recMask x w) (8 * j) 8 = bits (recValue x w) (8 * j) 8 &&& bits (recMask x w) (8 * j) 8 →
    bit ((s.remapBank bank).blockMap bank (s.rowBlock bank r.1) j) v = true) ∧
  (∀ (s : State) (profile bank key ep : Nat), let w := s.bankWidth bank
    (∀ r ∈ s.lookup.bankRows.get [] bank, ∀ x ∈ s.versions r.2.1, x.birth = r.2.2 → ∀ j < keyBytes w, ∀ v < 256,
      v &&& bits (recMask x.data w) (8 * j) 8 = bits (recValue x.data w) (8 * j) 8 &&& bits (recMask x.data w) (8 * j) 8 →
      bit (s.blockMap bank (s.rowBlock bank r.1) j) v = true) →
    s.bankHits profile bank w key ep = s.bankHits 0 bank w key ep)

/-- R296. The widths of an HBM channel's fields are the model's choice (log 118). -/
def Obligations.ChannelAddressesReachEveryRowOnce : Prop :=
  (∀ (dimms ranks addr : Nat) (dense : Bool), let rb := if dense = true then 17 else 16
    let kb := if ranks = 2 then 1 else 0
    let db := if dimms = 2 then 1 else 0
    let row := bits addr (19 + kb + db) rb
    dramOf 0 dimms ranks dense addr =
      { bank := bits addr 14 2, group := bits addr 16 3, rank := bits addr 19 kb, dimm := bits addr (19 + kb) db, row := row } ∧
    dramOf 1 dimms ranks dense addr =
      { bank := bits addr (14 + rb) 2, group := bits addr (16 + rb) 3, rank := bits addr (19 + rb) kb
        dimm := bits addr (19 + rb + kb) db, row := bits addr 14 rb } ∧
    ∀ map, 2 ≤ map → dramOf map dimms ranks dense addr =
      { bank := bits addr 14 2 ^^^ bits row 0 2, group := bits addr 16 3 ^^^ bits row 2 3, rank := bits addr 19 kb
        dimm := bits addr (19 + kb) db, row := row }) ∧
  (∀ (map dimms ranks a b : Nat) (dense : Bool),
    let n := 19 + (if ranks = 2 then 1 else 0) + (if dimms = 2 then 1 else 0) + (if dense = true then 17 else 16)
    a < 2 ^ n → b < 2 ^ n → dramOf map dimms ranks dense a = dramOf map dimms ranks dense b → a / 2 ^ 14 = b / 2 ^ 14) ∧
  (∀ a b : Nat, a < 2 ^ 31 → b < 2 ^ 31 → hbmOf a = hbmOf b → a / 2 ^ 10 = b / 2 ^ 10)

/-- R7, R379, R386: the device's entries in host memory. -/
def Obligations.RingEntriesHaveTheirBytesInHostMemory : Prop :=
  (∀ c : Comp, let x := leNat c.bytes
    c.bytes.length = 32 ∧ bits x 0 16 = c.seq % 2 ^ 16 ∧ bits x 16 8 = c.status % 2 ^ 8 ∧ bit x 24 = c.authed ∧ bits x 25 6 = 0 ∧
    bits x 31 1 = c.phase % 2 ∧ bits x 32 16 = c.opcode % 2 ^ 16 ∧ bits x 48 16 = 0 ∧ bits x 64 32 = c.cookie % 2 ^ 32 ∧
    bits x 96 32 = c.detail % 2 ^ 32 ∧ bits x 128 64 = c.result % 2 ^ 64 ∧ bits x 192 32 = c.timeNs % 2 ^ 32 ∧
    bits x 224 32 = c.timeS % 2 ^ 32) ∧
  (∀ e : Evt, let x := leNat e.bytes
    e.bytes.length = 64 ∧ bits x 0 8 = e.kind % 2 ^ 8 ∧ bits x 8 8 = e.source % 2 ^ 8 ∧ bits x 16 16 = e.event % 2 ^ 16 ∧
    bit x 32 = e.st ∧ bit x 33 = e.fatal ∧ bits x 34 29 = 0 ∧ bits x 63 1 = e.phase % 2 ∧ bits x 64 48 = e.timeS % 2 ^ 48 ∧
    bits x 112 32 = e.timeNs % 2 ^ 32 ∧ bits x 144 16 = e.timeFrac % 2 ^ 16 ∧ bits x 160 32 = e.inst % 2 ^ 32 ∧
    bits x 192 320 = e.payload % 2 ^ 320) ∧
  (∀ (g : Ring) (size i : Nat) (l : List (List Byte)) (b : List Byte), l[i]? = some b → l.length ≤ g.devIndex → g.log2 ≤ 16 →
    (g.base.toNat + size * ((g.devIndex - (l.length - i)) % 2 ^ g.log2), b) ∈ g.place size l)

end
end

