-- ==== Sys2Proof/Laws/Bytes.lean ====
section
/-! SUPPORT. Numbers as bytes and as fields: what is read back of what was written. -/

namespace Sys2Proof

theorem leBytes_length (n x : Nat) : (leBytes n x).length = n := by
  induction n generalizing x with
  | zero => rfl
  | succ n ih => simp [leBytes, ih]

/-- Bytes written lowest first read back as the number, as far as they reach. -/
theorem leNat_leBytes (n x : Nat) : leNat (leBytes n x) = x % 256 ^ n := by
  induction n generalizing x with
  | zero => simp [leBytes, leNat, Nat.mod_one]
  | succ n ih =>
    rw [leBytes, leNat, ih, Nat.pow_succ', Nat.mod_mul]
    simp [BitVec.toNat_ofNat]

theorem bits_eq (x lo w : Nat) : bits x lo w = x / 2 ^ lo % 2 ^ w := by
  unfold bits
  rw [Nat.shiftRight_eq_div_pow]

/-- A field of a sum whose lower part ends below it. -/
theorem bits_add_mul (a b lo w : Nat) (h : a < 2 ^ lo) : bits (a + b * 2 ^ lo) lo w = b % 2 ^ w := by
  rw [bits_eq, Nat.add_mul_div_right _ _ (by positivity), Nat.div_eq_of_lt h, Nat.zero_add]

/-- A field of a sum whose upper part begins above it. -/
theorem bits_add_mul_lt (a b hi lo w : Nat) (h : lo + w ≤ hi) : bits (a + b * 2 ^ hi) lo w = bits a lo w := by
  have e : b * 2 ^ hi = b * 2 ^ (hi - lo - w) * 2 ^ w * 2 ^ lo := by
    rw [mul_assoc, mul_assoc, ← pow_add, ← pow_add]
    congr 2
    omega
  rw [bits_eq, bits_eq, e, Nat.add_mul_div_right _ _ (by positivity), Nat.add_mul_mod_self_right]

/-- Two-bit codes written side by side. -/
theorem codes_fold (c : Nat → Nat) (hc : ∀ k, c k < 4) (n : Nat) :
    (List.range n).foldl (fun m k => m + c k * 2 ^ (2 * k)) 0 < 2 ^ (2 * n) ∧
      ∀ k < n, bits ((List.range n).foldl (fun m k => m + c k * 2 ^ (2 * k)) 0) (2 * k) 2 = c k := by
  induction n with
  | zero => simp
  | succ n ih =>
    rw [List.range_succ, List.foldl_append]
    simp only [List.foldl_cons, List.foldl_nil]
    refine ⟨?_, fun k hk => ?_⟩
    · have := hc n
      have e : 2 ^ (2 * (n + 1)) = 4 * 2 ^ (2 * n) := by rw [show 2 * (n + 1) = 2 + 2 * n by omega, pow_add]; norm_num
      rw [e]
      nlinarith [ih.1, Nat.mul_le_mul_right (2 ^ (2 * n)) (Nat.le_of_lt_succ this)]
    · rcases Nat.lt_succ_iff_lt_or_eq.1 hk with h | rfl
      · rw [bits_add_mul_lt _ _ _ _ _ (by omega)]
        exact ih.2 k h
      · rw [bits_add_mul _ _ _ _ ih.1]
        exact Nat.mod_eq_of_lt (hc k)

end Sys2Proof
end

