-- ==== Sys2Proof/Laws/Crypto.lean ====
section
/-! SUPPORT. A CMAC is at most sixteen bytes, whatever the key and the message: a tag of R373 can hold it. -/

namespace Sys2Proof.Machine

theorem chunks_length {α : Type} (k n : Nat) (l : List α) : ∀ c ∈ chunks k n l, c.length ≤ k := by
  induction n generalizing l with
  | zero => intro c h; cases h
  | succ n ih =>
    intro c h
    rcases List.mem_cons.mp h with rfl | h
    · exact List.length_take_le ..
    · exact ih _ _ h

theorem aesRounds_length (ks : List (List Nat)) (st : List Nat) (hk : ∀ k ∈ ks, k.length ≤ 16) (hn : ks ≠ []) :
    (aesRounds ks st).length ≤ 16 := by
  induction ks generalizing st with
  | nil => exact absurd rfl hn
  | cons k ks ih =>
    cases ks with
    | nil =>
      simp only [aesRounds, xorList, List.length_zipWith]
      exact (Nat.min_le_right _ _).trans (hk k (List.mem_singleton.mpr rfl))
    | cons k' ks =>
      simp only [aesRounds]
      exact ih _ (fun c h => hk c (List.mem_cons_of_mem _ h)) (List.cons_ne_nil _ _)

theorem aesEnc_length (key block : List Byte) : (aesEnc key block).length ≤ 16 := by
  unfold aesEnc byteList aesEncNat
  rw [List.length_map]
  have h := chunks_length 16 15 ((keySched 52 8 1 (chunks 4 8 (natBytes key)).reverse).reverse.flatten)
  have hr : roundKeys (natBytes key) = chunks 16 15 ((keySched 52 8 1 (chunks 4 8 (natBytes key)).reverse).reverse.flatten) := rfl
  rw [← hr] at h
  have hl : (roundKeys (natBytes key)).length = 15 := by
    rw [hr]
    generalize (keySched 52 8 1 (chunks 4 8 (natBytes key)).reverse).reverse.flatten = l
    simp [chunks]
  generalize roundKeys (natBytes key) = ks at h hl
  cases ks with
  | nil => cases hl
  | cons k ks =>
    refine aesRounds_length ks _ (fun c hc => h c (List.mem_cons_of_mem _ hc)) ?_
    rintro rfl
    cases hl

theorem cbcMac_length (key : List Byte) (bs : List (List Byte)) (c : List Byte) (h : c.length ≤ 16) :
    (cbcMac key bs c).length ≤ 16 := by
  induction bs generalizing c with
  | nil => exact h
  | cons b bs ih => exact ih _ (aesEnc_length ..)

theorem cmac_length (key msg : List Byte) : (cmac key msg).length ≤ 16 := cbcMac_length _ _ _ (by decide)

theorem leNat_lt (bs : List Byte) : leNat bs < 256 ^ bs.length := by
  induction bs with
  | nil => decide
  | cons b bs ih =>
    have hb := b.isLt
    simp only [leNat, List.length_cons, Nat.pow_succ]
    omega

theorem tagNat_cmac_lt (key msg : List Byte) : tagNat (cmac key msg) < 2 ^ 128 :=
  (leNat_lt _).trans_le ((Nat.pow_le_pow_right (by decide) (cmac_length key msg)).trans (by decide))

end Sys2Proof.Machine
end

