-- ==== Sys2Proof/Laws/Tables.lean ====
section
/-! SUPPORT. The sparse tables: what a read finds after a write, and that writes keep the canonical form. -/

namespace Sys2Proof.Machine.NMap

variable {α : Type}

@[simp] theorem find?_nil (k : Nat) : find? ([] : NMap α) k = none := rfl

theorem find?_cons (j : Nat) (v : α) (t : NMap α) (k : Nat) :
    find? ((j, v) :: t) k = if j = k then some v else find? t k := rfl

@[simp] theorem find?_del_self (m : NMap α) (k : Nat) : (m.del k).find? k = none := by
  induction m with
  | nil => rfl
  | cons e t ih =>
    obtain ⟨j, v⟩ := e
    by_cases h : j = k <;> simp [del, find?_cons, h, ih]

theorem find?_del_ne (m : NMap α) {k l : Nat} (h : l ≠ k) : (m.del k).find? l = m.find? l := by
  induction m with
  | nil => rfl
  | cons e t ih =>
    obtain ⟨j, v⟩ := e
    by_cases hj : j = k
    · subst hj; simp [del, find?_cons, ih, Ne.symm h]
    · simp [del, find?_cons, hj, ih]

@[simp] theorem find?_ins_self (m : NMap α) (k : Nat) (v : α) : (m.ins k v).find? k = some v := by
  induction m with
  | nil => simp [ins, find?_cons]
  | cons e t ih =>
    obtain ⟨j, w⟩ := e
    simp only [ins]
    split_ifs with h1 h2
    · simp [find?_cons]
    · simp [find?_cons]
    · simp [find?_cons, h2, ih]

theorem find?_ins_ne (m : NMap α) {k l : Nat} (v : α) (h : l ≠ k) : (m.ins k v).find? l = m.find? l := by
  induction m with
  | nil => simp [ins, find?_cons, Ne.symm h]
  | cons e t ih =>
    obtain ⟨j, w⟩ := e
    simp only [ins]
    split_ifs with h1 h2
    · simp [find?_cons, Ne.symm h]
    · subst h2; simp [find?_cons, Ne.symm h]
    · simp [find?_cons, ih]

variable [DecidableEq α]

@[simp] theorem get_put_self (m : NMap α) (d : α) (k : Nat) (v : α) : (m.put d k v).get d k = v := by
  unfold put get
  split_ifs with h <;> simp [h]

theorem get_put_ne (m : NMap α) (d : α) {k l : Nat} (v e : α) (h : l ≠ k) : (m.put d k v).get e l = m.get e l := by
  unfold put get
  split_ifs
  · rw [find?_del_ne m h]
  · rw [find?_ins_ne m v h]

@[simp] theorem get_upd_self (m : NMap α) (d : α) (k : Nat) (f : α → α) : (m.upd d k f).get d k = f (m.get d k) :=
  get_put_self ..

theorem get_upd_ne (m : NMap α) (d : α) {k l : Nat} (f : α → α) (e : α) (h : l ≠ k) :
    (m.upd d k f).get e l = m.get e l := get_put_ne _ _ _ _ h

theorem wfFrom_del (d : α) (m : NMap α) (k : Nat) (lo : Option Nat) (h : wfFrom d lo m) : wfFrom d lo (m.del k) := by
  induction m generalizing lo with
  | nil => rfl
  | cons e t ih =>
    obtain ⟨j, v⟩ := e
    simp only [wfFrom, Bool.and_eq_true] at h
    simp only [del]
    split_ifs with hk
    · refine ih lo ?_
      have h2 := h.2
      cases lo with
      | none => cases t with
        | nil => rfl
        | cons e t =>
          simp only [wfFrom, Bool.and_eq_true] at h2 ⊢
          exact ⟨⟨rfl, h2.1.2⟩, h2.2⟩
      | some l => cases t with
        | nil => rfl
        | cons e t =>
          simp only [wfFrom, Bool.and_eq_true, Option.all_some, decide_eq_true_eq] at h h2 ⊢
          exact ⟨⟨by omega, h2.1.2⟩, h2.2⟩
    · simp only [wfFrom, Bool.and_eq_true]
      exact ⟨h.1, ih _ h.2⟩

theorem wfFrom_ins (d : α) (m : NMap α) (k : Nat) (v : α) (hv : v ≠ d) (lo : Option Nat) (hlo : lo.all (· < k))
    (h : wfFrom d lo m) : wfFrom d lo (m.ins k v) := by
  induction m generalizing lo with
  | nil => simp [ins, wfFrom, hlo, hv]
  | cons e t ih =>
    obtain ⟨j, w⟩ := e
    simp only [wfFrom, Bool.and_eq_true] at h
    simp only [ins]
    split_ifs with h1 h2
    · simp only [wfFrom, Bool.and_eq_true]
      exact ⟨⟨hlo, by simpa using hv⟩, ⟨by simpa using h1, h.1.2⟩, h.2⟩
    · subst h2
      simp only [wfFrom, Bool.and_eq_true]
      exact ⟨⟨hlo, by simpa using hv⟩, h.2⟩
    · simp only [wfFrom, Bool.and_eq_true]
      exact ⟨h.1, ih _ (by simp; omega) h.2⟩

/-- Every write keeps the canonical form. -/
theorem wf_put (m : NMap α) (d : α) (k : Nat) (v : α) (h : m.wf d) : (m.put d k v).wf d := by
  unfold put
  split_ifs with hv
  · exact wfFrom_del d m k none h
  · exact wfFrom_ins d m k v hv none rfl h

theorem wf_upd (m : NMap α) (d : α) (k : Nat) (f : α → α) (h : m.wf d) : (m.upd d k f).wf d := wf_put _ _ _ _ h

end Sys2Proof.Machine.NMap
end

