-- ==== Sys2Proof/Laws/Rings.lean ====
section
/-! SUPPORT. What the running of a ring's head descriptor comes to: one lemma for the whole of R374. -/

namespace Sys2Proof.Machine

@[simp] theorem State.func_pass (s : State) (n fn : Nat) : (s.pass n).func fn = s.func fn := rfl
@[simp] theorem State.ring_pass (s : State) (n fn r : Nat) : (s.pass n).ring fn r = s.ring fn r := rfl
@[simp] theorem State.partOf_pass (s : State) (n fn : Nat) : (s.pass n).partOf fn = s.partOf fn := rfl
@[simp] theorem State.partOf_updRing (s : State) (fn r p : Nat) (f : Ring → Ring) : (s.updRing fn r f).partOf p = s.partOf p := rfl

@[simp] theorem State.func_updFunc (s : State) (fn : Nat) (f : Func → Func) : (s.updFunc fn f).func fn = f (s.func fn) :=
  NMap.get_upd_self ..

theorem State.func_updFunc_ne (s : State) {fn gn : Nat} (f : Func → Func) (h : gn ≠ fn) : (s.updFunc fn f).func gn = s.func gn :=
  NMap.get_upd_ne _ _ _ _ h

@[simp] theorem State.ring_updRing (s : State) (fn r : Nat) (f : Ring → Ring) :
    (s.updRing fn r f).ring fn r = f (s.ring fn r) := by
  simp [State.ring, State.updRing]

theorem State.ring_updRing_ne (s : State) {fn r gn q : Nat} (f : Ring → Ring) (h : gn ≠ fn ∨ q ≠ r) :
    (s.updRing fn r f).ring gn q = s.ring gn q := by
  unfold State.ring State.updRing
  by_cases hf : gn = fn
  · subst hf
    have hq : q ≠ r := by simpa using h
    simp [NMap.get_upd_ne _ _ _ _ hq]
  · rw [State.func_updFunc_ne _ _ hf]

@[simp] theorem State.chosen_updRing (s : State) (fn r gn : Nat) (f : Ring → Ring) :
    ((s.updRing fn r f).func gn).chosen = (s.func gn).chosen := by
  unfold State.updRing
  by_cases h : gn = fn
  · subst h; simp
  · rw [State.func_updFunc_ne _ _ h]

@[simp] theorem State.chosen_taken (s : State) (i : Issue) (d : Desc) (rest : List Desc) (gn : Nat) :
    ((s.taken i d rest).func gn).chosen = (s.func gn).chosen := by simp [State.taken]

@[simp] theorem State.partOf_taken (s : State) (i : Issue) (d : Desc) (rest : List Desc) (fn : Nat) :
    (s.taken i d rest).partOf fn = s.partOf fn := rfl

theorem entries_single {d : Desc} (h : d.count ≤ 1) : d.entries = 1 := by simp [Desc.entries, h]

/-- R374: an accepted single-entry command runs its own execution on the state that steps 1 to 6 leave. -/
theorem runCommand_accepts {sp : OpSpec} {i : Issue} {s : State} {d : Desc} {rest : List Desc} {x : Nat} {t : State} {au : Bool}
    {slot : Option (Nat × Nat × Nat)} (h : Accepts sp i s d rest x t au slot) :
    s.runCommand sp i = (t.runEntries sp (s.cmdOf i d) (runOf d x au slot) [x] 0 []).settle i.fn i.ring := by
  obtain ⟨head, code, ready, inOrder, unfenced, format, single, reply, payload, whole, version, auth, device, room⟩ := h
  have hroom : ¬ d.respLen < sp.totalResp t (s.cmdOf i d) [x] := by simpa [OpSpec.totalResp] using room
  unfold State.runCommand
  simp only [State.ring_pass, head, code, ready, and_self, if_true]
  congr 1
  unfold State.runHead
  simp only [State.ring_pass, head, inOrder, unfenced, Bool.false_eq_true, if_false]
  change State.runAccepted (s.taken i d rest) sp i.fn i.ring d i.payload = _
  unfold State.runAccepted
  simp only [State.chosen_taken, State.partOf_taken, format, single, decide_true, Bool.true_or, reply, Bool.and_self,
    Bool.not_true, Bool.false_eq_true, if_false, payload, entries_single single, whole, version, auth, device]
  exact if_neg hroom

/-- The execution ends at once. -/
theorem runCommand_done {sp : OpSpec} {i : Issue} {s : State} {d : Desc} {rest : List Desc} {x : Nat} {t : State} {au : Bool}
    {slot : Option (Nat × Nat × Nat)} (h : Accepts sp i s d rest x t au slot) {u : State} {st de r : Nat} {resp : List Byte}
    (hb : sp.body t (s.cmdOf i d) x = .done u st de r resp) :
    s.runCommand sp i = u.completes i d x au slot st de r resp := by
  rw [runCommand_accepts h]
  simp only [State.runEntries, hb]
  have : (runOf d x au slot).desc.entries = 1 := entries_single h.single
  simp only [this, if_true]
  rfl

/-- The command comes to wait. -/
theorem runCommand_wait {sp : OpSpec} {i : Issue} {s : State} {d : Desc} {rest : List Desc} {x : Nat} {t : State} {au : Bool}
    {slot : Option (Nat × Nat × Nat)} (h : Accepts sp i s d rest x t au slot) {u : State} {w : Wait}
    (hb : sp.body t (s.cmdOf i d) x = .wait u w) :
    s.runCommand sp i = u.waits i d x au slot w := by
  rw [runCommand_accepts h]
  simp only [State.runEntries, hb]
  rfl

/-- An accepted command whose own execution ends completes with what it answers. -/
theorem Accepted.run_ends {sp : OpSpec} (a : Accepted sp) {u : State} {st r : Nat} {resp : List Byte}
    (hb : sp.body a.t (a.s.cmdOf a.i a.d) a.x = .done u st 0 r resp) : a.s.runCommand sp a.i = a.ends u st r resp :=
  runCommand_done a.ok hb

/-- An accepted command whose own execution waits comes to wait. -/
theorem Accepted.run_waits {sp : OpSpec} (a : Accepted sp) {u : State} {w : Wait}
    (hb : sp.body a.t (a.s.cmdOf a.i a.d) a.x = .wait u w) : a.s.runCommand sp a.i = a.waits u w :=
  runCommand_wait a.ok hb

/-- R374: what an accepted command does is what its own execution answers, from the state that steps 1 to 6 leave. -/
theorem Accepted.run_does {sp : OpSpec} (a : Accepted sp) :
    a.s.runCommand sp a.i = a.does (sp.body a.t (a.s.cmdOf a.i a.d) a.x) := by
  cases h : sp.body a.t (a.s.cmdOf a.i a.d) a.x with
  | done u st de r resp => exact runCommand_done a.ok h
  | wait u w => exact runCommand_wait a.ok h

theorem Accepted.run_of {sp : OpSpec} (a : Accepted sp) {o : Out} (hb : sp.body a.t (a.s.cmdOf a.i a.d) a.x = o) :
    a.s.runCommand sp a.i = a.does o := hb ▸ a.run_does

/-- Every ring row runs its opcode's command. -/
theorem ringRows_run (r : (Issue → Instr) × OpSpec) (hr : r ∈ ringRows) (i : Issue) (s : State) :
    exec (r.1 i) s = .next (s.runCommand r.2 i) := by
  unfold ringRows at hr
  have h : ∀ l : List ((Issue → Instr) × OpSpec), (∀ r ∈ l, exec (r.1 i) s = .next (s.runCommand r.2 i)) ↔
      l.Forall fun r => exec (r.1 i) s = .next (s.runCommand r.2 i) := fun l => List.forall_iff_forall_mem.symm
  rcases List.mem_append.1 hr with hr | hr
  · rcases List.mem_append.1 hr with hr | hr
    · exact (h _).2 (by simp only [List.Forall]; (repeat' constructor)) _ hr
    · exact (h _).2 (by simp only [List.Forall]; (repeat' constructor)) _ hr
  · exact (h _).2 (by simp only [List.Forall]; (repeat' constructor)) _ hr

/-- Steps 1 and 2 of R374 behind it, a command goes on with step 3. -/
theorem Begins.run {sp : OpSpec} {i : Issue} {s : State} {d : Desc} {rest : List Desc} (h : Begins sp i s d rest) :
    s.runCommand sp i = ((s.taken i d rest).runAccepted sp i.fn i.ring d i.payload).settle i.fn i.ring := by
  obtain ⟨⟨head, code, ready⟩, inOrder, unfenced⟩ := h
  unfold State.runCommand
  simp only [State.ring_pass, head, code, ready, and_self, if_true]
  congr 1
  unfold State.runHead
  simp only [State.ring_pass, head, inOrder, unfenced, Bool.false_eq_true, if_false]
  rfl

/-- Steps 1 and 2 of R374. -/
theorem Draws.run {sp : OpSpec} {i : Issue} {s : State} {d : Desc} {rest : List Desc} (h : Draws sp i s d rest) :
    s.runCommand sp i = ((s.pass i.dt).runHead i.fn i.ring fun t d => t.runAccepted sp i.fn i.ring d i.payload).settle i.fn i.ring := by
  obtain ⟨head, code, ready⟩ := h
  unfold State.runCommand
  simp only [State.ring_pass, head, code, ready, and_self, if_true]

/-- R377: the entries before the last of `xs ++ ys` succeed. -/
theorem State.runEntries_allDone (sp : OpSpec) (c : Cmd) (run : Running) (hn : run.desc.entries ≠ 1) (xs ys : List Nat) (s t : State)
    (out resp : List Byte) (ix : Nat) (h : sp.allDone c s xs = some (t, out)) :
    s.runEntries sp c run (xs ++ ys) ix resp = t.runEntries sp c run ys (ix + xs.length) (resp ++ out) := by
  induction xs generalizing s ix resp out with
  | nil =>
    simp only [OpSpec.allDone, Option.some.injEq, Prod.mk.injEq] at h
    obtain ⟨rfl, rfl⟩ := h
    simp
  | cons x xs ih =>
    unfold OpSpec.allDone at h
    split at h
    · rename_i u st de r b hb
      split at h
      · rename_i hs
        obtain ⟨⟨v, o⟩, hv, e⟩ := Option.map_eq_some_iff.1 h
        simp only [Prod.mk.injEq] at e
        obtain ⟨rfl, rfl⟩ := e
        rw [List.cons_append, State.runEntries, hb]
        simp only [hn, if_false, hs, if_true]
        rw [ih u _ _ _ hv, List.length_cons, List.append_assoc]
        congr 1
        omega
      · cases h
    · cases h

end Sys2Proof.Machine
end

