-- ==== Sys2Proof/Laws/State.lean ====
section
/-! SUPPORT. What an update of one table of the state leaves as it was, field by field, and what it puts into its own entry. -/

namespace Sys2Proof.Machine


@[simp] theorem State.pass_pending (s : State) (n : Nat) : (s.pass n).pending = s.pending := rfl
@[simp] theorem State.pass_freeCtr (s : State) (n : Nat) : (s.pass n).freeCtr = s.freeCtr := rfl
@[simp] theorem State.pass_latch (s : State) (n : Nat) : (s.pass n).latch = s.latch := rfl
@[simp] theorem State.pass_regs (s : State) (n : Nat) : (s.pass n).regs = s.regs := rfl
@[simp] theorem State.pass_host (s : State) (n : Nat) : (s.pass n).host = s.host := rfl
@[simp] theorem State.pass_sec (s : State) (n : Nat) : (s.pass n).sec = s.sec := rfl
@[simp] theorem State.pass_modes (s : State) (n : Nat) : (s.pass n).modes = s.modes := rfl
@[simp] theorem State.pass_chip (s : State) (n : Nat) : (s.pass n).chip = s.chip := rfl
@[simp] theorem State.pass_lanes (s : State) (n : Nat) : (s.pass n).lanes = s.lanes := rfl
@[simp] theorem State.pass_ports (s : State) (n : Nat) : (s.pass n).ports = s.ports := rfl
@[simp] theorem State.pass_macs (s : State) (n : Nat) : (s.pass n).macs = s.macs := rfl
@[simp] theorem State.pass_xpt (s : State) (n : Nat) : (s.pass n).xpt = s.xpt := rfl
@[simp] theorem State.pass_lookup (s : State) (n : Nat) : (s.pass n).lookup = s.lookup := rfl
@[simp] theorem State.pass_parse (s : State) (n : Nat) : (s.pass n).parse = s.parse := rfl
@[simp] theorem State.pass_byway (s : State) (n : Nat) : (s.pass n).byway = s.byway := rfl
@[simp] theorem State.pass_caravan (s : State) (n : Nat) : (s.pass n).caravan = s.caravan := rfl
@[simp] theorem State.pass_switch (s : State) (n : Nat) : (s.pass n).switch = s.switch := rfl
@[simp] theorem State.pass_fabric (s : State) (n : Nat) : (s.pass n).fabric = s.fabric := rfl
@[simp] theorem State.pass_inn (s : State) (n : Nat) : (s.pass n).inn = s.inn := rfl
@[simp] theorem State.pass_tm (s : State) (n : Nat) : (s.pass n).tm = s.tm := rfl
@[simp] theorem State.pass_mem (s : State) (n : Nat) : (s.pass n).mem = s.mem := rfl
@[simp] theorem State.pass_twin (s : State) (n : Nat) : (s.pass n).twin = s.twin := rfl
@[simp] theorem State.pass_tele (s : State) (n : Nat) : (s.pass n).tele = s.tele := rfl

@[simp] theorem State.setReg_pending (s : State) (a v : Nat) : (s.setReg a v).pending = s.pending := rfl
@[simp] theorem State.setReg_freeCtr (s : State) (a v : Nat) : (s.setReg a v).freeCtr = s.freeCtr := rfl
@[simp] theorem State.setReg_latch (s : State) (a v : Nat) : (s.setReg a v).latch = s.latch := rfl
@[simp] theorem State.setReg_time (s : State) (a v : Nat) : (s.setReg a v).time = s.time := rfl
@[simp] theorem State.setReg_host (s : State) (a v : Nat) : (s.setReg a v).host = s.host := rfl
@[simp] theorem State.setReg_sec (s : State) (a v : Nat) : (s.setReg a v).sec = s.sec := rfl
@[simp] theorem State.setReg_modes (s : State) (a v : Nat) : (s.setReg a v).modes = s.modes := rfl
@[simp] theorem State.setReg_chip (s : State) (a v : Nat) : (s.setReg a v).chip = s.chip := rfl
@[simp] theorem State.setReg_lanes (s : State) (a v : Nat) : (s.setReg a v).lanes = s.lanes := rfl
@[simp] theorem State.setReg_ports (s : State) (a v : Nat) : (s.setReg a v).ports = s.ports := rfl
@[simp] theorem State.setReg_macs (s : State) (a v : Nat) : (s.setReg a v).macs = s.macs := rfl
@[simp] theorem State.setReg_xpt (s : State) (a v : Nat) : (s.setReg a v).xpt = s.xpt := rfl
@[simp] theorem State.setReg_lookup (s : State) (a v : Nat) : (s.setReg a v).lookup = s.lookup := rfl
@[simp] theorem State.setReg_parse (s : State) (a v : Nat) : (s.setReg a v).parse = s.parse := rfl
@[simp] theorem State.setReg_byway (s : State) (a v : Nat) : (s.setReg a v).byway = s.byway := rfl
@[simp] theorem State.setReg_caravan (s : State) (a v : Nat) : (s.setReg a v).caravan = s.caravan := rfl
@[simp] theorem State.setReg_switch (s : State) (a v : Nat) : (s.setReg a v).switch = s.switch := rfl
@[simp] theorem State.setReg_fabric (s : State) (a v : Nat) : (s.setReg a v).fabric = s.fabric := rfl
@[simp] theorem State.setReg_inn (s : State) (a v : Nat) : (s.setReg a v).inn = s.inn := rfl
@[simp] theorem State.setReg_tm (s : State) (a v : Nat) : (s.setReg a v).tm = s.tm := rfl
@[simp] theorem State.setReg_mem (s : State) (a v : Nat) : (s.setReg a v).mem = s.mem := rfl
@[simp] theorem State.setReg_twin (s : State) (a v : Nat) : (s.setReg a v).twin = s.twin := rfl
@[simp] theorem State.setReg_tele (s : State) (a v : Nat) : (s.setReg a v).tele = s.tele := rfl

@[simp] theorem State.updMode_pending (s : State) (m : Mode) (f : ModeSt → ModeSt) : (s.updMode m f).pending = s.pending := rfl
@[simp] theorem State.updMode_freeCtr (s : State) (m : Mode) (f : ModeSt → ModeSt) : (s.updMode m f).freeCtr = s.freeCtr := rfl
@[simp] theorem State.updMode_latch (s : State) (m : Mode) (f : ModeSt → ModeSt) : (s.updMode m f).latch = s.latch := rfl
@[simp] theorem State.updMode_regs (s : State) (m : Mode) (f : ModeSt → ModeSt) : (s.updMode m f).regs = s.regs := rfl
@[simp] theorem State.updMode_time (s : State) (m : Mode) (f : ModeSt → ModeSt) : (s.updMode m f).time = s.time := rfl
@[simp] theorem State.updMode_host (s : State) (m : Mode) (f : ModeSt → ModeSt) : (s.updMode m f).host = s.host := rfl
@[simp] theorem State.updMode_sec (s : State) (m : Mode) (f : ModeSt → ModeSt) : (s.updMode m f).sec = s.sec := rfl
@[simp] theorem State.updMode_chip (s : State) (m : Mode) (f : ModeSt → ModeSt) : (s.updMode m f).chip = s.chip := rfl
@[simp] theorem State.updMode_lanes (s : State) (m : Mode) (f : ModeSt → ModeSt) : (s.updMode m f).lanes = s.lanes := rfl
@[simp] theorem State.updMode_ports (s : State) (m : Mode) (f : ModeSt → ModeSt) : (s.updMode m f).ports = s.ports := rfl
@[simp] theorem State.updMode_macs (s : State) (m : Mode) (f : ModeSt → ModeSt) : (s.updMode m f).macs = s.macs := rfl
@[simp] theorem State.updMode_xpt (s : State) (m : Mode) (f : ModeSt → ModeSt) : (s.updMode m f).xpt = s.xpt := rfl
@[simp] theorem State.updMode_lookup (s : State) (m : Mode) (f : ModeSt → ModeSt) : (s.updMode m f).lookup = s.lookup := rfl
@[simp] theorem State.updMode_parse (s : State) (m : Mode) (f : ModeSt → ModeSt) : (s.updMode m f).parse = s.parse := rfl
@[simp] theorem State.updMode_byway (s : State) (m : Mode) (f : ModeSt → ModeSt) : (s.updMode m f).byway = s.byway := rfl
@[simp] theorem State.updMode_caravan (s : State) (m : Mode) (f : ModeSt → ModeSt) : (s.updMode m f).caravan = s.caravan := rfl
@[simp] theorem State.updMode_switch (s : State) (m : Mode) (f : ModeSt → ModeSt) : (s.updMode m f).switch = s.switch := rfl
@[simp] theorem State.updMode_fabric (s : State) (m : Mode) (f : ModeSt → ModeSt) : (s.updMode m f).fabric = s.fabric := rfl
@[simp] theorem State.updMode_inn (s : State) (m : Mode) (f : ModeSt → ModeSt) : (s.updMode m f).inn = s.inn := rfl
@[simp] theorem State.updMode_tm (s : State) (m : Mode) (f : ModeSt → ModeSt) : (s.updMode m f).tm = s.tm := rfl
@[simp] theorem State.updMode_mem (s : State) (m : Mode) (f : ModeSt → ModeSt) : (s.updMode m f).mem = s.mem := rfl
@[simp] theorem State.updMode_twin (s : State) (m : Mode) (f : ModeSt → ModeSt) : (s.updMode m f).twin = s.twin := rfl
@[simp] theorem State.updMode_tele (s : State) (m : Mode) (f : ModeSt → ModeSt) : (s.updMode m f).tele = s.tele := rfl

@[simp] theorem State.updFunc_pending (s : State) (fn : Nat) (f : Func → Func) : (s.updFunc fn f).pending = s.pending := rfl
@[simp] theorem State.updFunc_freeCtr (s : State) (fn : Nat) (f : Func → Func) : (s.updFunc fn f).freeCtr = s.freeCtr := rfl
@[simp] theorem State.updFunc_latch (s : State) (fn : Nat) (f : Func → Func) : (s.updFunc fn f).latch = s.latch := rfl
@[simp] theorem State.updFunc_regs (s : State) (fn : Nat) (f : Func → Func) : (s.updFunc fn f).regs = s.regs := rfl
@[simp] theorem State.updFunc_time (s : State) (fn : Nat) (f : Func → Func) : (s.updFunc fn f).time = s.time := rfl
@[simp] theorem State.updFunc_sec (s : State) (fn : Nat) (f : Func → Func) : (s.updFunc fn f).sec = s.sec := rfl
@[simp] theorem State.updFunc_modes (s : State) (fn : Nat) (f : Func → Func) : (s.updFunc fn f).modes = s.modes := rfl
@[simp] theorem State.updFunc_chip (s : State) (fn : Nat) (f : Func → Func) : (s.updFunc fn f).chip = s.chip := rfl
@[simp] theorem State.updFunc_lanes (s : State) (fn : Nat) (f : Func → Func) : (s.updFunc fn f).lanes = s.lanes := rfl
@[simp] theorem State.updFunc_ports (s : State) (fn : Nat) (f : Func → Func) : (s.updFunc fn f).ports = s.ports := rfl
@[simp] theorem State.updFunc_macs (s : State) (fn : Nat) (f : Func → Func) : (s.updFunc fn f).macs = s.macs := rfl
@[simp] theorem State.updFunc_xpt (s : State) (fn : Nat) (f : Func → Func) : (s.updFunc fn f).xpt = s.xpt := rfl
@[simp] theorem State.updFunc_lookup (s : State) (fn : Nat) (f : Func → Func) : (s.updFunc fn f).lookup = s.lookup := rfl
@[simp] theorem State.updFunc_parse (s : State) (fn : Nat) (f : Func → Func) : (s.updFunc fn f).parse = s.parse := rfl
@[simp] theorem State.updFunc_byway (s : State) (fn : Nat) (f : Func → Func) : (s.updFunc fn f).byway = s.byway := rfl
@[simp] theorem State.updFunc_caravan (s : State) (fn : Nat) (f : Func → Func) : (s.updFunc fn f).caravan = s.caravan := rfl
@[simp] theorem State.updFunc_switch (s : State) (fn : Nat) (f : Func → Func) : (s.updFunc fn f).switch = s.switch := rfl
@[simp] theorem State.updFunc_fabric (s : State) (fn : Nat) (f : Func → Func) : (s.updFunc fn f).fabric = s.fabric := rfl
@[simp] theorem State.updFunc_inn (s : State) (fn : Nat) (f : Func → Func) : (s.updFunc fn f).inn = s.inn := rfl
@[simp] theorem State.updFunc_tm (s : State) (fn : Nat) (f : Func → Func) : (s.updFunc fn f).tm = s.tm := rfl
@[simp] theorem State.updFunc_mem (s : State) (fn : Nat) (f : Func → Func) : (s.updFunc fn f).mem = s.mem := rfl
@[simp] theorem State.updFunc_twin (s : State) (fn : Nat) (f : Func → Func) : (s.updFunc fn f).twin = s.twin := rfl
@[simp] theorem State.updFunc_tele (s : State) (fn : Nat) (f : Func → Func) : (s.updFunc fn f).tele = s.tele := rfl

@[simp] theorem State.updRing_pending (s : State) (fn r : Nat) (f : Ring → Ring) : (s.updRing fn r f).pending = s.pending := rfl
@[simp] theorem State.updRing_freeCtr (s : State) (fn r : Nat) (f : Ring → Ring) : (s.updRing fn r f).freeCtr = s.freeCtr := rfl
@[simp] theorem State.updRing_latch (s : State) (fn r : Nat) (f : Ring → Ring) : (s.updRing fn r f).latch = s.latch := rfl
@[simp] theorem State.updRing_regs (s : State) (fn r : Nat) (f : Ring → Ring) : (s.updRing fn r f).regs = s.regs := rfl
@[simp] theorem State.updRing_time (s : State) (fn r : Nat) (f : Ring → Ring) : (s.updRing fn r f).time = s.time := rfl
@[simp] theorem State.updRing_sec (s : State) (fn r : Nat) (f : Ring → Ring) : (s.updRing fn r f).sec = s.sec := rfl
@[simp] theorem State.updRing_modes (s : State) (fn r : Nat) (f : Ring → Ring) : (s.updRing fn r f).modes = s.modes := rfl
@[simp] theorem State.updRing_chip (s : State) (fn r : Nat) (f : Ring → Ring) : (s.updRing fn r f).chip = s.chip := rfl
@[simp] theorem State.updRing_lanes (s : State) (fn r : Nat) (f : Ring → Ring) : (s.updRing fn r f).lanes = s.lanes := rfl
@[simp] theorem State.updRing_ports (s : State) (fn r : Nat) (f : Ring → Ring) : (s.updRing fn r f).ports = s.ports := rfl
@[simp] theorem State.updRing_macs (s : State) (fn r : Nat) (f : Ring → Ring) : (s.updRing fn r f).macs = s.macs := rfl
@[simp] theorem State.updRing_xpt (s : State) (fn r : Nat) (f : Ring → Ring) : (s.updRing fn r f).xpt = s.xpt := rfl
@[simp] theorem State.updRing_lookup (s : State) (fn r : Nat) (f : Ring → Ring) : (s.updRing fn r f).lookup = s.lookup := rfl
@[simp] theorem State.updRing_parse (s : State) (fn r : Nat) (f : Ring → Ring) : (s.updRing fn r f).parse = s.parse := rfl
@[simp] theorem State.updRing_byway (s : State) (fn r : Nat) (f : Ring → Ring) : (s.updRing fn r f).byway = s.byway := rfl
@[simp] theorem State.updRing_caravan (s : State) (fn r : Nat) (f : Ring → Ring) : (s.updRing fn r f).caravan = s.caravan := rfl
@[simp] theorem State.updRing_switch (s : State) (fn r : Nat) (f : Ring → Ring) : (s.updRing fn r f).switch = s.switch := rfl
@[simp] theorem State.updRing_fabric (s : State) (fn r : Nat) (f : Ring → Ring) : (s.updRing fn r f).fabric = s.fabric := rfl
@[simp] theorem State.updRing_inn (s : State) (fn r : Nat) (f : Ring → Ring) : (s.updRing fn r f).inn = s.inn := rfl
@[simp] theorem State.updRing_tm (s : State) (fn r : Nat) (f : Ring → Ring) : (s.updRing fn r f).tm = s.tm := rfl
@[simp] theorem State.updRing_mem (s : State) (fn r : Nat) (f : Ring → Ring) : (s.updRing fn r f).mem = s.mem := rfl
@[simp] theorem State.updRing_twin (s : State) (fn r : Nat) (f : Ring → Ring) : (s.updRing fn r f).twin = s.twin := rfl
@[simp] theorem State.updRing_tele (s : State) (fn r : Nat) (f : Ring → Ring) : (s.updRing fn r f).tele = s.tele := rfl

@[simp] theorem State.updDomain_pending (s : State) (d : Nat) (f : Domain → Domain) : (s.updDomain d f).pending = s.pending := rfl
@[simp] theorem State.updDomain_freeCtr (s : State) (d : Nat) (f : Domain → Domain) : (s.updDomain d f).freeCtr = s.freeCtr := rfl
@[simp] theorem State.updDomain_latch (s : State) (d : Nat) (f : Domain → Domain) : (s.updDomain d f).latch = s.latch := rfl
@[simp] theorem State.updDomain_regs (s : State) (d : Nat) (f : Domain → Domain) : (s.updDomain d f).regs = s.regs := rfl
@[simp] theorem State.updDomain_time (s : State) (d : Nat) (f : Domain → Domain) : (s.updDomain d f).time = s.time := rfl
@[simp] theorem State.updDomain_host (s : State) (d : Nat) (f : Domain → Domain) : (s.updDomain d f).host = s.host := rfl
@[simp] theorem State.updDomain_sec (s : State) (d : Nat) (f : Domain → Domain) : (s.updDomain d f).sec = s.sec := rfl
@[simp] theorem State.updDomain_modes (s : State) (d : Nat) (f : Domain → Domain) : (s.updDomain d f).modes = s.modes := rfl
@[simp] theorem State.updDomain_lanes (s : State) (d : Nat) (f : Domain → Domain) : (s.updDomain d f).lanes = s.lanes := rfl
@[simp] theorem State.updDomain_ports (s : State) (d : Nat) (f : Domain → Domain) : (s.updDomain d f).ports = s.ports := rfl
@[simp] theorem State.updDomain_macs (s : State) (d : Nat) (f : Domain → Domain) : (s.updDomain d f).macs = s.macs := rfl
@[simp] theorem State.updDomain_xpt (s : State) (d : Nat) (f : Domain → Domain) : (s.updDomain d f).xpt = s.xpt := rfl
@[simp] theorem State.updDomain_lookup (s : State) (d : Nat) (f : Domain → Domain) : (s.updDomain d f).lookup = s.lookup := rfl
@[simp] theorem State.updDomain_parse (s : State) (d : Nat) (f : Domain → Domain) : (s.updDomain d f).parse = s.parse := rfl
@[simp] theorem State.updDomain_byway (s : State) (d : Nat) (f : Domain → Domain) : (s.updDomain d f).byway = s.byway := rfl
@[simp] theorem State.updDomain_caravan (s : State) (d : Nat) (f : Domain → Domain) : (s.updDomain d f).caravan = s.caravan := rfl
@[simp] theorem State.updDomain_switch (s : State) (d : Nat) (f : Domain → Domain) : (s.updDomain d f).switch = s.switch := rfl
@[simp] theorem State.updDomain_fabric (s : State) (d : Nat) (f : Domain → Domain) : (s.updDomain d f).fabric = s.fabric := rfl
@[simp] theorem State.updDomain_inn (s : State) (d : Nat) (f : Domain → Domain) : (s.updDomain d f).inn = s.inn := rfl
@[simp] theorem State.updDomain_tm (s : State) (d : Nat) (f : Domain → Domain) : (s.updDomain d f).tm = s.tm := rfl
@[simp] theorem State.updDomain_mem (s : State) (d : Nat) (f : Domain → Domain) : (s.updDomain d f).mem = s.mem := rfl
@[simp] theorem State.updDomain_twin (s : State) (d : Nat) (f : Domain → Domain) : (s.updDomain d f).twin = s.twin := rfl
@[simp] theorem State.updDomain_tele (s : State) (d : Nat) (f : Domain → Domain) : (s.updDomain d f).tele = s.tele := rfl
@[simp] theorem State.domain_updDomain (s : State) (d : Nat) (f : Domain → Domain) : (s.updDomain d f).domain d = f (s.domain d) := NMap.get_upd_self ..
theorem State.domain_updDomain_ne (s : State) {d z : Nat} (f : Domain → Domain) (h : z ≠ d) : (s.updDomain d f).domain z = s.domain z :=
  NMap.get_upd_ne _ _ _ _ h

@[simp] theorem State.updGroup_pending (s : State) (g : Nat) (f : Domain → Domain) : (s.updGroup g f).pending = s.pending := rfl
@[simp] theorem State.updGroup_freeCtr (s : State) (g : Nat) (f : Domain → Domain) : (s.updGroup g f).freeCtr = s.freeCtr := rfl
@[simp] theorem State.updGroup_latch (s : State) (g : Nat) (f : Domain → Domain) : (s.updGroup g f).latch = s.latch := rfl
@[simp] theorem State.updGroup_regs (s : State) (g : Nat) (f : Domain → Domain) : (s.updGroup g f).regs = s.regs := rfl
@[simp] theorem State.updGroup_time (s : State) (g : Nat) (f : Domain → Domain) : (s.updGroup g f).time = s.time := rfl
@[simp] theorem State.updGroup_host (s : State) (g : Nat) (f : Domain → Domain) : (s.updGroup g f).host = s.host := rfl
@[simp] theorem State.updGroup_sec (s : State) (g : Nat) (f : Domain → Domain) : (s.updGroup g f).sec = s.sec := rfl
@[simp] theorem State.updGroup_modes (s : State) (g : Nat) (f : Domain → Domain) : (s.updGroup g f).modes = s.modes := rfl
@[simp] theorem State.updGroup_lanes (s : State) (g : Nat) (f : Domain → Domain) : (s.updGroup g f).lanes = s.lanes := rfl
@[simp] theorem State.updGroup_ports (s : State) (g : Nat) (f : Domain → Domain) : (s.updGroup g f).ports = s.ports := rfl
@[simp] theorem State.updGroup_macs (s : State) (g : Nat) (f : Domain → Domain) : (s.updGroup g f).macs = s.macs := rfl
@[simp] theorem State.updGroup_xpt (s : State) (g : Nat) (f : Domain → Domain) : (s.updGroup g f).xpt = s.xpt := rfl
@[simp] theorem State.updGroup_lookup (s : State) (g : Nat) (f : Domain → Domain) : (s.updGroup g f).lookup = s.lookup := rfl
@[simp] theorem State.updGroup_parse (s : State) (g : Nat) (f : Domain → Domain) : (s.updGroup g f).parse = s.parse := rfl
@[simp] theorem State.updGroup_byway (s : State) (g : Nat) (f : Domain → Domain) : (s.updGroup g f).byway = s.byway := rfl
@[simp] theorem State.updGroup_caravan (s : State) (g : Nat) (f : Domain → Domain) : (s.updGroup g f).caravan = s.caravan := rfl
@[simp] theorem State.updGroup_switch (s : State) (g : Nat) (f : Domain → Domain) : (s.updGroup g f).switch = s.switch := rfl
@[simp] theorem State.updGroup_fabric (s : State) (g : Nat) (f : Domain → Domain) : (s.updGroup g f).fabric = s.fabric := rfl
@[simp] theorem State.updGroup_inn (s : State) (g : Nat) (f : Domain → Domain) : (s.updGroup g f).inn = s.inn := rfl
@[simp] theorem State.updGroup_tm (s : State) (g : Nat) (f : Domain → Domain) : (s.updGroup g f).tm = s.tm := rfl
@[simp] theorem State.updGroup_mem (s : State) (g : Nat) (f : Domain → Domain) : (s.updGroup g f).mem = s.mem := rfl
@[simp] theorem State.updGroup_twin (s : State) (g : Nat) (f : Domain → Domain) : (s.updGroup g f).twin = s.twin := rfl
@[simp] theorem State.updGroup_tele (s : State) (g : Nat) (f : Domain → Domain) : (s.updGroup g f).tele = s.tele := rfl
@[simp] theorem State.group_updGroup (s : State) (g : Nat) (f : Domain → Domain) : (s.updGroup g f).group g = f (s.group g) := NMap.get_upd_self ..
theorem State.group_updGroup_ne (s : State) {g z : Nat} (f : Domain → Domain) (h : z ≠ g) : (s.updGroup g f).group z = s.group z :=
  NMap.get_upd_ne _ _ _ _ h

@[simp] theorem State.updLane_pending (s : State) (n : Nat) (f : Lane → Lane) : (s.updLane n f).pending = s.pending := rfl
@[simp] theorem State.updLane_freeCtr (s : State) (n : Nat) (f : Lane → Lane) : (s.updLane n f).freeCtr = s.freeCtr := rfl
@[simp] theorem State.updLane_latch (s : State) (n : Nat) (f : Lane → Lane) : (s.updLane n f).latch = s.latch := rfl
@[simp] theorem State.updLane_regs (s : State) (n : Nat) (f : Lane → Lane) : (s.updLane n f).regs = s.regs := rfl
@[simp] theorem State.updLane_time (s : State) (n : Nat) (f : Lane → Lane) : (s.updLane n f).time = s.time := rfl
@[simp] theorem State.updLane_host (s : State) (n : Nat) (f : Lane → Lane) : (s.updLane n f).host = s.host := rfl
@[simp] theorem State.updLane_sec (s : State) (n : Nat) (f : Lane → Lane) : (s.updLane n f).sec = s.sec := rfl
@[simp] theorem State.updLane_modes (s : State) (n : Nat) (f : Lane → Lane) : (s.updLane n f).modes = s.modes := rfl
@[simp] theorem State.updLane_chip (s : State) (n : Nat) (f : Lane → Lane) : (s.updLane n f).chip = s.chip := rfl
@[simp] theorem State.updLane_ports (s : State) (n : Nat) (f : Lane → Lane) : (s.updLane n f).ports = s.ports := rfl
@[simp] theorem State.updLane_macs (s : State) (n : Nat) (f : Lane → Lane) : (s.updLane n f).macs = s.macs := rfl
@[simp] theorem State.updLane_xpt (s : State) (n : Nat) (f : Lane → Lane) : (s.updLane n f).xpt = s.xpt := rfl
@[simp] theorem State.updLane_lookup (s : State) (n : Nat) (f : Lane → Lane) : (s.updLane n f).lookup = s.lookup := rfl
@[simp] theorem State.updLane_parse (s : State) (n : Nat) (f : Lane → Lane) : (s.updLane n f).parse = s.parse := rfl
@[simp] theorem State.updLane_byway (s : State) (n : Nat) (f : Lane → Lane) : (s.updLane n f).byway = s.byway := rfl
@[simp] theorem State.updLane_caravan (s : State) (n : Nat) (f : Lane → Lane) : (s.updLane n f).caravan = s.caravan := rfl
@[simp] theorem State.updLane_switch (s : State) (n : Nat) (f : Lane → Lane) : (s.updLane n f).switch = s.switch := rfl
@[simp] theorem State.updLane_fabric (s : State) (n : Nat) (f : Lane → Lane) : (s.updLane n f).fabric = s.fabric := rfl
@[simp] theorem State.updLane_inn (s : State) (n : Nat) (f : Lane → Lane) : (s.updLane n f).inn = s.inn := rfl
@[simp] theorem State.updLane_tm (s : State) (n : Nat) (f : Lane → Lane) : (s.updLane n f).tm = s.tm := rfl
@[simp] theorem State.updLane_mem (s : State) (n : Nat) (f : Lane → Lane) : (s.updLane n f).mem = s.mem := rfl
@[simp] theorem State.updLane_twin (s : State) (n : Nat) (f : Lane → Lane) : (s.updLane n f).twin = s.twin := rfl
@[simp] theorem State.updLane_tele (s : State) (n : Nat) (f : Lane → Lane) : (s.updLane n f).tele = s.tele := rfl
@[simp] theorem State.lane_updLane (s : State) (n : Nat) (f : Lane → Lane) : (s.updLane n f).lane n = f (s.lane n) := NMap.get_upd_self ..
theorem State.lane_updLane_ne (s : State) {n z : Nat} (f : Lane → Lane) (h : z ≠ n) : (s.updLane n f).lane z = s.lane z :=
  NMap.get_upd_ne _ _ _ _ h

@[simp] theorem State.updPort_pending (s : State) (p : Nat) (f : Port → Port) : (s.updPort p f).pending = s.pending := rfl
@[simp] theorem State.updPort_freeCtr (s : State) (p : Nat) (f : Port → Port) : (s.updPort p f).freeCtr = s.freeCtr := rfl
@[simp] theorem State.updPort_latch (s : State) (p : Nat) (f : Port → Port) : (s.updPort p f).latch = s.latch := rfl
@[simp] theorem State.updPort_regs (s : State) (p : Nat) (f : Port → Port) : (s.updPort p f).regs = s.regs := rfl
@[simp] theorem State.updPort_time (s : State) (p : Nat) (f : Port → Port) : (s.updPort p f).time = s.time := rfl
@[simp] theorem State.updPort_host (s : State) (p : Nat) (f : Port → Port) : (s.updPort p f).host = s.host := rfl
@[simp] theorem State.updPort_sec (s : State) (p : Nat) (f : Port → Port) : (s.updPort p f).sec = s.sec := rfl
@[simp] theorem State.updPort_modes (s : State) (p : Nat) (f : Port → Port) : (s.updPort p f).modes = s.modes := rfl
@[simp] theorem State.updPort_chip (s : State) (p : Nat) (f : Port → Port) : (s.updPort p f).chip = s.chip := rfl
@[simp] theorem State.updPort_lanes (s : State) (p : Nat) (f : Port → Port) : (s.updPort p f).lanes = s.lanes := rfl
@[simp] theorem State.updPort_macs (s : State) (p : Nat) (f : Port → Port) : (s.updPort p f).macs = s.macs := rfl
@[simp] theorem State.updPort_xpt (s : State) (p : Nat) (f : Port → Port) : (s.updPort p f).xpt = s.xpt := rfl
@[simp] theorem State.updPort_lookup (s : State) (p : Nat) (f : Port → Port) : (s.updPort p f).lookup = s.lookup := rfl
@[simp] theorem State.updPort_parse (s : State) (p : Nat) (f : Port → Port) : (s.updPort p f).parse = s.parse := rfl
@[simp] theorem State.updPort_byway (s : State) (p : Nat) (f : Port → Port) : (s.updPort p f).byway = s.byway := rfl
@[simp] theorem State.updPort_caravan (s : State) (p : Nat) (f : Port → Port) : (s.updPort p f).caravan = s.caravan := rfl
@[simp] theorem State.updPort_switch (s : State) (p : Nat) (f : Port → Port) : (s.updPort p f).switch = s.switch := rfl
@[simp] theorem State.updPort_fabric (s : State) (p : Nat) (f : Port → Port) : (s.updPort p f).fabric = s.fabric := rfl
@[simp] theorem State.updPort_inn (s : State) (p : Nat) (f : Port → Port) : (s.updPort p f).inn = s.inn := rfl
@[simp] theorem State.updPort_tm (s : State) (p : Nat) (f : Port → Port) : (s.updPort p f).tm = s.tm := rfl
@[simp] theorem State.updPort_mem (s : State) (p : Nat) (f : Port → Port) : (s.updPort p f).mem = s.mem := rfl
@[simp] theorem State.updPort_twin (s : State) (p : Nat) (f : Port → Port) : (s.updPort p f).twin = s.twin := rfl
@[simp] theorem State.updPort_tele (s : State) (p : Nat) (f : Port → Port) : (s.updPort p f).tele = s.tele := rfl
@[simp] theorem State.port_updPort (s : State) (p : Nat) (f : Port → Port) : (s.updPort p f).port p = f (s.port p) := NMap.get_upd_self ..
theorem State.port_updPort_ne (s : State) {p z : Nat} (f : Port → Port) (h : z ≠ p) : (s.updPort p f).port z = s.port z :=
  NMap.get_upd_ne _ _ _ _ h

@[simp] theorem State.updLevel_pending (s : State) (n : Nat) (f : Align → Align) : (s.updLevel n f).pending = s.pending := rfl
@[simp] theorem State.updLevel_freeCtr (s : State) (n : Nat) (f : Align → Align) : (s.updLevel n f).freeCtr = s.freeCtr := rfl
@[simp] theorem State.updLevel_latch (s : State) (n : Nat) (f : Align → Align) : (s.updLevel n f).latch = s.latch := rfl
@[simp] theorem State.updLevel_regs (s : State) (n : Nat) (f : Align → Align) : (s.updLevel n f).regs = s.regs := rfl
@[simp] theorem State.updLevel_time (s : State) (n : Nat) (f : Align → Align) : (s.updLevel n f).time = s.time := rfl
@[simp] theorem State.updLevel_host (s : State) (n : Nat) (f : Align → Align) : (s.updLevel n f).host = s.host := rfl
@[simp] theorem State.updLevel_sec (s : State) (n : Nat) (f : Align → Align) : (s.updLevel n f).sec = s.sec := rfl
@[simp] theorem State.updLevel_modes (s : State) (n : Nat) (f : Align → Align) : (s.updLevel n f).modes = s.modes := rfl
@[simp] theorem State.updLevel_chip (s : State) (n : Nat) (f : Align → Align) : (s.updLevel n f).chip = s.chip := rfl
@[simp] theorem State.updLevel_lanes (s : State) (n : Nat) (f : Align → Align) : (s.updLevel n f).lanes = s.lanes := rfl
@[simp] theorem State.updLevel_ports (s : State) (n : Nat) (f : Align → Align) : (s.updLevel n f).ports = s.ports := rfl
@[simp] theorem State.updLevel_macs (s : State) (n : Nat) (f : Align → Align) : (s.updLevel n f).macs = s.macs := rfl
@[simp] theorem State.updLevel_lookup (s : State) (n : Nat) (f : Align → Align) : (s.updLevel n f).lookup = s.lookup := rfl
@[simp] theorem State.updLevel_parse (s : State) (n : Nat) (f : Align → Align) : (s.updLevel n f).parse = s.parse := rfl
@[simp] theorem State.updLevel_byway (s : State) (n : Nat) (f : Align → Align) : (s.updLevel n f).byway = s.byway := rfl
@[simp] theorem State.updLevel_caravan (s : State) (n : Nat) (f : Align → Align) : (s.updLevel n f).caravan = s.caravan := rfl
@[simp] theorem State.updLevel_switch (s : State) (n : Nat) (f : Align → Align) : (s.updLevel n f).switch = s.switch := rfl
@[simp] theorem State.updLevel_fabric (s : State) (n : Nat) (f : Align → Align) : (s.updLevel n f).fabric = s.fabric := rfl
@[simp] theorem State.updLevel_inn (s : State) (n : Nat) (f : Align → Align) : (s.updLevel n f).inn = s.inn := rfl
@[simp] theorem State.updLevel_tm (s : State) (n : Nat) (f : Align → Align) : (s.updLevel n f).tm = s.tm := rfl
@[simp] theorem State.updLevel_mem (s : State) (n : Nat) (f : Align → Align) : (s.updLevel n f).mem = s.mem := rfl
@[simp] theorem State.updLevel_twin (s : State) (n : Nat) (f : Align → Align) : (s.updLevel n f).twin = s.twin := rfl
@[simp] theorem State.updLevel_tele (s : State) (n : Nat) (f : Align → Align) : (s.updLevel n f).tele = s.tele := rfl
@[simp] theorem State.level_updLevel (s : State) (n : Nat) (f : Align → Align) : (s.updLevel n f).level n = f (s.level n) := NMap.get_upd_self ..
theorem State.level_updLevel_ne (s : State) {n z : Nat} (f : Align → Align) (h : z ≠ n) : (s.updLevel n f).level z = s.level z :=
  NMap.get_upd_ne _ _ _ _ h

@[simp] theorem State.updEnt_pending (s : State) (e : Nat) (f : XEnt → XEnt) : (s.updEnt e f).pending = s.pending := rfl
@[simp] theorem State.updEnt_freeCtr (s : State) (e : Nat) (f : XEnt → XEnt) : (s.updEnt e f).freeCtr = s.freeCtr := rfl
@[simp] theorem State.updEnt_latch (s : State) (e : Nat) (f : XEnt → XEnt) : (s.updEnt e f).latch = s.latch := rfl
@[simp] theorem State.updEnt_regs (s : State) (e : Nat) (f : XEnt → XEnt) : (s.updEnt e f).regs = s.regs := rfl
@[simp] theorem State.updEnt_time (s : State) (e : Nat) (f : XEnt → XEnt) : (s.updEnt e f).time = s.time := rfl
@[simp] theorem State.updEnt_host (s : State) (e : Nat) (f : XEnt → XEnt) : (s.updEnt e f).host = s.host := rfl
@[simp] theorem State.updEnt_sec (s : State) (e : Nat) (f : XEnt → XEnt) : (s.updEnt e f).sec = s.sec := rfl
@[simp] theorem State.updEnt_modes (s : State) (e : Nat) (f : XEnt → XEnt) : (s.updEnt e f).modes = s.modes := rfl
@[simp] theorem State.updEnt_chip (s : State) (e : Nat) (f : XEnt → XEnt) : (s.updEnt e f).chip = s.chip := rfl
@[simp] theorem State.updEnt_lanes (s : State) (e : Nat) (f : XEnt → XEnt) : (s.updEnt e f).lanes = s.lanes := rfl
@[simp] theorem State.updEnt_ports (s : State) (e : Nat) (f : XEnt → XEnt) : (s.updEnt e f).ports = s.ports := rfl
@[simp] theorem State.updEnt_macs (s : State) (e : Nat) (f : XEnt → XEnt) : (s.updEnt e f).macs = s.macs := rfl
@[simp] theorem State.updEnt_lookup (s : State) (e : Nat) (f : XEnt → XEnt) : (s.updEnt e f).lookup = s.lookup := rfl
@[simp] theorem State.updEnt_parse (s : State) (e : Nat) (f : XEnt → XEnt) : (s.updEnt e f).parse = s.parse := rfl
@[simp] theorem State.updEnt_byway (s : State) (e : Nat) (f : XEnt → XEnt) : (s.updEnt e f).byway = s.byway := rfl
@[simp] theorem State.updEnt_caravan (s : State) (e : Nat) (f : XEnt → XEnt) : (s.updEnt e f).caravan = s.caravan := rfl
@[simp] theorem State.updEnt_switch (s : State) (e : Nat) (f : XEnt → XEnt) : (s.updEnt e f).switch = s.switch := rfl
@[simp] theorem State.updEnt_fabric (s : State) (e : Nat) (f : XEnt → XEnt) : (s.updEnt e f).fabric = s.fabric := rfl
@[simp] theorem State.updEnt_inn (s : State) (e : Nat) (f : XEnt → XEnt) : (s.updEnt e f).inn = s.inn := rfl
@[simp] theorem State.updEnt_tm (s : State) (e : Nat) (f : XEnt → XEnt) : (s.updEnt e f).tm = s.tm := rfl
@[simp] theorem State.updEnt_mem (s : State) (e : Nat) (f : XEnt → XEnt) : (s.updEnt e f).mem = s.mem := rfl
@[simp] theorem State.updEnt_twin (s : State) (e : Nat) (f : XEnt → XEnt) : (s.updEnt e f).twin = s.twin := rfl
@[simp] theorem State.updEnt_tele (s : State) (e : Nat) (f : XEnt → XEnt) : (s.updEnt e f).tele = s.tele := rfl
@[simp] theorem State.ent_updEnt (s : State) (e : Nat) (f : XEnt → XEnt) : (s.updEnt e f).ent e = f (s.ent e) := NMap.get_upd_self ..
theorem State.ent_updEnt_ne (s : State) {e z : Nat} (f : XEnt → XEnt) (h : z ≠ e) : (s.updEnt e f).ent z = s.ent z :=
  NMap.get_upd_ne _ _ _ _ h

@[simp] theorem State.markSet_pending (s : State) (a m : Nat) : (s.markSet a m).pending = s.pending := rfl
@[simp] theorem State.markSet_freeCtr (s : State) (a m : Nat) : (s.markSet a m).freeCtr = s.freeCtr := rfl
@[simp] theorem State.markSet_regs (s : State) (a m : Nat) : (s.markSet a m).regs = s.regs := rfl
@[simp] theorem State.markSet_time (s : State) (a m : Nat) : (s.markSet a m).time = s.time := rfl
@[simp] theorem State.markSet_host (s : State) (a m : Nat) : (s.markSet a m).host = s.host := rfl
@[simp] theorem State.markSet_sec (s : State) (a m : Nat) : (s.markSet a m).sec = s.sec := rfl
@[simp] theorem State.markSet_modes (s : State) (a m : Nat) : (s.markSet a m).modes = s.modes := rfl
@[simp] theorem State.markSet_chip (s : State) (a m : Nat) : (s.markSet a m).chip = s.chip := rfl
@[simp] theorem State.markSet_lanes (s : State) (a m : Nat) : (s.markSet a m).lanes = s.lanes := rfl
@[simp] theorem State.markSet_ports (s : State) (a m : Nat) : (s.markSet a m).ports = s.ports := rfl
@[simp] theorem State.markSet_macs (s : State) (a m : Nat) : (s.markSet a m).macs = s.macs := rfl
@[simp] theorem State.markSet_xpt (s : State) (a m : Nat) : (s.markSet a m).xpt = s.xpt := rfl
@[simp] theorem State.markSet_lookup (s : State) (a m : Nat) : (s.markSet a m).lookup = s.lookup := rfl
@[simp] theorem State.markSet_parse (s : State) (a m : Nat) : (s.markSet a m).parse = s.parse := rfl
@[simp] theorem State.markSet_byway (s : State) (a m : Nat) : (s.markSet a m).byway = s.byway := rfl
@[simp] theorem State.markSet_caravan (s : State) (a m : Nat) : (s.markSet a m).caravan = s.caravan := rfl
@[simp] theorem State.markSet_switch (s : State) (a m : Nat) : (s.markSet a m).switch = s.switch := rfl
@[simp] theorem State.markSet_fabric (s : State) (a m : Nat) : (s.markSet a m).fabric = s.fabric := rfl
@[simp] theorem State.markSet_inn (s : State) (a m : Nat) : (s.markSet a m).inn = s.inn := rfl
@[simp] theorem State.markSet_tm (s : State) (a m : Nat) : (s.markSet a m).tm = s.tm := rfl
@[simp] theorem State.markSet_mem (s : State) (a m : Nat) : (s.markSet a m).mem = s.mem := rfl
@[simp] theorem State.markSet_twin (s : State) (a m : Nat) : (s.markSet a m).twin = s.twin := rfl
@[simp] theorem State.markSet_tele (s : State) (a m : Nat) : (s.markSet a m).tele = s.tele := rfl

@[simp] theorem State.updClient_pending (s : State) (p : Nat) (f : Client → Client) : (s.updClient p f).pending = s.pending := rfl
@[simp] theorem State.updClient_freeCtr (s : State) (p : Nat) (f : Client → Client) : (s.updClient p f).freeCtr = s.freeCtr := rfl
@[simp] theorem State.updClient_regs (s : State) (p : Nat) (f : Client → Client) : (s.updClient p f).regs = s.regs := rfl
@[simp] theorem State.updClient_latch (s : State) (p : Nat) (f : Client → Client) : (s.updClient p f).latch = s.latch := rfl
@[simp] theorem State.updClient_time (s : State) (p : Nat) (f : Client → Client) : (s.updClient p f).time = s.time := rfl
@[simp] theorem State.updClient_host (s : State) (p : Nat) (f : Client → Client) : (s.updClient p f).host = s.host := rfl
@[simp] theorem State.updClient_sec (s : State) (p : Nat) (f : Client → Client) : (s.updClient p f).sec = s.sec := rfl
@[simp] theorem State.updClient_modes (s : State) (p : Nat) (f : Client → Client) : (s.updClient p f).modes = s.modes := rfl
@[simp] theorem State.updClient_chip (s : State) (p : Nat) (f : Client → Client) : (s.updClient p f).chip = s.chip := rfl
@[simp] theorem State.updClient_lanes (s : State) (p : Nat) (f : Client → Client) : (s.updClient p f).lanes = s.lanes := rfl
@[simp] theorem State.updClient_ports (s : State) (p : Nat) (f : Client → Client) : (s.updClient p f).ports = s.ports := rfl
@[simp] theorem State.updClient_macs (s : State) (p : Nat) (f : Client → Client) : (s.updClient p f).macs = s.macs := rfl
@[simp] theorem State.updClient_lookup (s : State) (p : Nat) (f : Client → Client) : (s.updClient p f).lookup = s.lookup := rfl
@[simp] theorem State.updClient_parse (s : State) (p : Nat) (f : Client → Client) : (s.updClient p f).parse = s.parse := rfl
@[simp] theorem State.updClient_byway (s : State) (p : Nat) (f : Client → Client) : (s.updClient p f).byway = s.byway := rfl
@[simp] theorem State.updClient_caravan (s : State) (p : Nat) (f : Client → Client) : (s.updClient p f).caravan = s.caravan := rfl
@[simp] theorem State.updClient_switch (s : State) (p : Nat) (f : Client → Client) : (s.updClient p f).switch = s.switch := rfl
@[simp] theorem State.updClient_fabric (s : State) (p : Nat) (f : Client → Client) : (s.updClient p f).fabric = s.fabric := rfl
@[simp] theorem State.updClient_inn (s : State) (p : Nat) (f : Client → Client) : (s.updClient p f).inn = s.inn := rfl
@[simp] theorem State.updClient_tm (s : State) (p : Nat) (f : Client → Client) : (s.updClient p f).tm = s.tm := rfl
@[simp] theorem State.updClient_mem (s : State) (p : Nat) (f : Client → Client) : (s.updClient p f).mem = s.mem := rfl
@[simp] theorem State.updClient_twin (s : State) (p : Nat) (f : Client → Client) : (s.updClient p f).twin = s.twin := rfl
@[simp] theorem State.updClient_tele (s : State) (p : Nat) (f : Client → Client) : (s.updClient p f).tele = s.tele := rfl

@[simp] theorem State.updClaim_pending (s : State) (p : Nat) (f : Claim → Claim) : (s.updClaim p f).pending = s.pending := by
  unfold State.updClaim; split <;> rfl
@[simp] theorem State.updClaim_freeCtr (s : State) (p : Nat) (f : Claim → Claim) : (s.updClaim p f).freeCtr = s.freeCtr := by
  unfold State.updClaim; split <;> rfl
@[simp] theorem State.updClaim_regs (s : State) (p : Nat) (f : Claim → Claim) : (s.updClaim p f).regs = s.regs := by
  unfold State.updClaim; split <;> rfl
@[simp] theorem State.updClaim_latch (s : State) (p : Nat) (f : Claim → Claim) : (s.updClaim p f).latch = s.latch := by
  unfold State.updClaim; split <;> rfl
@[simp] theorem State.updClaim_time (s : State) (p : Nat) (f : Claim → Claim) : (s.updClaim p f).time = s.time := by
  unfold State.updClaim; split <;> rfl
@[simp] theorem State.updClaim_host (s : State) (p : Nat) (f : Claim → Claim) : (s.updClaim p f).host = s.host := by
  unfold State.updClaim; split <;> rfl
@[simp] theorem State.updClaim_sec (s : State) (p : Nat) (f : Claim → Claim) : (s.updClaim p f).sec = s.sec := by
  unfold State.updClaim; split <;> rfl
@[simp] theorem State.updClaim_modes (s : State) (p : Nat) (f : Claim → Claim) : (s.updClaim p f).modes = s.modes := by
  unfold State.updClaim; split <;> rfl
@[simp] theorem State.updClaim_chip (s : State) (p : Nat) (f : Claim → Claim) : (s.updClaim p f).chip = s.chip := by
  unfold State.updClaim; split <;> rfl
@[simp] theorem State.updClaim_lanes (s : State) (p : Nat) (f : Claim → Claim) : (s.updClaim p f).lanes = s.lanes := by
  unfold State.updClaim; split <;> rfl
@[simp] theorem State.updClaim_ports (s : State) (p : Nat) (f : Claim → Claim) : (s.updClaim p f).ports = s.ports := by
  unfold State.updClaim; split <;> rfl
@[simp] theorem State.updClaim_macs (s : State) (p : Nat) (f : Claim → Claim) : (s.updClaim p f).macs = s.macs := by
  unfold State.updClaim; split <;> rfl
@[simp] theorem State.updClaim_xpt (s : State) (p : Nat) (f : Claim → Claim) : (s.updClaim p f).xpt = s.xpt := by
  unfold State.updClaim; split <;> rfl
@[simp] theorem State.updClaim_lookup (s : State) (p : Nat) (f : Claim → Claim) : (s.updClaim p f).lookup = s.lookup := by
  unfold State.updClaim; split <;> rfl
@[simp] theorem State.updClaim_parse (s : State) (p : Nat) (f : Claim → Claim) : (s.updClaim p f).parse = s.parse := by
  unfold State.updClaim; split <;> rfl
@[simp] theorem State.updClaim_byway (s : State) (p : Nat) (f : Claim → Claim) : (s.updClaim p f).byway = s.byway := by
  unfold State.updClaim; split <;> rfl
@[simp] theorem State.updClaim_caravan (s : State) (p : Nat) (f : Claim → Claim) : (s.updClaim p f).caravan = s.caravan := by
  unfold State.updClaim; split <;> rfl
@[simp] theorem State.updClaim_switch (s : State) (p : Nat) (f : Claim → Claim) : (s.updClaim p f).switch = s.switch := by
  unfold State.updClaim; split <;> rfl
@[simp] theorem State.updClaim_fabric (s : State) (p : Nat) (f : Claim → Claim) : (s.updClaim p f).fabric = s.fabric := by
  unfold State.updClaim; split <;> rfl
@[simp] theorem State.updClaim_inn (s : State) (p : Nat) (f : Claim → Claim) : (s.updClaim p f).inn = s.inn := by
  unfold State.updClaim; split <;> rfl
@[simp] theorem State.updClaim_tm (s : State) (p : Nat) (f : Claim → Claim) : (s.updClaim p f).tm = s.tm := by
  unfold State.updClaim; split <;> rfl
@[simp] theorem State.updClaim_mem (s : State) (p : Nat) (f : Claim → Claim) : (s.updClaim p f).mem = s.mem := by
  unfold State.updClaim; split <;> rfl
@[simp] theorem State.updClaim_tele (s : State) (p : Nat) (f : Claim → Claim) : (s.updClaim p f).tele = s.tele := by
  unfold State.updClaim; split <;> rfl

@[simp] theorem State.updEpochs_pending (s : State) (p : Nat) (f : Epochs → Epochs) : (s.updEpochs p f).pending = s.pending := by
  unfold State.updEpochs; split <;> rfl
@[simp] theorem State.updEpochs_freeCtr (s : State) (p : Nat) (f : Epochs → Epochs) : (s.updEpochs p f).freeCtr = s.freeCtr := by
  unfold State.updEpochs; split <;> rfl
@[simp] theorem State.updEpochs_regs (s : State) (p : Nat) (f : Epochs → Epochs) : (s.updEpochs p f).regs = s.regs := by
  unfold State.updEpochs; split <;> rfl
@[simp] theorem State.updEpochs_latch (s : State) (p : Nat) (f : Epochs → Epochs) : (s.updEpochs p f).latch = s.latch := by
  unfold State.updEpochs; split <;> rfl
@[simp] theorem State.updEpochs_time (s : State) (p : Nat) (f : Epochs → Epochs) : (s.updEpochs p f).time = s.time := by
  unfold State.updEpochs; split <;> rfl
@[simp] theorem State.updEpochs_host (s : State) (p : Nat) (f : Epochs → Epochs) : (s.updEpochs p f).host = s.host := by
  unfold State.updEpochs; split <;> rfl
@[simp] theorem State.updEpochs_sec (s : State) (p : Nat) (f : Epochs → Epochs) : (s.updEpochs p f).sec = s.sec := by
  unfold State.updEpochs; split <;> rfl
@[simp] theorem State.updEpochs_modes (s : State) (p : Nat) (f : Epochs → Epochs) : (s.updEpochs p f).modes = s.modes := by
  unfold State.updEpochs; split <;> rfl
@[simp] theorem State.updEpochs_chip (s : State) (p : Nat) (f : Epochs → Epochs) : (s.updEpochs p f).chip = s.chip := by
  unfold State.updEpochs; split <;> rfl
@[simp] theorem State.updEpochs_lanes (s : State) (p : Nat) (f : Epochs → Epochs) : (s.updEpochs p f).lanes = s.lanes := by
  unfold State.updEpochs; split <;> rfl
@[simp] theorem State.updEpochs_ports (s : State) (p : Nat) (f : Epochs → Epochs) : (s.updEpochs p f).ports = s.ports := by
  unfold State.updEpochs; split <;> rfl
@[simp] theorem State.updEpochs_macs (s : State) (p : Nat) (f : Epochs → Epochs) : (s.updEpochs p f).macs = s.macs := by
  unfold State.updEpochs; split <;> rfl
@[simp] theorem State.updEpochs_xpt (s : State) (p : Nat) (f : Epochs → Epochs) : (s.updEpochs p f).xpt = s.xpt := by
  unfold State.updEpochs; split <;> rfl
@[simp] theorem State.updEpochs_parse (s : State) (p : Nat) (f : Epochs → Epochs) : (s.updEpochs p f).parse = s.parse := by
  unfold State.updEpochs; split <;> rfl
@[simp] theorem State.updEpochs_byway (s : State) (p : Nat) (f : Epochs → Epochs) : (s.updEpochs p f).byway = s.byway := by
  unfold State.updEpochs; split <;> rfl
@[simp] theorem State.updEpochs_caravan (s : State) (p : Nat) (f : Epochs → Epochs) : (s.updEpochs p f).caravan = s.caravan := by
  unfold State.updEpochs; split <;> rfl
@[simp] theorem State.updEpochs_switch (s : State) (p : Nat) (f : Epochs → Epochs) : (s.updEpochs p f).switch = s.switch := by
  unfold State.updEpochs; split <;> rfl
@[simp] theorem State.updEpochs_fabric (s : State) (p : Nat) (f : Epochs → Epochs) : (s.updEpochs p f).fabric = s.fabric := by
  unfold State.updEpochs; split <;> rfl
@[simp] theorem State.updEpochs_inn (s : State) (p : Nat) (f : Epochs → Epochs) : (s.updEpochs p f).inn = s.inn := by
  unfold State.updEpochs; split <;> rfl
@[simp] theorem State.updEpochs_tm (s : State) (p : Nat) (f : Epochs → Epochs) : (s.updEpochs p f).tm = s.tm := by
  unfold State.updEpochs; split <;> rfl
@[simp] theorem State.updEpochs_mem (s : State) (p : Nat) (f : Epochs → Epochs) : (s.updEpochs p f).mem = s.mem := by
  unfold State.updEpochs; split <;> rfl
@[simp] theorem State.updEpochs_twin (s : State) (p : Nat) (f : Epochs → Epochs) : (s.updEpochs p f).twin = s.twin := by
  unfold State.updEpochs; split <;> rfl
@[simp] theorem State.updEpochs_tele (s : State) (p : Nat) (f : Epochs → Epochs) : (s.updEpochs p f).tele = s.tele := by
  unfold State.updEpochs; split <;> rfl

@[simp] theorem State.updLink_pending (s : State) (j : Nat) (f : Link → Link) : (s.updLink j f).pending = s.pending := rfl
@[simp] theorem State.updLink_freeCtr (s : State) (j : Nat) (f : Link → Link) : (s.updLink j f).freeCtr = s.freeCtr := rfl
@[simp] theorem State.updLink_latch (s : State) (j : Nat) (f : Link → Link) : (s.updLink j f).latch = s.latch := rfl
@[simp] theorem State.updLink_regs (s : State) (j : Nat) (f : Link → Link) : (s.updLink j f).regs = s.regs := rfl
@[simp] theorem State.updLink_time (s : State) (j : Nat) (f : Link → Link) : (s.updLink j f).time = s.time := rfl
@[simp] theorem State.updLink_host (s : State) (j : Nat) (f : Link → Link) : (s.updLink j f).host = s.host := rfl
@[simp] theorem State.updLink_sec (s : State) (j : Nat) (f : Link → Link) : (s.updLink j f).sec = s.sec := rfl
@[simp] theorem State.updLink_modes (s : State) (j : Nat) (f : Link → Link) : (s.updLink j f).modes = s.modes := rfl
@[simp] theorem State.updLink_chip (s : State) (j : Nat) (f : Link → Link) : (s.updLink j f).chip = s.chip := rfl
@[simp] theorem State.updLink_lanes (s : State) (j : Nat) (f : Link → Link) : (s.updLink j f).lanes = s.lanes := rfl
@[simp] theorem State.updLink_ports (s : State) (j : Nat) (f : Link → Link) : (s.updLink j f).ports = s.ports := rfl
@[simp] theorem State.updLink_macs (s : State) (j : Nat) (f : Link → Link) : (s.updLink j f).macs = s.macs := rfl
@[simp] theorem State.updLink_xpt (s : State) (j : Nat) (f : Link → Link) : (s.updLink j f).xpt = s.xpt := rfl
@[simp] theorem State.updLink_lookup (s : State) (j : Nat) (f : Link → Link) : (s.updLink j f).lookup = s.lookup := rfl
@[simp] theorem State.updLink_parse (s : State) (j : Nat) (f : Link → Link) : (s.updLink j f).parse = s.parse := rfl
@[simp] theorem State.updLink_byway (s : State) (j : Nat) (f : Link → Link) : (s.updLink j f).byway = s.byway := rfl
@[simp] theorem State.updLink_caravan (s : State) (j : Nat) (f : Link → Link) : (s.updLink j f).caravan = s.caravan := rfl
@[simp] theorem State.updLink_switch (s : State) (j : Nat) (f : Link → Link) : (s.updLink j f).switch = s.switch := rfl
@[simp] theorem State.updLink_inn (s : State) (j : Nat) (f : Link → Link) : (s.updLink j f).inn = s.inn := rfl
@[simp] theorem State.updLink_tm (s : State) (j : Nat) (f : Link → Link) : (s.updLink j f).tm = s.tm := rfl
@[simp] theorem State.updLink_mem (s : State) (j : Nat) (f : Link → Link) : (s.updLink j f).mem = s.mem := rfl
@[simp] theorem State.updLink_twin (s : State) (j : Nat) (f : Link → Link) : (s.updLink j f).twin = s.twin := rfl
@[simp] theorem State.updLink_tele (s : State) (j : Nat) (f : Link → Link) : (s.updLink j f).tele = s.tele := rfl
@[simp] theorem State.link_updLink (s : State) (j : Nat) (f : Link → Link) : (s.updLink j f).link j = f (s.link j) := NMap.get_upd_self ..
theorem State.link_updLink_ne (s : State) {j z : Nat} (f : Link → Link) (h : z ≠ j) : (s.updLink j f).link z = s.link z :=
  NMap.get_upd_ne _ _ _ _ h

@[simp] theorem State.updQueue_pending (s : State) (q : Nat) (f : Queue → Queue) : (s.updQueue q f).pending = s.pending := rfl
@[simp] theorem State.updQueue_freeCtr (s : State) (q : Nat) (f : Queue → Queue) : (s.updQueue q f).freeCtr = s.freeCtr := rfl
@[simp] theorem State.updQueue_latch (s : State) (q : Nat) (f : Queue → Queue) : (s.updQueue q f).latch = s.latch := rfl
@[simp] theorem State.updQueue_regs (s : State) (q : Nat) (f : Queue → Queue) : (s.updQueue q f).regs = s.regs := rfl
@[simp] theorem State.updQueue_time (s : State) (q : Nat) (f : Queue → Queue) : (s.updQueue q f).time = s.time := rfl
@[simp] theorem State.updQueue_host (s : State) (q : Nat) (f : Queue → Queue) : (s.updQueue q f).host = s.host := rfl
@[simp] theorem State.updQueue_sec (s : State) (q : Nat) (f : Queue → Queue) : (s.updQueue q f).sec = s.sec := rfl
@[simp] theorem State.updQueue_modes (s : State) (q : Nat) (f : Queue → Queue) : (s.updQueue q f).modes = s.modes := rfl
@[simp] theorem State.updQueue_chip (s : State) (q : Nat) (f : Queue → Queue) : (s.updQueue q f).chip = s.chip := rfl
@[simp] theorem State.updQueue_lanes (s : State) (q : Nat) (f : Queue → Queue) : (s.updQueue q f).lanes = s.lanes := rfl
@[simp] theorem State.updQueue_ports (s : State) (q : Nat) (f : Queue → Queue) : (s.updQueue q f).ports = s.ports := rfl
@[simp] theorem State.updQueue_macs (s : State) (q : Nat) (f : Queue → Queue) : (s.updQueue q f).macs = s.macs := rfl
@[simp] theorem State.updQueue_xpt (s : State) (q : Nat) (f : Queue → Queue) : (s.updQueue q f).xpt = s.xpt := rfl
@[simp] theorem State.updQueue_lookup (s : State) (q : Nat) (f : Queue → Queue) : (s.updQueue q f).lookup = s.lookup := rfl
@[simp] theorem State.updQueue_parse (s : State) (q : Nat) (f : Queue → Queue) : (s.updQueue q f).parse = s.parse := rfl
@[simp] theorem State.updQueue_byway (s : State) (q : Nat) (f : Queue → Queue) : (s.updQueue q f).byway = s.byway := rfl
@[simp] theorem State.updQueue_caravan (s : State) (q : Nat) (f : Queue → Queue) : (s.updQueue q f).caravan = s.caravan := rfl
@[simp] theorem State.updQueue_switch (s : State) (q : Nat) (f : Queue → Queue) : (s.updQueue q f).switch = s.switch := rfl
@[simp] theorem State.updQueue_fabric (s : State) (q : Nat) (f : Queue → Queue) : (s.updQueue q f).fabric = s.fabric := rfl
@[simp] theorem State.updQueue_inn (s : State) (q : Nat) (f : Queue → Queue) : (s.updQueue q f).inn = s.inn := rfl
@[simp] theorem State.updQueue_mem (s : State) (q : Nat) (f : Queue → Queue) : (s.updQueue q f).mem = s.mem := rfl
@[simp] theorem State.updQueue_twin (s : State) (q : Nat) (f : Queue → Queue) : (s.updQueue q f).twin = s.twin := rfl
@[simp] theorem State.updQueue_tele (s : State) (q : Nat) (f : Queue → Queue) : (s.updQueue q f).tele = s.tele := rfl
@[simp] theorem State.queue_updQueue (s : State) (q : Nat) (f : Queue → Queue) : (s.updQueue q f).queue q = f (s.queue q) := NMap.get_upd_self ..
theorem State.queue_updQueue_ne (s : State) {q z : Nat} (f : Queue → Queue) (h : z ≠ q) : (s.updQueue q f).queue z = s.queue z :=
  NMap.get_upd_ne _ _ _ _ h

@[simp] theorem State.updNode_pending (s : State) (k : Nat) (f : Node → Node) : (s.updNode k f).pending = s.pending := rfl
@[simp] theorem State.updNode_freeCtr (s : State) (k : Nat) (f : Node → Node) : (s.updNode k f).freeCtr = s.freeCtr := rfl
@[simp] theorem State.updNode_latch (s : State) (k : Nat) (f : Node → Node) : (s.updNode k f).latch = s.latch := rfl
@[simp] theorem State.updNode_regs (s : State) (k : Nat) (f : Node → Node) : (s.updNode k f).regs = s.regs := rfl
@[simp] theorem State.updNode_time (s : State) (k : Nat) (f : Node → Node) : (s.updNode k f).time = s.time := rfl
@[simp] theorem State.updNode_host (s : State) (k : Nat) (f : Node → Node) : (s.updNode k f).host = s.host := rfl
@[simp] theorem State.updNode_sec (s : State) (k : Nat) (f : Node → Node) : (s.updNode k f).sec = s.sec := rfl
@[simp] theorem State.updNode_modes (s : State) (k : Nat) (f : Node → Node) : (s.updNode k f).modes = s.modes := rfl
@[simp] theorem State.updNode_chip (s : State) (k : Nat) (f : Node → Node) : (s.updNode k f).chip = s.chip := rfl
@[simp] theorem State.updNode_lanes (s : State) (k : Nat) (f : Node → Node) : (s.updNode k f).lanes = s.lanes := rfl
@[simp] theorem State.updNode_ports (s : State) (k : Nat) (f : Node → Node) : (s.updNode k f).ports = s.ports := rfl
@[simp] theorem State.updNode_macs (s : State) (k : Nat) (f : Node → Node) : (s.updNode k f).macs = s.macs := rfl
@[simp] theorem State.updNode_xpt (s : State) (k : Nat) (f : Node → Node) : (s.updNode k f).xpt = s.xpt := rfl
@[simp] theorem State.updNode_lookup (s : State) (k : Nat) (f : Node → Node) : (s.updNode k f).lookup = s.lookup := rfl
@[simp] theorem State.updNode_parse (s : State) (k : Nat) (f : Node → Node) : (s.updNode k f).parse = s.parse := rfl
@[simp] theorem State.updNode_byway (s : State) (k : Nat) (f : Node → Node) : (s.updNode k f).byway = s.byway := rfl
@[simp] theorem State.updNode_caravan (s : State) (k : Nat) (f : Node → Node) : (s.updNode k f).caravan = s.caravan := rfl
@[simp] theorem State.updNode_switch (s : State) (k : Nat) (f : Node → Node) : (s.updNode k f).switch = s.switch := rfl
@[simp] theorem State.updNode_fabric (s : State) (k : Nat) (f : Node → Node) : (s.updNode k f).fabric = s.fabric := rfl
@[simp] theorem State.updNode_inn (s : State) (k : Nat) (f : Node → Node) : (s.updNode k f).inn = s.inn := rfl
@[simp] theorem State.updNode_mem (s : State) (k : Nat) (f : Node → Node) : (s.updNode k f).mem = s.mem := rfl
@[simp] theorem State.updNode_twin (s : State) (k : Nat) (f : Node → Node) : (s.updNode k f).twin = s.twin := rfl
@[simp] theorem State.updNode_tele (s : State) (k : Nat) (f : Node → Node) : (s.updNode k f).tele = s.tele := rfl
@[simp] theorem State.node_updNode (s : State) (k : Nat) (f : Node → Node) : (s.updNode k f).node k = f (s.node k) := NMap.get_upd_self ..
theorem State.node_updNode_ne (s : State) {k z : Nat} (f : Node → Node) (h : z ≠ k) : (s.updNode k f).node z = s.node z :=
  NMap.get_upd_ne _ _ _ _ h

@[simp] theorem State.updGate_pending (s : State) (p : Nat) (f : Gate → Gate) : (s.updGate p f).pending = s.pending := rfl
@[simp] theorem State.updGate_freeCtr (s : State) (p : Nat) (f : Gate → Gate) : (s.updGate p f).freeCtr = s.freeCtr := rfl
@[simp] theorem State.updGate_latch (s : State) (p : Nat) (f : Gate → Gate) : (s.updGate p f).latch = s.latch := rfl
@[simp] theorem State.updGate_regs (s : State) (p : Nat) (f : Gate → Gate) : (s.updGate p f).regs = s.regs := rfl
@[simp] theorem State.updGate_time (s : State) (p : Nat) (f : Gate → Gate) : (s.updGate p f).time = s.time := rfl
@[simp] theorem State.updGate_host (s : State) (p : Nat) (f : Gate → Gate) : (s.updGate p f).host = s.host := rfl
@[simp] theorem State.updGate_sec (s : State) (p : Nat) (f : Gate → Gate) : (s.updGate p f).sec = s.sec := rfl
@[simp] theorem State.updGate_modes (s : State) (p : Nat) (f : Gate → Gate) : (s.updGate p f).modes = s.modes := rfl
@[simp] theorem State.updGate_chip (s : State) (p : Nat) (f : Gate → Gate) : (s.updGate p f).chip = s.chip := rfl
@[simp] theorem State.updGate_lanes (s : State) (p : Nat) (f : Gate → Gate) : (s.updGate p f).lanes = s.lanes := rfl
@[simp] theorem State.updGate_ports (s : State) (p : Nat) (f : Gate → Gate) : (s.updGate p f).ports = s.ports := rfl
@[simp] theorem State.updGate_macs (s : State) (p : Nat) (f : Gate → Gate) : (s.updGate p f).macs = s.macs := rfl
@[simp] theorem State.updGate_xpt (s : State) (p : Nat) (f : Gate → Gate) : (s.updGate p f).xpt = s.xpt := rfl
@[simp] theorem State.updGate_lookup (s : State) (p : Nat) (f : Gate → Gate) : (s.updGate p f).lookup = s.lookup := rfl
@[simp] theorem State.updGate_parse (s : State) (p : Nat) (f : Gate → Gate) : (s.updGate p f).parse = s.parse := rfl
@[simp] theorem State.updGate_byway (s : State) (p : Nat) (f : Gate → Gate) : (s.updGate p f).byway = s.byway := rfl
@[simp] theorem State.updGate_caravan (s : State) (p : Nat) (f : Gate → Gate) : (s.updGate p f).caravan = s.caravan := rfl
@[simp] theorem State.updGate_switch (s : State) (p : Nat) (f : Gate → Gate) : (s.updGate p f).switch = s.switch := rfl
@[simp] theorem State.updGate_fabric (s : State) (p : Nat) (f : Gate → Gate) : (s.updGate p f).fabric = s.fabric := rfl
@[simp] theorem State.updGate_inn (s : State) (p : Nat) (f : Gate → Gate) : (s.updGate p f).inn = s.inn := rfl
@[simp] theorem State.updGate_mem (s : State) (p : Nat) (f : Gate → Gate) : (s.updGate p f).mem = s.mem := rfl
@[simp] theorem State.updGate_twin (s : State) (p : Nat) (f : Gate → Gate) : (s.updGate p f).twin = s.twin := rfl
@[simp] theorem State.updGate_tele (s : State) (p : Nat) (f : Gate → Gate) : (s.updGate p f).tele = s.tele := rfl
@[simp] theorem State.gate_updGate (s : State) (p : Nat) (f : Gate → Gate) : (s.updGate p f).gate p = f (s.gate p) := NMap.get_upd_self ..
theorem State.gate_updGate_ne (s : State) {p z : Nat} (f : Gate → Gate) (h : z ≠ p) : (s.updGate p f).gate z = s.gate z :=
  NMap.get_upd_ne _ _ _ _ h

@[simp] theorem State.updEgress_pending (s : State) (p : Nat) (f : Egress → Egress) : (s.updEgress p f).pending = s.pending := rfl
@[simp] theorem State.updEgress_freeCtr (s : State) (p : Nat) (f : Egress → Egress) : (s.updEgress p f).freeCtr = s.freeCtr := rfl
@[simp] theorem State.updEgress_latch (s : State) (p : Nat) (f : Egress → Egress) : (s.updEgress p f).latch = s.latch := rfl
@[simp] theorem State.updEgress_regs (s : State) (p : Nat) (f : Egress → Egress) : (s.updEgress p f).regs = s.regs := rfl
@[simp] theorem State.updEgress_time (s : State) (p : Nat) (f : Egress → Egress) : (s.updEgress p f).time = s.time := rfl
@[simp] theorem State.updEgress_host (s : State) (p : Nat) (f : Egress → Egress) : (s.updEgress p f).host = s.host := rfl
@[simp] theorem State.updEgress_sec (s : State) (p : Nat) (f : Egress → Egress) : (s.updEgress p f).sec = s.sec := rfl
@[simp] theorem State.updEgress_modes (s : State) (p : Nat) (f : Egress → Egress) : (s.updEgress p f).modes = s.modes := rfl
@[simp] theorem State.updEgress_chip (s : State) (p : Nat) (f : Egress → Egress) : (s.updEgress p f).chip = s.chip := rfl
@[simp] theorem State.updEgress_lanes (s : State) (p : Nat) (f : Egress → Egress) : (s.updEgress p f).lanes = s.lanes := rfl
@[simp] theorem State.updEgress_ports (s : State) (p : Nat) (f : Egress → Egress) : (s.updEgress p f).ports = s.ports := rfl
@[simp] theorem State.updEgress_macs (s : State) (p : Nat) (f : Egress → Egress) : (s.updEgress p f).macs = s.macs := rfl
@[simp] theorem State.updEgress_xpt (s : State) (p : Nat) (f : Egress → Egress) : (s.updEgress p f).xpt = s.xpt := rfl
@[simp] theorem State.updEgress_lookup (s : State) (p : Nat) (f : Egress → Egress) : (s.updEgress p f).lookup = s.lookup := rfl
@[simp] theorem State.updEgress_parse (s : State) (p : Nat) (f : Egress → Egress) : (s.updEgress p f).parse = s.parse := rfl
@[simp] theorem State.updEgress_byway (s : State) (p : Nat) (f : Egress → Egress) : (s.updEgress p f).byway = s.byway := rfl
@[simp] theorem State.updEgress_caravan (s : State) (p : Nat) (f : Egress → Egress) : (s.updEgress p f).caravan = s.caravan := rfl
@[simp] theorem State.updEgress_switch (s : State) (p : Nat) (f : Egress → Egress) : (s.updEgress p f).switch = s.switch := rfl
@[simp] theorem State.updEgress_fabric (s : State) (p : Nat) (f : Egress → Egress) : (s.updEgress p f).fabric = s.fabric := rfl
@[simp] theorem State.updEgress_inn (s : State) (p : Nat) (f : Egress → Egress) : (s.updEgress p f).inn = s.inn := rfl
@[simp] theorem State.updEgress_mem (s : State) (p : Nat) (f : Egress → Egress) : (s.updEgress p f).mem = s.mem := rfl
@[simp] theorem State.updEgress_twin (s : State) (p : Nat) (f : Egress → Egress) : (s.updEgress p f).twin = s.twin := rfl
@[simp] theorem State.updEgress_tele (s : State) (p : Nat) (f : Egress → Egress) : (s.updEgress p f).tele = s.tele := rfl
@[simp] theorem State.egress_updEgress (s : State) (p : Nat) (f : Egress → Egress) : (s.updEgress p f).egress p = f (s.egress p) := NMap.get_upd_self ..
theorem State.egress_updEgress_ne (s : State) {p z : Nat} (f : Egress → Egress) (h : z ≠ p) : (s.updEgress p f).egress z = s.egress z :=
  NMap.get_upd_ne _ _ _ _ h

@[simp] theorem State.updPolicer_pending (s : State) (i : Nat) (f : Policer → Policer) : (s.updPolicer i f).pending = s.pending := rfl
@[simp] theorem State.updPolicer_freeCtr (s : State) (i : Nat) (f : Policer → Policer) : (s.updPolicer i f).freeCtr = s.freeCtr := rfl
@[simp] theorem State.updPolicer_latch (s : State) (i : Nat) (f : Policer → Policer) : (s.updPolicer i f).latch = s.latch := rfl
@[simp] theorem State.updPolicer_regs (s : State) (i : Nat) (f : Policer → Policer) : (s.updPolicer i f).regs = s.regs := rfl
@[simp] theorem State.updPolicer_time (s : State) (i : Nat) (f : Policer → Policer) : (s.updPolicer i f).time = s.time := rfl
@[simp] theorem State.updPolicer_host (s : State) (i : Nat) (f : Policer → Policer) : (s.updPolicer i f).host = s.host := rfl
@[simp] theorem State.updPolicer_sec (s : State) (i : Nat) (f : Policer → Policer) : (s.updPolicer i f).sec = s.sec := rfl
@[simp] theorem State.updPolicer_modes (s : State) (i : Nat) (f : Policer → Policer) : (s.updPolicer i f).modes = s.modes := rfl
@[simp] theorem State.updPolicer_chip (s : State) (i : Nat) (f : Policer → Policer) : (s.updPolicer i f).chip = s.chip := rfl
@[simp] theorem State.updPolicer_lanes (s : State) (i : Nat) (f : Policer → Policer) : (s.updPolicer i f).lanes = s.lanes := rfl
@[simp] theorem State.updPolicer_ports (s : State) (i : Nat) (f : Policer → Policer) : (s.updPolicer i f).ports = s.ports := rfl
@[simp] theorem State.updPolicer_macs (s : State) (i : Nat) (f : Policer → Policer) : (s.updPolicer i f).macs = s.macs := rfl
@[simp] theorem State.updPolicer_xpt (s : State) (i : Nat) (f : Policer → Policer) : (s.updPolicer i f).xpt = s.xpt := rfl
@[simp] theorem State.updPolicer_lookup (s : State) (i : Nat) (f : Policer → Policer) : (s.updPolicer i f).lookup = s.lookup := rfl
@[simp] theorem State.updPolicer_parse (s : State) (i : Nat) (f : Policer → Policer) : (s.updPolicer i f).parse = s.parse := rfl
@[simp] theorem State.updPolicer_byway (s : State) (i : Nat) (f : Policer → Policer) : (s.updPolicer i f).byway = s.byway := rfl
@[simp] theorem State.updPolicer_caravan (s : State) (i : Nat) (f : Policer → Policer) : (s.updPolicer i f).caravan = s.caravan := rfl
@[simp] theorem State.updPolicer_switch (s : State) (i : Nat) (f : Policer → Policer) : (s.updPolicer i f).switch = s.switch := rfl
@[simp] theorem State.updPolicer_fabric (s : State) (i : Nat) (f : Policer → Policer) : (s.updPolicer i f).fabric = s.fabric := rfl
@[simp] theorem State.updPolicer_inn (s : State) (i : Nat) (f : Policer → Policer) : (s.updPolicer i f).inn = s.inn := rfl
@[simp] theorem State.updPolicer_mem (s : State) (i : Nat) (f : Policer → Policer) : (s.updPolicer i f).mem = s.mem := rfl
@[simp] theorem State.updPolicer_twin (s : State) (i : Nat) (f : Policer → Policer) : (s.updPolicer i f).twin = s.twin := rfl
@[simp] theorem State.updPolicer_tele (s : State) (i : Nat) (f : Policer → Policer) : (s.updPolicer i f).tele = s.tele := rfl
@[simp] theorem State.policer_updPolicer (s : State) (i : Nat) (f : Policer → Policer) : (s.updPolicer i f).policer i = f (s.policer i) := NMap.get_upd_self ..
theorem State.policer_updPolicer_ne (s : State) {i z : Nat} (f : Policer → Policer) (h : z ≠ i) : (s.updPolicer i f).policer z = s.policer z :=
  NMap.get_upd_ne _ _ _ _ h

@[simp] theorem State.updPool_pending (s : State) (p : Nat) (f : Pool → Pool) : (s.updPool p f).pending = s.pending := rfl
@[simp] theorem State.updPool_freeCtr (s : State) (p : Nat) (f : Pool → Pool) : (s.updPool p f).freeCtr = s.freeCtr := rfl
@[simp] theorem State.updPool_latch (s : State) (p : Nat) (f : Pool → Pool) : (s.updPool p f).latch = s.latch := rfl
@[simp] theorem State.updPool_regs (s : State) (p : Nat) (f : Pool → Pool) : (s.updPool p f).regs = s.regs := rfl
@[simp] theorem State.updPool_time (s : State) (p : Nat) (f : Pool → Pool) : (s.updPool p f).time = s.time := rfl
@[simp] theorem State.updPool_host (s : State) (p : Nat) (f : Pool → Pool) : (s.updPool p f).host = s.host := rfl
@[simp] theorem State.updPool_sec (s : State) (p : Nat) (f : Pool → Pool) : (s.updPool p f).sec = s.sec := rfl
@[simp] theorem State.updPool_modes (s : State) (p : Nat) (f : Pool → Pool) : (s.updPool p f).modes = s.modes := rfl
@[simp] theorem State.updPool_chip (s : State) (p : Nat) (f : Pool → Pool) : (s.updPool p f).chip = s.chip := rfl
@[simp] theorem State.updPool_lanes (s : State) (p : Nat) (f : Pool → Pool) : (s.updPool p f).lanes = s.lanes := rfl
@[simp] theorem State.updPool_ports (s : State) (p : Nat) (f : Pool → Pool) : (s.updPool p f).ports = s.ports := rfl
@[simp] theorem State.updPool_macs (s : State) (p : Nat) (f : Pool → Pool) : (s.updPool p f).macs = s.macs := rfl
@[simp] theorem State.updPool_xpt (s : State) (p : Nat) (f : Pool → Pool) : (s.updPool p f).xpt = s.xpt := rfl
@[simp] theorem State.updPool_lookup (s : State) (p : Nat) (f : Pool → Pool) : (s.updPool p f).lookup = s.lookup := rfl
@[simp] theorem State.updPool_parse (s : State) (p : Nat) (f : Pool → Pool) : (s.updPool p f).parse = s.parse := rfl
@[simp] theorem State.updPool_byway (s : State) (p : Nat) (f : Pool → Pool) : (s.updPool p f).byway = s.byway := rfl
@[simp] theorem State.updPool_caravan (s : State) (p : Nat) (f : Pool → Pool) : (s.updPool p f).caravan = s.caravan := rfl
@[simp] theorem State.updPool_switch (s : State) (p : Nat) (f : Pool → Pool) : (s.updPool p f).switch = s.switch := rfl
@[simp] theorem State.updPool_fabric (s : State) (p : Nat) (f : Pool → Pool) : (s.updPool p f).fabric = s.fabric := rfl
@[simp] theorem State.updPool_tm (s : State) (p : Nat) (f : Pool → Pool) : (s.updPool p f).tm = s.tm := rfl
@[simp] theorem State.updPool_mem (s : State) (p : Nat) (f : Pool → Pool) : (s.updPool p f).mem = s.mem := rfl
@[simp] theorem State.updPool_twin (s : State) (p : Nat) (f : Pool → Pool) : (s.updPool p f).twin = s.twin := rfl
@[simp] theorem State.updPool_tele (s : State) (p : Nat) (f : Pool → Pool) : (s.updPool p f).tele = s.tele := rfl
@[simp] theorem State.pool_updPool (s : State) (p : Nat) (f : Pool → Pool) : (s.updPool p f).pool p = f (s.pool p) := NMap.get_upd_self ..
theorem State.pool_updPool_ne (s : State) {p z : Nat} (f : Pool → Pool) (h : z ≠ p) : (s.updPool p f).pool z = s.pool z :=
  NMap.get_upd_ne _ _ _ _ h

@[simp] theorem State.updXm_pending (s : State) (c : Nat) (f : Xm → Xm) : (s.updXm c f).pending = s.pending := rfl
@[simp] theorem State.updXm_freeCtr (s : State) (c : Nat) (f : Xm → Xm) : (s.updXm c f).freeCtr = s.freeCtr := rfl
@[simp] theorem State.updXm_latch (s : State) (c : Nat) (f : Xm → Xm) : (s.updXm c f).latch = s.latch := rfl
@[simp] theorem State.updXm_regs (s : State) (c : Nat) (f : Xm → Xm) : (s.updXm c f).regs = s.regs := rfl
@[simp] theorem State.updXm_time (s : State) (c : Nat) (f : Xm → Xm) : (s.updXm c f).time = s.time := rfl
@[simp] theorem State.updXm_host (s : State) (c : Nat) (f : Xm → Xm) : (s.updXm c f).host = s.host := rfl
@[simp] theorem State.updXm_sec (s : State) (c : Nat) (f : Xm → Xm) : (s.updXm c f).sec = s.sec := rfl
@[simp] theorem State.updXm_modes (s : State) (c : Nat) (f : Xm → Xm) : (s.updXm c f).modes = s.modes := rfl
@[simp] theorem State.updXm_chip (s : State) (c : Nat) (f : Xm → Xm) : (s.updXm c f).chip = s.chip := rfl
@[simp] theorem State.updXm_lanes (s : State) (c : Nat) (f : Xm → Xm) : (s.updXm c f).lanes = s.lanes := rfl
@[simp] theorem State.updXm_ports (s : State) (c : Nat) (f : Xm → Xm) : (s.updXm c f).ports = s.ports := rfl
@[simp] theorem State.updXm_macs (s : State) (c : Nat) (f : Xm → Xm) : (s.updXm c f).macs = s.macs := rfl
@[simp] theorem State.updXm_xpt (s : State) (c : Nat) (f : Xm → Xm) : (s.updXm c f).xpt = s.xpt := rfl
@[simp] theorem State.updXm_lookup (s : State) (c : Nat) (f : Xm → Xm) : (s.updXm c f).lookup = s.lookup := rfl
@[simp] theorem State.updXm_parse (s : State) (c : Nat) (f : Xm → Xm) : (s.updXm c f).parse = s.parse := rfl
@[simp] theorem State.updXm_byway (s : State) (c : Nat) (f : Xm → Xm) : (s.updXm c f).byway = s.byway := rfl
@[simp] theorem State.updXm_caravan (s : State) (c : Nat) (f : Xm → Xm) : (s.updXm c f).caravan = s.caravan := rfl
@[simp] theorem State.updXm_switch (s : State) (c : Nat) (f : Xm → Xm) : (s.updXm c f).switch = s.switch := rfl
@[simp] theorem State.updXm_fabric (s : State) (c : Nat) (f : Xm → Xm) : (s.updXm c f).fabric = s.fabric := rfl
@[simp] theorem State.updXm_inn (s : State) (c : Nat) (f : Xm → Xm) : (s.updXm c f).inn = s.inn := rfl
@[simp] theorem State.updXm_tm (s : State) (c : Nat) (f : Xm → Xm) : (s.updXm c f).tm = s.tm := rfl
@[simp] theorem State.updXm_twin (s : State) (c : Nat) (f : Xm → Xm) : (s.updXm c f).twin = s.twin := rfl
@[simp] theorem State.updXm_tele (s : State) (c : Nat) (f : Xm → Xm) : (s.updXm c f).tele = s.tele := rfl
@[simp] theorem State.xm_updXm (s : State) (c : Nat) (f : Xm → Xm) : (s.updXm c f).xm c = f (s.xm c) := NMap.get_upd_self ..
theorem State.xm_updXm_ne (s : State) {c z : Nat} (f : Xm → Xm) (h : z ≠ c) : (s.updXm c f).xm z = s.xm z :=
  NMap.get_upd_ne _ _ _ _ h

@[simp] theorem State.updStack_pending (s : State) (k : Nat) (f : Hbm → Hbm) : (s.updStack k f).pending = s.pending := rfl
@[simp] theorem State.updStack_freeCtr (s : State) (k : Nat) (f : Hbm → Hbm) : (s.updStack k f).freeCtr = s.freeCtr := rfl
@[simp] theorem State.updStack_latch (s : State) (k : Nat) (f : Hbm → Hbm) : (s.updStack k f).latch = s.latch := rfl
@[simp] theorem State.updStack_regs (s : State) (k : Nat) (f : Hbm → Hbm) : (s.updStack k f).regs = s.regs := rfl
@[simp] theorem State.updStack_time (s : State) (k : Nat) (f : Hbm → Hbm) : (s.updStack k f).time = s.time := rfl
@[simp] theorem State.updStack_host (s : State) (k : Nat) (f : Hbm → Hbm) : (s.updStack k f).host = s.host := rfl
@[simp] theorem State.updStack_sec (s : State) (k : Nat) (f : Hbm → Hbm) : (s.updStack k f).sec = s.sec := rfl
@[simp] theorem State.updStack_modes (s : State) (k : Nat) (f : Hbm → Hbm) : (s.updStack k f).modes = s.modes := rfl
@[simp] theorem State.updStack_chip (s : State) (k : Nat) (f : Hbm → Hbm) : (s.updStack k f).chip = s.chip := rfl
@[simp] theorem State.updStack_lanes (s : State) (k : Nat) (f : Hbm → Hbm) : (s.updStack k f).lanes = s.lanes := rfl
@[simp] theorem State.updStack_ports (s : State) (k : Nat) (f : Hbm → Hbm) : (s.updStack k f).ports = s.ports := rfl
@[simp] theorem State.updStack_macs (s : State) (k : Nat) (f : Hbm → Hbm) : (s.updStack k f).macs = s.macs := rfl
@[simp] theorem State.updStack_xpt (s : State) (k : Nat) (f : Hbm → Hbm) : (s.updStack k f).xpt = s.xpt := rfl
@[simp] theorem State.updStack_lookup (s : State) (k : Nat) (f : Hbm → Hbm) : (s.updStack k f).lookup = s.lookup := rfl
@[simp] theorem State.updStack_parse (s : State) (k : Nat) (f : Hbm → Hbm) : (s.updStack k f).parse = s.parse := rfl
@[simp] theorem State.updStack_byway (s : State) (k : Nat) (f : Hbm → Hbm) : (s.updStack k f).byway = s.byway := rfl
@[simp] theorem State.updStack_caravan (s : State) (k : Nat) (f : Hbm → Hbm) : (s.updStack k f).caravan = s.caravan := rfl
@[simp] theorem State.updStack_switch (s : State) (k : Nat) (f : Hbm → Hbm) : (s.updStack k f).switch = s.switch := rfl
@[simp] theorem State.updStack_fabric (s : State) (k : Nat) (f : Hbm → Hbm) : (s.updStack k f).fabric = s.fabric := rfl
@[simp] theorem State.updStack_inn (s : State) (k : Nat) (f : Hbm → Hbm) : (s.updStack k f).inn = s.inn := rfl
@[simp] theorem State.updStack_tm (s : State) (k : Nat) (f : Hbm → Hbm) : (s.updStack k f).tm = s.tm := rfl
@[simp] theorem State.updStack_twin (s : State) (k : Nat) (f : Hbm → Hbm) : (s.updStack k f).twin = s.twin := rfl
@[simp] theorem State.updStack_tele (s : State) (k : Nat) (f : Hbm → Hbm) : (s.updStack k f).tele = s.tele := rfl
@[simp] theorem State.stack_updStack (s : State) (k : Nat) (f : Hbm → Hbm) : (s.updStack k f).stack k = f (s.stack k) := NMap.get_upd_self ..
theorem State.stack_updStack_ne (s : State) {k z : Nat} (f : Hbm → Hbm) (h : z ≠ k) : (s.updStack k f).stack z = s.stack z :=
  NMap.get_upd_ne _ _ _ _ h

@[simp] theorem State.updUnit_pending (s : State) (u : Nat) (f : Refresh → Refresh) : (s.updUnit u f).pending = s.pending := rfl
@[simp] theorem State.updUnit_freeCtr (s : State) (u : Nat) (f : Refresh → Refresh) : (s.updUnit u f).freeCtr = s.freeCtr := rfl
@[simp] theorem State.updUnit_latch (s : State) (u : Nat) (f : Refresh → Refresh) : (s.updUnit u f).latch = s.latch := rfl
@[simp] theorem State.updUnit_regs (s : State) (u : Nat) (f : Refresh → Refresh) : (s.updUnit u f).regs = s.regs := rfl
@[simp] theorem State.updUnit_time (s : State) (u : Nat) (f : Refresh → Refresh) : (s.updUnit u f).time = s.time := rfl
@[simp] theorem State.updUnit_host (s : State) (u : Nat) (f : Refresh → Refresh) : (s.updUnit u f).host = s.host := rfl
@[simp] theorem State.updUnit_sec (s : State) (u : Nat) (f : Refresh → Refresh) : (s.updUnit u f).sec = s.sec := rfl
@[simp] theorem State.updUnit_modes (s : State) (u : Nat) (f : Refresh → Refresh) : (s.updUnit u f).modes = s.modes := rfl
@[simp] theorem State.updUnit_chip (s : State) (u : Nat) (f : Refresh → Refresh) : (s.updUnit u f).chip = s.chip := rfl
@[simp] theorem State.updUnit_lanes (s : State) (u : Nat) (f : Refresh → Refresh) : (s.updUnit u f).lanes = s.lanes := rfl
@[simp] theorem State.updUnit_ports (s : State) (u : Nat) (f : Refresh → Refresh) : (s.updUnit u f).ports = s.ports := rfl
@[simp] theorem State.updUnit_macs (s : State) (u : Nat) (f : Refresh → Refresh) : (s.updUnit u f).macs = s.macs := rfl
@[simp] theorem State.updUnit_xpt (s : State) (u : Nat) (f : Refresh → Refresh) : (s.updUnit u f).xpt = s.xpt := rfl
@[simp] theorem State.updUnit_lookup (s : State) (u : Nat) (f : Refresh → Refresh) : (s.updUnit u f).lookup = s.lookup := rfl
@[simp] theorem State.updUnit_parse (s : State) (u : Nat) (f : Refresh → Refresh) : (s.updUnit u f).parse = s.parse := rfl
@[simp] theorem State.updUnit_byway (s : State) (u : Nat) (f : Refresh → Refresh) : (s.updUnit u f).byway = s.byway := rfl
@[simp] theorem State.updUnit_caravan (s : State) (u : Nat) (f : Refresh → Refresh) : (s.updUnit u f).caravan = s.caravan := rfl
@[simp] theorem State.updUnit_switch (s : State) (u : Nat) (f : Refresh → Refresh) : (s.updUnit u f).switch = s.switch := rfl
@[simp] theorem State.updUnit_fabric (s : State) (u : Nat) (f : Refresh → Refresh) : (s.updUnit u f).fabric = s.fabric := rfl
@[simp] theorem State.updUnit_inn (s : State) (u : Nat) (f : Refresh → Refresh) : (s.updUnit u f).inn = s.inn := rfl
@[simp] theorem State.updUnit_tm (s : State) (u : Nat) (f : Refresh → Refresh) : (s.updUnit u f).tm = s.tm := rfl
@[simp] theorem State.updUnit_twin (s : State) (u : Nat) (f : Refresh → Refresh) : (s.updUnit u f).twin = s.twin := rfl
@[simp] theorem State.updUnit_tele (s : State) (u : Nat) (f : Refresh → Refresh) : (s.updUnit u f).tele = s.tele := rfl
@[simp] theorem State.unit_updUnit (s : State) (u : Nat) (f : Refresh → Refresh) : (s.updUnit u f).unit u = f (s.unit u) := NMap.get_upd_self ..
theorem State.unit_updUnit_ne (s : State) {u z : Nat} (f : Refresh → Refresh) (h : z ≠ u) : (s.updUnit u f).unit z = s.unit z :=
  NMap.get_upd_ne _ _ _ _ h

@[simp] theorem State.updSlot_pending (s : State) (k : Nat) (f : Slot → Slot) : (s.updSlot k f).pending = s.pending := rfl
@[simp] theorem State.updSlot_freeCtr (s : State) (k : Nat) (f : Slot → Slot) : (s.updSlot k f).freeCtr = s.freeCtr := rfl
@[simp] theorem State.updSlot_latch (s : State) (k : Nat) (f : Slot → Slot) : (s.updSlot k f).latch = s.latch := rfl
@[simp] theorem State.updSlot_regs (s : State) (k : Nat) (f : Slot → Slot) : (s.updSlot k f).regs = s.regs := rfl
@[simp] theorem State.updSlot_time (s : State) (k : Nat) (f : Slot → Slot) : (s.updSlot k f).time = s.time := rfl
@[simp] theorem State.updSlot_host (s : State) (k : Nat) (f : Slot → Slot) : (s.updSlot k f).host = s.host := rfl
@[simp] theorem State.updSlot_modes (s : State) (k : Nat) (f : Slot → Slot) : (s.updSlot k f).modes = s.modes := rfl
@[simp] theorem State.updSlot_chip (s : State) (k : Nat) (f : Slot → Slot) : (s.updSlot k f).chip = s.chip := rfl
@[simp] theorem State.updSlot_lanes (s : State) (k : Nat) (f : Slot → Slot) : (s.updSlot k f).lanes = s.lanes := rfl
@[simp] theorem State.updSlot_ports (s : State) (k : Nat) (f : Slot → Slot) : (s.updSlot k f).ports = s.ports := rfl
@[simp] theorem State.updSlot_macs (s : State) (k : Nat) (f : Slot → Slot) : (s.updSlot k f).macs = s.macs := rfl
@[simp] theorem State.updSlot_xpt (s : State) (k : Nat) (f : Slot → Slot) : (s.updSlot k f).xpt = s.xpt := rfl
@[simp] theorem State.updSlot_lookup (s : State) (k : Nat) (f : Slot → Slot) : (s.updSlot k f).lookup = s.lookup := rfl
@[simp] theorem State.updSlot_parse (s : State) (k : Nat) (f : Slot → Slot) : (s.updSlot k f).parse = s.parse := rfl
@[simp] theorem State.updSlot_byway (s : State) (k : Nat) (f : Slot → Slot) : (s.updSlot k f).byway = s.byway := rfl
@[simp] theorem State.updSlot_caravan (s : State) (k : Nat) (f : Slot → Slot) : (s.updSlot k f).caravan = s.caravan := rfl
@[simp] theorem State.updSlot_switch (s : State) (k : Nat) (f : Slot → Slot) : (s.updSlot k f).switch = s.switch := rfl
@[simp] theorem State.updSlot_fabric (s : State) (k : Nat) (f : Slot → Slot) : (s.updSlot k f).fabric = s.fabric := rfl
@[simp] theorem State.updSlot_inn (s : State) (k : Nat) (f : Slot → Slot) : (s.updSlot k f).inn = s.inn := rfl
@[simp] theorem State.updSlot_tm (s : State) (k : Nat) (f : Slot → Slot) : (s.updSlot k f).tm = s.tm := rfl
@[simp] theorem State.updSlot_mem (s : State) (k : Nat) (f : Slot → Slot) : (s.updSlot k f).mem = s.mem := rfl
@[simp] theorem State.updSlot_twin (s : State) (k : Nat) (f : Slot → Slot) : (s.updSlot k f).twin = s.twin := rfl
@[simp] theorem State.updSlot_tele (s : State) (k : Nat) (f : Slot → Slot) : (s.updSlot k f).tele = s.tele := rfl
@[simp] theorem State.slot_updSlot (s : State) (k : Nat) (f : Slot → Slot) : (s.updSlot k f).slot k = f (s.slot k) := NMap.get_upd_self ..
theorem State.slot_updSlot_ne (s : State) {k z : Nat} (f : Slot → Slot) (h : z ≠ k) : (s.updSlot k f).slot z = s.slot z :=
  NMap.get_upd_ne _ _ _ _ h

@[simp] theorem State.updStaging_pending (s : State) (k : Nat) (f : List Pkt → List Pkt) : (s.updStaging k f).pending = s.pending := rfl
@[simp] theorem State.updStaging_freeCtr (s : State) (k : Nat) (f : List Pkt → List Pkt) : (s.updStaging k f).freeCtr = s.freeCtr := rfl
@[simp] theorem State.updStaging_latch (s : State) (k : Nat) (f : List Pkt → List Pkt) : (s.updStaging k f).latch = s.latch := rfl
@[simp] theorem State.updStaging_regs (s : State) (k : Nat) (f : List Pkt → List Pkt) : (s.updStaging k f).regs = s.regs := rfl
@[simp] theorem State.updStaging_time (s : State) (k : Nat) (f : List Pkt → List Pkt) : (s.updStaging k f).time = s.time := rfl
@[simp] theorem State.updStaging_host (s : State) (k : Nat) (f : List Pkt → List Pkt) : (s.updStaging k f).host = s.host := rfl
@[simp] theorem State.updStaging_sec (s : State) (k : Nat) (f : List Pkt → List Pkt) : (s.updStaging k f).sec = s.sec := rfl
@[simp] theorem State.updStaging_modes (s : State) (k : Nat) (f : List Pkt → List Pkt) : (s.updStaging k f).modes = s.modes := rfl
@[simp] theorem State.updStaging_chip (s : State) (k : Nat) (f : List Pkt → List Pkt) : (s.updStaging k f).chip = s.chip := rfl
@[simp] theorem State.updStaging_lanes (s : State) (k : Nat) (f : List Pkt → List Pkt) : (s.updStaging k f).lanes = s.lanes := rfl
@[simp] theorem State.updStaging_ports (s : State) (k : Nat) (f : List Pkt → List Pkt) : (s.updStaging k f).ports = s.ports := rfl
@[simp] theorem State.updStaging_macs (s : State) (k : Nat) (f : List Pkt → List Pkt) : (s.updStaging k f).macs = s.macs := rfl
@[simp] theorem State.updStaging_xpt (s : State) (k : Nat) (f : List Pkt → List Pkt) : (s.updStaging k f).xpt = s.xpt := rfl
@[simp] theorem State.updStaging_lookup (s : State) (k : Nat) (f : List Pkt → List Pkt) : (s.updStaging k f).lookup = s.lookup := rfl
@[simp] theorem State.updStaging_parse (s : State) (k : Nat) (f : List Pkt → List Pkt) : (s.updStaging k f).parse = s.parse := rfl
@[simp] theorem State.updStaging_byway (s : State) (k : Nat) (f : List Pkt → List Pkt) : (s.updStaging k f).byway = s.byway := rfl
@[simp] theorem State.updStaging_caravan (s : State) (k : Nat) (f : List Pkt → List Pkt) : (s.updStaging k f).caravan = s.caravan := rfl
@[simp] theorem State.updStaging_fabric (s : State) (k : Nat) (f : List Pkt → List Pkt) : (s.updStaging k f).fabric = s.fabric := rfl
@[simp] theorem State.updStaging_inn (s : State) (k : Nat) (f : List Pkt → List Pkt) : (s.updStaging k f).inn = s.inn := rfl
@[simp] theorem State.updStaging_tm (s : State) (k : Nat) (f : List Pkt → List Pkt) : (s.updStaging k f).tm = s.tm := rfl
@[simp] theorem State.updStaging_mem (s : State) (k : Nat) (f : List Pkt → List Pkt) : (s.updStaging k f).mem = s.mem := rfl
@[simp] theorem State.updStaging_twin (s : State) (k : Nat) (f : List Pkt → List Pkt) : (s.updStaging k f).twin = s.twin := rfl
@[simp] theorem State.updStaging_tele (s : State) (k : Nat) (f : List Pkt → List Pkt) : (s.updStaging k f).tele = s.tele := rfl

@[simp] theorem State.updInput_pending (s : State) (k : Nat) (f : List Pkt → List Pkt) : (s.updInput k f).pending = s.pending := rfl
@[simp] theorem State.updInput_freeCtr (s : State) (k : Nat) (f : List Pkt → List Pkt) : (s.updInput k f).freeCtr = s.freeCtr := rfl
@[simp] theorem State.updInput_latch (s : State) (k : Nat) (f : List Pkt → List Pkt) : (s.updInput k f).latch = s.latch := rfl
@[simp] theorem State.updInput_regs (s : State) (k : Nat) (f : List Pkt → List Pkt) : (s.updInput k f).regs = s.regs := rfl
@[simp] theorem State.updInput_time (s : State) (k : Nat) (f : List Pkt → List Pkt) : (s.updInput k f).time = s.time := rfl
@[simp] theorem State.updInput_host (s : State) (k : Nat) (f : List Pkt → List Pkt) : (s.updInput k f).host = s.host := rfl
@[simp] theorem State.updInput_sec (s : State) (k : Nat) (f : List Pkt → List Pkt) : (s.updInput k f).sec = s.sec := rfl
@[simp] theorem State.updInput_modes (s : State) (k : Nat) (f : List Pkt → List Pkt) : (s.updInput k f).modes = s.modes := rfl
@[simp] theorem State.updInput_chip (s : State) (k : Nat) (f : List Pkt → List Pkt) : (s.updInput k f).chip = s.chip := rfl
@[simp] theorem State.updInput_lanes (s : State) (k : Nat) (f : List Pkt → List Pkt) : (s.updInput k f).lanes = s.lanes := rfl
@[simp] theorem State.updInput_ports (s : State) (k : Nat) (f : List Pkt → List Pkt) : (s.updInput k f).ports = s.ports := rfl
@[simp] theorem State.updInput_macs (s : State) (k : Nat) (f : List Pkt → List Pkt) : (s.updInput k f).macs = s.macs := rfl
@[simp] theorem State.updInput_xpt (s : State) (k : Nat) (f : List Pkt → List Pkt) : (s.updInput k f).xpt = s.xpt := rfl
@[simp] theorem State.updInput_lookup (s : State) (k : Nat) (f : List Pkt → List Pkt) : (s.updInput k f).lookup = s.lookup := rfl
@[simp] theorem State.updInput_parse (s : State) (k : Nat) (f : List Pkt → List Pkt) : (s.updInput k f).parse = s.parse := rfl
@[simp] theorem State.updInput_byway (s : State) (k : Nat) (f : List Pkt → List Pkt) : (s.updInput k f).byway = s.byway := rfl
@[simp] theorem State.updInput_caravan (s : State) (k : Nat) (f : List Pkt → List Pkt) : (s.updInput k f).caravan = s.caravan := rfl
@[simp] theorem State.updInput_fabric (s : State) (k : Nat) (f : List Pkt → List Pkt) : (s.updInput k f).fabric = s.fabric := rfl
@[simp] theorem State.updInput_inn (s : State) (k : Nat) (f : List Pkt → List Pkt) : (s.updInput k f).inn = s.inn := rfl
@[simp] theorem State.updInput_tm (s : State) (k : Nat) (f : List Pkt → List Pkt) : (s.updInput k f).tm = s.tm := rfl
@[simp] theorem State.updInput_mem (s : State) (k : Nat) (f : List Pkt → List Pkt) : (s.updInput k f).mem = s.mem := rfl
@[simp] theorem State.updInput_twin (s : State) (k : Nat) (f : List Pkt → List Pkt) : (s.updInput k f).twin = s.twin := rfl
@[simp] theorem State.updInput_tele (s : State) (k : Nat) (f : List Pkt → List Pkt) : (s.updInput k f).tele = s.tele := rfl
@[simp] theorem State.inputOf_updInput (s : State) (k : Nat) (f : List Pkt → List Pkt) : (s.updInput k f).inputOf k = f (s.inputOf k) := NMap.get_upd_self ..
theorem State.inputOf_updInput_ne (s : State) {k z : Nat} (f : List Pkt → List Pkt) (h : z ≠ k) : (s.updInput k f).inputOf z = s.inputOf z :=
  NMap.get_upd_ne _ _ _ _ h

@[simp] theorem State.updOutput_pending (s : State) (k : Nat) (f : List Pkt → List Pkt) : (s.updOutput k f).pending = s.pending := rfl
@[simp] theorem State.updOutput_freeCtr (s : State) (k : Nat) (f : List Pkt → List Pkt) : (s.updOutput k f).freeCtr = s.freeCtr := rfl
@[simp] theorem State.updOutput_latch (s : State) (k : Nat) (f : List Pkt → List Pkt) : (s.updOutput k f).latch = s.latch := rfl
@[simp] theorem State.updOutput_regs (s : State) (k : Nat) (f : List Pkt → List Pkt) : (s.updOutput k f).regs = s.regs := rfl
@[simp] theorem State.updOutput_time (s : State) (k : Nat) (f : List Pkt → List Pkt) : (s.updOutput k f).time = s.time := rfl
@[simp] theorem State.updOutput_host (s : State) (k : Nat) (f : List Pkt → List Pkt) : (s.updOutput k f).host = s.host := rfl
@[simp] theorem State.updOutput_sec (s : State) (k : Nat) (f : List Pkt → List Pkt) : (s.updOutput k f).sec = s.sec := rfl
@[simp] theorem State.updOutput_modes (s : State) (k : Nat) (f : List Pkt → List Pkt) : (s.updOutput k f).modes = s.modes := rfl
@[simp] theorem State.updOutput_chip (s : State) (k : Nat) (f : List Pkt → List Pkt) : (s.updOutput k f).chip = s.chip := rfl
@[simp] theorem State.updOutput_lanes (s : State) (k : Nat) (f : List Pkt → List Pkt) : (s.updOutput k f).lanes = s.lanes := rfl
@[simp] theorem State.updOutput_ports (s : State) (k : Nat) (f : List Pkt → List Pkt) : (s.updOutput k f).ports = s.ports := rfl
@[simp] theorem State.updOutput_macs (s : State) (k : Nat) (f : List Pkt → List Pkt) : (s.updOutput k f).macs = s.macs := rfl
@[simp] theorem State.updOutput_xpt (s : State) (k : Nat) (f : List Pkt → List Pkt) : (s.updOutput k f).xpt = s.xpt := rfl
@[simp] theorem State.updOutput_lookup (s : State) (k : Nat) (f : List Pkt → List Pkt) : (s.updOutput k f).lookup = s.lookup := rfl
@[simp] theorem State.updOutput_parse (s : State) (k : Nat) (f : List Pkt → List Pkt) : (s.updOutput k f).parse = s.parse := rfl
@[simp] theorem State.updOutput_byway (s : State) (k : Nat) (f : List Pkt → List Pkt) : (s.updOutput k f).byway = s.byway := rfl
@[simp] theorem State.updOutput_caravan (s : State) (k : Nat) (f : List Pkt → List Pkt) : (s.updOutput k f).caravan = s.caravan := rfl
@[simp] theorem State.updOutput_fabric (s : State) (k : Nat) (f : List Pkt → List Pkt) : (s.updOutput k f).fabric = s.fabric := rfl
@[simp] theorem State.updOutput_inn (s : State) (k : Nat) (f : List Pkt → List Pkt) : (s.updOutput k f).inn = s.inn := rfl
@[simp] theorem State.updOutput_tm (s : State) (k : Nat) (f : List Pkt → List Pkt) : (s.updOutput k f).tm = s.tm := rfl
@[simp] theorem State.updOutput_mem (s : State) (k : Nat) (f : List Pkt → List Pkt) : (s.updOutput k f).mem = s.mem := rfl
@[simp] theorem State.updOutput_twin (s : State) (k : Nat) (f : List Pkt → List Pkt) : (s.updOutput k f).twin = s.twin := rfl
@[simp] theorem State.updOutput_tele (s : State) (k : Nat) (f : List Pkt → List Pkt) : (s.updOutput k f).tele = s.tele := rfl
@[simp] theorem State.outputOf_updOutput (s : State) (k : Nat) (f : List Pkt → List Pkt) : (s.updOutput k f).outputOf k = f (s.outputOf k) := NMap.get_upd_self ..
theorem State.outputOf_updOutput_ne (s : State) {k z : Nat} (f : List Pkt → List Pkt) (h : z ≠ k) : (s.updOutput k f).outputOf z = s.outputOf z :=
  NMap.get_upd_ne _ _ _ _ h

@[simp] theorem State.setCtr_pending (s : State) (a b c : Nat) (x : Ctr) : (s.setCtr a b c x).pending = s.pending := rfl
@[simp] theorem State.setCtr_freeCtr (s : State) (a b c : Nat) (x : Ctr) : (s.setCtr a b c x).freeCtr = s.freeCtr := rfl
@[simp] theorem State.setCtr_latch (s : State) (a b c : Nat) (x : Ctr) : (s.setCtr a b c x).latch = s.latch := rfl
@[simp] theorem State.setCtr_regs (s : State) (a b c : Nat) (x : Ctr) : (s.setCtr a b c x).regs = s.regs := rfl
@[simp] theorem State.setCtr_time (s : State) (a b c : Nat) (x : Ctr) : (s.setCtr a b c x).time = s.time := rfl
@[simp] theorem State.setCtr_host (s : State) (a b c : Nat) (x : Ctr) : (s.setCtr a b c x).host = s.host := rfl
@[simp] theorem State.setCtr_sec (s : State) (a b c : Nat) (x : Ctr) : (s.setCtr a b c x).sec = s.sec := rfl
@[simp] theorem State.setCtr_modes (s : State) (a b c : Nat) (x : Ctr) : (s.setCtr a b c x).modes = s.modes := rfl
@[simp] theorem State.setCtr_chip (s : State) (a b c : Nat) (x : Ctr) : (s.setCtr a b c x).chip = s.chip := rfl
@[simp] theorem State.setCtr_lanes (s : State) (a b c : Nat) (x : Ctr) : (s.setCtr a b c x).lanes = s.lanes := rfl
@[simp] theorem State.setCtr_ports (s : State) (a b c : Nat) (x : Ctr) : (s.setCtr a b c x).ports = s.ports := rfl
@[simp] theorem State.setCtr_macs (s : State) (a b c : Nat) (x : Ctr) : (s.setCtr a b c x).macs = s.macs := rfl
@[simp] theorem State.setCtr_xpt (s : State) (a b c : Nat) (x : Ctr) : (s.setCtr a b c x).xpt = s.xpt := rfl
@[simp] theorem State.setCtr_lookup (s : State) (a b c : Nat) (x : Ctr) : (s.setCtr a b c x).lookup = s.lookup := rfl
@[simp] theorem State.setCtr_parse (s : State) (a b c : Nat) (x : Ctr) : (s.setCtr a b c x).parse = s.parse := rfl
@[simp] theorem State.setCtr_byway (s : State) (a b c : Nat) (x : Ctr) : (s.setCtr a b c x).byway = s.byway := rfl
@[simp] theorem State.setCtr_caravan (s : State) (a b c : Nat) (x : Ctr) : (s.setCtr a b c x).caravan = s.caravan := rfl
@[simp] theorem State.setCtr_switch (s : State) (a b c : Nat) (x : Ctr) : (s.setCtr a b c x).switch = s.switch := rfl
@[simp] theorem State.setCtr_fabric (s : State) (a b c : Nat) (x : Ctr) : (s.setCtr a b c x).fabric = s.fabric := rfl
@[simp] theorem State.setCtr_inn (s : State) (a b c : Nat) (x : Ctr) : (s.setCtr a b c x).inn = s.inn := rfl
@[simp] theorem State.setCtr_tm (s : State) (a b c : Nat) (x : Ctr) : (s.setCtr a b c x).tm = s.tm := rfl
@[simp] theorem State.setCtr_mem (s : State) (a b c : Nat) (x : Ctr) : (s.setCtr a b c x).mem = s.mem := rfl
@[simp] theorem State.setCtr_twin (s : State) (a b c : Nat) (x : Ctr) : (s.setCtr a b c x).twin = s.twin := rfl

@[simp] theorem State.lastStatus_pending (s : State) (n : Nat) : (s.lastStatus n).pending = s.pending := rfl
@[simp] theorem State.lastStatus_freeCtr (s : State) (n : Nat) : (s.lastStatus n).freeCtr = s.freeCtr := rfl
@[simp] theorem State.lastStatus_latch (s : State) (n : Nat) : (s.lastStatus n).latch = s.latch := rfl
@[simp] theorem State.lastStatus_regs (s : State) (n : Nat) : (s.lastStatus n).regs = s.regs := rfl
@[simp] theorem State.lastStatus_time (s : State) (n : Nat) : (s.lastStatus n).time = s.time := rfl
@[simp] theorem State.lastStatus_host (s : State) (n : Nat) : (s.lastStatus n).host = s.host := rfl
@[simp] theorem State.lastStatus_sec (s : State) (n : Nat) : (s.lastStatus n).sec = s.sec := rfl
@[simp] theorem State.lastStatus_chip (s : State) (n : Nat) : (s.lastStatus n).chip = s.chip := rfl
@[simp] theorem State.lastStatus_lanes (s : State) (n : Nat) : (s.lastStatus n).lanes = s.lanes := rfl
@[simp] theorem State.lastStatus_ports (s : State) (n : Nat) : (s.lastStatus n).ports = s.ports := rfl
@[simp] theorem State.lastStatus_macs (s : State) (n : Nat) : (s.lastStatus n).macs = s.macs := rfl
@[simp] theorem State.lastStatus_xpt (s : State) (n : Nat) : (s.lastStatus n).xpt = s.xpt := rfl
@[simp] theorem State.lastStatus_lookup (s : State) (n : Nat) : (s.lastStatus n).lookup = s.lookup := rfl
@[simp] theorem State.lastStatus_parse (s : State) (n : Nat) : (s.lastStatus n).parse = s.parse := rfl
@[simp] theorem State.lastStatus_byway (s : State) (n : Nat) : (s.lastStatus n).byway = s.byway := rfl
@[simp] theorem State.lastStatus_caravan (s : State) (n : Nat) : (s.lastStatus n).caravan = s.caravan := rfl
@[simp] theorem State.lastStatus_switch (s : State) (n : Nat) : (s.lastStatus n).switch = s.switch := rfl
@[simp] theorem State.lastStatus_fabric (s : State) (n : Nat) : (s.lastStatus n).fabric = s.fabric := rfl
@[simp] theorem State.lastStatus_inn (s : State) (n : Nat) : (s.lastStatus n).inn = s.inn := rfl
@[simp] theorem State.lastStatus_tm (s : State) (n : Nat) : (s.lastStatus n).tm = s.tm := rfl
@[simp] theorem State.lastStatus_mem (s : State) (n : Nat) : (s.lastStatus n).mem = s.mem := rfl
@[simp] theorem State.lastStatus_twin (s : State) (n : Nat) : (s.lastStatus n).twin = s.twin := rfl
@[simp] theorem State.lastStatus_tele (s : State) (n : Nat) : (s.lastStatus n).tele = s.tele := rfl

end Sys2Proof.Machine
end

