-- ==== Sys2Proof/Laws/Frames.lean ====
section
/-! SUPPORT. What completing a command, raising an event and counting leave alone. -/

namespace Sys2Proof.Machine

theorem State.Beside.refl (s : State) : s.Beside s := ⟨rfl, fun _ _ => rfl, fun _ => ⟨rfl, rfl⟩⟩

theorem State.Beside.trans {s t u : State} (h : s.Beside t) (k : t.Beside u) : s.Beside u :=
  ⟨k.rest.trans h.rest, fun a ha => (k.regs a ha).trans (h.regs a ha), fun n =>
    ⟨((k.slots n).1).trans (h.slots n).1, ((k.slots n).2).trans (h.slots n).2⟩⟩

theorem State.Beside.foldl {α : Type} (f : State → α → State) (h : ∀ (s : State) (a : α), s.Beside (f s a)) (l : List α) (s : State) :
    s.Beside (l.foldl f s) := by
  induction l generalizing s with
  | nil => exact .refl s
  | cons a l ih => exact (h s a).trans (ih _)

theorem State.updFunc_beside (s : State) (fn : Nat) (f : Func → Func) : s.Beside (s.updFunc fn f) :=
  ⟨rfl, fun _ _ => rfl, fun _ => ⟨rfl, rfl⟩⟩

theorem State.updRing_beside (s : State) (fn r : Nat) (f : Ring → Ring) : s.Beside (s.updRing fn r f) := State.updFunc_beside ..

theorem State.setCtr_beside (s : State) (a b c : Nat) (x : Ctr) : s.Beside (s.setCtr a b c x) :=
  ⟨rfl, fun _ _ => rfl, fun _ => ⟨rfl, rfl⟩⟩

theorem State.lastStatus_beside (s : State) (n : Nat) : s.Beside (s.lastStatus n) := ⟨rfl, fun _ _ => rfl, fun _ => ⟨rfl, rfl⟩⟩

theorem State.setReg_beside (s : State) {a : Nat} (v : Nat) (h : a ∈ fatalRegs) : s.Beside (s.setReg a v) :=
  ⟨rfl, fun b hb => congrArg BitVec.toNat (NMap.get_put_ne _ _ _ _ (fun e => hb (e ▸ h))), fun _ => ⟨rfl, rfl⟩⟩

theorem State.updSlot_beside (s : State) (k : Nat) (f : Slot → Slot) (h : ∀ p, (f p).key = p.key ∧ (f p).last = p.last) :
    s.Beside (s.updSlot k f) := by
  refine ⟨rfl, fun _ _ => rfl, fun n => ?_⟩
  by_cases e : n = k
  · subst e
    have : (s.updSlot n f).slot n = f (s.slot n) := NMap.get_upd_self ..
    rw [this]; exact h _
  · have : (s.updSlot k f).slot n = s.slot n := NMap.get_upd_ne _ _ _ _ e
    rw [this]; exact ⟨rfl, rfl⟩

theorem State.bumpQuiet_beside (s : State) (a b c n : Nat) : s.Beside (s.bumpQuiet a b c n).1 := by
  unfold State.bumpQuiet
  split <;> exact State.setCtr_beside ..

theorem State.sendVector_beside (s : State) (fn v : Nat) : s.Beside (s.sendVector fn v) := State.updFunc_beside ..

theorem State.signalRing_beside (s : State) (fn r : Nat) : s.Beside (s.signalRing fn r) := by
  unfold State.signalRing
  dsimp only
  split
  · exact .refl s
  · split
    · exact State.updRing_beside ..
    · split
      · exact State.sendVector_beside ..
      · exact State.updRing_beside ..

theorem State.markSet_beside (s : State) (a m : Nat) : s.Beside (s.markSet a m) := ⟨rfl, fun _ _ => rfl, fun _ => ⟨rfl, rfl⟩⟩

theorem State.latchFatal_beside (s : State) (a b : Nat) (c : Bool) : s.Beside (s.latchFatal a b c) := by
  unfold State.latchFatal
  extract_lets w
  split
  · exact ⟨rfl, fun _ _ => rfl, fun _ => ⟨rfl, rfl⟩⟩
  · exact (((State.setReg_beside s w (by decide)).trans (State.setReg_beside _ _ (by decide))).trans
      (State.setReg_beside _ _ (by decide))).trans (State.markSet_beside ..)

theorem State.raiseFatalVec_beside (s : State) : s.Beside s.raiseFatalVec := by
  unfold State.raiseFatalVec
  dsimp only
  split
  · exact (State.sendVector_beside ..).trans (State.sendVector_beside ..)
  · exact State.sendVector_beside ..

theorem State.writeEvt_beside (s : State) (fn r : Nat) (e : Evt) : s.Beside (s.writeEvt fn r e) :=
  (State.updRing_beside ..).trans (State.signalRing_beside ..)

theorem State.dropEvt_beside (s : State) (fn r : Nat) (e : Evt) : s.Beside (s.dropEvt fn r e) := by
  unfold State.dropEvt
  dsimp only
  split
  · exact (((State.updRing_beside ..).trans (State.updRing_beside ..)).trans (State.latchFatal_beside ..)).trans
      (State.raiseFatalVec_beside _)
  · exact State.updRing_beside ..

theorem State.pushEvt_beside (s : State) (fn r : Nat) (e : Evt) : s.Beside (s.pushEvt fn r e).1 := by
  unfold State.pushEvt
  dsimp only
  split
  · exact State.dropEvt_beside ..
  · split
    · exact State.writeEvt_beside ..
    · split
      · exact State.updRing_beside ..
      · exact State.dropEvt_beside ..

theorem State.sendEvt_beside (s : State) (p : Nat) (e : Evt) : s.Beside (s.sendEvt p e).1 := by
  unfold State.sendEvt
  dsimp only
  split
  · exact (State.pushEvt_beside ..).trans (State.bumpQuiet_beside ..)
  · exact State.pushEvt_beside ..

theorem State.raiseSaturated_beside (s : State) (a b c : Nat) : s.Beside (s.raiseSaturated a b c) := by
  unfold State.raiseSaturated
  exact State.sendEvt_beside ..

theorem State.raise_beside (s : State) (p : Nat) (e : EvName) (i x : Nat) : s.Beside (s.raise p e i x) := by
  have h : s.Beside (if e.fatal && true then (s.latchFatal e.src e.code false).raiseFatalVec else s) := by
    split
    · exact (State.latchFatal_beside ..).trans (State.raiseFatalVec_beside _)
    · exact .refl s
  unfold State.raise State.raiseSt
  dsimp only
  generalize (if e.fatal && true then (s.latchFatal e.src e.code false).raiseFatalVec else s) = u at h ⊢
  split
  · exact (h.trans (State.sendEvt_beside ..)).trans (State.raiseSaturated_beside ..)
  · exact h.trans (State.sendEvt_beside ..)

theorem State.bump_beside (s : State) (c : CtrName) (ix n : Nat) : s.Beside (s.bump c ix n) := by
  unfold State.bump
  dsimp only
  split
  · exact (State.bumpQuiet_beside ..).trans (State.raiseSaturated_beside ..)
  · exact State.bumpQuiet_beside ..

theorem State.pushComp_beside (s : State) (fn n : Nat) (c : Comp) : s.Beside (s.pushComp fn n c) := by
  unfold State.pushComp
  dsimp only
  split
  · exact (State.updRing_beside ..).trans (State.signalRing_beside ..)
  · exact State.updRing_beside ..

theorem State.complete_beside (s : State) (fn n : Nat) (d : Desc) (a b c : Nat) (au : Bool) (resp : List Byte) :
    s.Beside (s.complete fn n d a b c au resp) := by
  refine (State.pushComp_beside s fn n (s.compOf d a b c au resp)).trans ?_
  change State.Beside _ (State.fence _ _ _ _ _)
  unfold State.fence
  split
  · exact (State.updRing_beside ..).trans (State.raise_beside ..)
  · exact .refl _

theorem State.closeWindow_beside (s : State) (slot : Option (Nat × Nat × Nat)) (a b : Nat) : s.Beside (s.closeWindow slot a b) := by
  unfold State.closeWindow
  split
  · exact .refl s
  · exact State.updSlot_beside _ _ _ fun _ => ⟨rfl, rfl⟩

theorem State.finish1_beside (s : State) (fn n : Nat) (run : Running) (a b c : Nat) (resp : List Byte) :
    s.Beside (s.finish1 fn n run a b c resp) := by
  have h : s.Beside (if run.desc.opcode = 0x0100 then s.lastStatus a else s) := by
    split
    · exact State.lastStatus_beside ..
    · exact .refl s
  unfold State.finish1
  dsimp only
  generalize (if run.desc.opcode = 0x0100 then s.lastStatus a else s) = u at h ⊢
  exact (((h.trans (State.updRing_beside ..)).trans (State.updRing_beside ..)).trans (State.closeWindow_beside ..)).trans
    (State.complete_beside ..)

theorem State.finish_beside (s : State) (fn n : Nat) (run : Running) (a b c : Nat) (resp : List Byte) :
    s.Beside (s.finish fn n run a b c resp) :=
  (State.finish1_beside ..).trans (State.Beside.foldl _ (fun _ _ => State.finish1_beside ..) _ _)

theorem State.runHead_beside (s : State) (fn n : Nat) (k : State → Desc → State) (hk : ∀ (t : State) (d : Desc), t.Beside (k t d)) :
    s.Beside (s.runHead fn n k) := by
  unfold State.runHead
  dsimp only
  split
  · exact .refl s
  · split
    · exact (State.updRing_beside ..).trans (State.complete_beside ..)
    · exact (State.updRing_beside ..).trans (State.complete_beside ..)
    · split
      · exact (((State.updRing_beside ..).trans (State.updRing_beside ..)).trans (State.bump_beside ..)).trans
          (State.finish_beside ..)
      · exact ((State.updRing_beside ..).trans (State.updRing_beside ..)).trans (hk _ _)

theorem State.settle_beside (s : State) (fn n : Nat) : s.Beside (s.settle fn n) := by
  unfold State.settle
  generalize (s.ring fn n).fetched.length = k
  induction k generalizing s with
  | zero => exact .refl s
  | succ k ih =>
    unfold State.skipUnknown
    split
    · exact .refl s
    · split
      · exact (State.runHead_beside _ _ _ _ fun _ _ => State.finish_beside ..).trans (ih _)
      · exact .refl s

theorem State.completes_beside (s : State) (i : Issue) (d : Desc) (x : Nat) (au : Bool) (slot : Option (Nat × Nat × Nat))
    (a b c : Nat) (resp : List Byte) : s.Beside (s.completes i d x au slot a b c resp) :=
  (State.finish_beside ..).trans (State.settle_beside ..)

theorem State.waits_beside (s : State) (i : Issue) (d : Desc) (x : Nat) (au : Bool) (slot : Option (Nat × Nat × Nat)) (w : Wait) :
    s.Beside (s.waits i d x au slot w) :=
  (State.updRing_beside ..).trans (State.settle_beside ..)

theorem State.taken_beside (s : State) (i : Issue) (d : Desc) (rest : List Desc) : (s.pass i.dt).Beside (s.taken i d rest) :=
  (State.updRing_beside ..).trans (State.updRing_beside ..)

/-! ### Counting and raising events leave the keys and their windows as they are -/

theorem State.bumpQuiet_sec (s : State) (a b c n : Nat) : (s.bumpQuiet a b c n).1.sec = s.sec := by
  unfold State.bumpQuiet
  split <;> rfl

theorem State.signalRing_sec (s : State) (fn r : Nat) : (s.signalRing fn r).sec = s.sec := by
  unfold State.signalRing
  dsimp only
  (repeat' split) <;> rfl

theorem State.setFatal_sec (s : State) (w n m : Nat) : (s.setFatal w n m).sec = s.sec := by
  unfold State.setFatal
  rw [State.markSet_sec, State.setReg_sec, State.setReg_sec, State.setReg_sec]

theorem State.latchFatal_sec (s : State) (a b : Nat) (c : Bool) : (s.latchFatal a b c).sec = s.sec := by
  unfold State.latchFatal
  extract_lets w
  split
  · rfl
  · exact State.setFatal_sec ..

theorem State.raiseFatalVec_sec (s : State) : s.raiseFatalVec.sec = s.sec := by
  unfold State.raiseFatalVec
  dsimp only
  split <;> rfl

theorem State.dropEvt_sec (s : State) (fn r : Nat) (e : Evt) : (s.dropEvt fn r e).sec = s.sec := by
  unfold State.dropEvt
  dsimp only
  split
  · exact (State.raiseFatalVec_sec _).trans (State.latchFatal_sec ..)
  · rfl

theorem State.pushEvt_sec (s : State) (fn r : Nat) (e : Evt) : (s.pushEvt fn r e).1.sec = s.sec := by
  unfold State.pushEvt
  dsimp only
  split
  · exact State.dropEvt_sec ..
  · split
    · exact State.signalRing_sec ..
    · split
      · rfl
      · exact State.dropEvt_sec ..

theorem State.sendEvt_sec (s : State) (p : Nat) (e : Evt) : (s.sendEvt p e).1.sec = s.sec := by
  unfold State.sendEvt
  dsimp only
  split
  · exact (State.bumpQuiet_sec ..).trans (State.pushEvt_sec ..)
  · exact State.pushEvt_sec ..

theorem State.raiseSaturated_sec (s : State) (a b c : Nat) : (s.raiseSaturated a b c).sec = s.sec := by
  unfold State.raiseSaturated
  exact State.sendEvt_sec ..

theorem State.raise_sec (s : State) (p : Nat) (e : EvName) (i x : Nat) : (s.raise p e i x).sec = s.sec := by
  have h : (if e.fatal && true then (s.latchFatal e.src e.code false).raiseFatalVec else s).sec = s.sec := by
    split
    · exact (State.raiseFatalVec_sec _).trans (State.latchFatal_sec ..)
    · rfl
  unfold State.raise State.raiseSt
  dsimp only
  generalize (if e.fatal && true then (s.latchFatal e.src e.code false).raiseFatalVec else s) = u at h ⊢
  split
  · exact ((State.raiseSaturated_sec ..).trans (State.sendEvt_sec ..)).trans h
  · exact (State.sendEvt_sec ..).trans h

theorem State.bump_sec (s : State) (c : CtrName) (ix n : Nat) : (s.bump c ix n).sec = s.sec := by
  unfold State.bump
  dsimp only
  split
  · exact (State.raiseSaturated_sec ..).trans (State.bumpQuiet_sec ..)
  · exact State.bumpQuiet_sec ..

theorem State.slot_bump (s : State) (c : CtrName) (ix n k : Nat) : (s.bump c ix n).slot k = s.slot k := by
  unfold State.slot
  rw [State.bump_sec]

theorem State.slot_raise (s : State) (p : Nat) (e : EvName) (i x k : Nat) : (s.raise p e i x).slot k = s.slot k := by
  unfold State.slot
  rw [State.raise_sec]

end Sys2Proof.Machine
end

