-- ==== Sys2Proof/Laws/VitalsBase.lean ====
section
/-! SUPPORT. The queue and the codes of `Vitals`: what the parts of a state say of them, and lists of changes that keep them. -/

namespace Sys2Proof.Machine

theorem vitals_mk (pending freeCtr regs latch time host sec modes chip lanes ports macs xpt lookup parse byway caravan switch fabric inn tm
    mem twin tele) :
    State.vitals ⟨pending, freeCtr, regs, latch, time, host, sec, modes, chip, lanes, ports, macs, xpt, lookup, parse, byway, caravan, switch,
      fabric, inn, tm, mem, twin, tele⟩ =
    ⟨pending, chip.stepping, sec.fuseState, sec.kek, fun k => (sec.slots.get {} k).key, host.linkUp, host.speed, host.width,
      time.align, twin.pair, chip.thermal.st⟩ := rfl

theorem pending_vit (s : State) : s.pending = s.vitals.pending := rfl
theorem stepping_vit (s : State) : s.chip.stepping = s.vitals.stepping := rfl
theorem fuse_vit (s : State) : s.sec.fuseState = s.vitals.fuse := rfl
theorem kek_vit (s : State) : s.sec.kek = s.vitals.kek := rfl
theorem keys_vit (s : State) (k : Nat) : (s.sec.slots.get {} k).key = s.vitals.keys k := rfl
theorem linkUp_vit (s : State) : s.host.linkUp = s.vitals.linkUp := rfl
theorem speed_vit (s : State) : s.host.speed = s.vitals.speed := rfl
theorem width_vit (s : State) : s.host.width = s.vitals.width := rfl
theorem align_vit (s : State) : s.time.align = s.vitals.align := rfl
theorem pair_vit (s : State) : s.twin.pair = s.vitals.pair := rfl
theorem therm_vit (s : State) : s.chip.thermal.st = s.vitals.therm := rfl

theorem vitals_freeCtr (s : State) (x) : State.vitals { s with freeCtr := x } = s.vitals := rfl
theorem vitals_regs (s : State) (x) : State.vitals { s with regs := x } = s.vitals := rfl
theorem vitals_latch (s : State) (x) : State.vitals { s with latch := x } = s.vitals := rfl
theorem vitals_modes (s : State) (x) : State.vitals { s with modes := x } = s.vitals := rfl
theorem vitals_lanes (s : State) (x) : State.vitals { s with lanes := x } = s.vitals := rfl
theorem vitals_ports (s : State) (x) : State.vitals { s with ports := x } = s.vitals := rfl
theorem vitals_macs (s : State) (x) : State.vitals { s with macs := x } = s.vitals := rfl
theorem vitals_xpt (s : State) (x) : State.vitals { s with xpt := x } = s.vitals := rfl
theorem vitals_lookup (s : State) (x) : State.vitals { s with lookup := x } = s.vitals := rfl
theorem vitals_parse (s : State) (x) : State.vitals { s with parse := x } = s.vitals := rfl
theorem vitals_byway (s : State) (x) : State.vitals { s with byway := x } = s.vitals := rfl
theorem vitals_caravan (s : State) (x) : State.vitals { s with caravan := x } = s.vitals := rfl
theorem vitals_switch (s : State) (x) : State.vitals { s with switch := x } = s.vitals := rfl
theorem vitals_fabric (s : State) (x) : State.vitals { s with fabric := x } = s.vitals := rfl
theorem vitals_inn (s : State) (x) : State.vitals { s with inn := x } = s.vitals := rfl
theorem vitals_tm (s : State) (x) : State.vitals { s with tm := x } = s.vitals := rfl
theorem vitals_mem (s : State) (x) : State.vitals { s with mem := x } = s.vitals := rfl
theorem vitals_tele (s : State) (x) : State.vitals { s with tele := x } = s.vitals := rfl

theorem foldl_vitals {α : Type} (f : State → α → State) (h : ∀ s a, (f s a).vitals = s.vitals) (l : List α) (s : State) :
    (l.foldl f s).vitals = s.vitals := by
  induction l generalizing s with
  | nil => rfl
  | cons a l ih => rw [List.foldl_cons, ih, h]

theorem foldr_vitals {α : Type} (f : α → State → State) (h : ∀ a s, (f a s).vitals = s.vitals) (l : List α) (s : State) :
    (l.foldr f s).vitals = s.vitals := by
  induction l with
  | nil => rfl
  | cons a l ih => rw [List.foldr_cons, h, ih]

theorem foldl_vitals_fst {α β : Type} (f : State × β → α → State × β) (h : ∀ r a, (f r a).1.vitals = r.1.vitals) (l : List α)
    (r : State × β) : (l.foldl f r).1.vitals = r.1.vitals := by
  induction l generalizing r with
  | nil => rfl
  | cons a l ih => rw [List.foldl_cons, ih, h]

/-- The state that a command's own execution leaves. -/
def Out.state : Out → State
  | .done s _ _ _ _ => s
  | .wait s _ => s

theorem done_state (s : State) (a b c : Nat) (r : List Byte) : (Out.done s a b c r).state = s := rfl
theorem wait_state (s : State) (w : Wait) : (Out.wait s w).state = s := rfl
theorem ok_state (s : State) : (Out.ok s).state = s := rfl
theorem okR_state (s : State) (r : Nat) : (Out.okR s r).state = s := rfl
theorem okResp_state (s : State) (r : Nat) (b : List Byte) : (Out.okResp s r b).state = s := rfl
theorem fail_state (s : State) (c : Nat) : (Out.fail s c).state = s := rfl

/-- The state that step 5 of R374 leaves. -/
def AuthRes.state : AuthRes → State
  | .pass s _ _ => s
  | .refuse s _ _ => s
  | .dup s _ _ => s

theorem pass_state (s : State) (a : Bool) (c) : (AuthRes.pass s a c).state = s := rfl
theorem refuse_state (s : State) (a : Nat) (c) : (AuthRes.refuse s a c).state = s := rfl
theorem dup_state (s : State) (e : WinEntry) (k : Nat) : (AuthRes.dup s e k).state = s := rfl

/-- The vitals that a command leaves, where it answers a next state. -/
def vitalsOf : Host.Outcome State Fault Refusal → Option Vitals
  | .next t => some t.vitals
  | _ => none

theorem vitalsOf_ans (t : State) : vitalsOf (ans t) = some t.vitals := rfl

theorem afterRow_vitals {s : State} {o : Host.Outcome State Fault Refusal} (h : vitalsOf o = some s.vitals) :
    (afterRow o s).vitals = s.vitals := by
  unfold vitalsOf at h
  unfold afterRow
  split at h
  · exact Option.some.inj h
  · cases h

end Sys2Proof.Machine
end

