-- ==== Sys2Proof/Laws/VitalsCore.lean ====
section
/-! SUPPORT. Operations that leave the vitals as they are (the queue of commands, fuses and keys, link, alignment, pair and thermal
states): the shared operations, the rings and the host interface. -/

namespace Sys2Proof.Machine

/-! ### Ops -/

theorem State.pass_vitals (s : State) (n : ℕ) : (State.pass s n).vitals = s.vitals := by
  unfold State.pass
  simp only [pending_vit, vitals_mk, stepping_vit, fuse_vit, kek_vit, keys_vit, linkUp_vit, speed_vit, width_vit, pair_vit,
      therm_vit]
  (repeat' split) <;> rfl

theorem State.setReg_vitals (s : State) (a : ℕ) (v : ℕ) : (State.setReg s a v).vitals = s.vitals := by
  unfold State.setReg
  simp only [pending_vit, vitals_mk, stepping_vit, fuse_vit, kek_vit, keys_vit, linkUp_vit, speed_vit, width_vit, align_vit,
      pair_vit, therm_vit]

theorem State.markSet_vitals (s : State) (a : ℕ) (m : ℕ) : (State.markSet s a m).vitals = s.vitals := by
  unfold State.markSet
  rfl

theorem State.orReg_vitals (s : State) (a : ℕ) (m : ℕ) : (State.orReg s a m).vitals = s.vitals := by
  unfold State.orReg
  rfl

theorem State.storeReg_vitals (s : State) (a : ℕ) (v : BitVec 32) : (State.storeReg s a v).vitals = s.vitals := by
  unfold State.storeReg
  (repeat' split) <;> simp only [setReg_vitals]

theorem State.drawn_vitals (s : State) : (State.drawn s).vitals = s.vitals := by
  unfold State.drawn
  simp only [pending_vit, vitals_mk, stepping_vit, fuse_vit, kek_vit, keys_vit, linkUp_vit, speed_vit, width_vit, align_vit,
      pair_vit, therm_vit]

theorem State.updMode_vitals (s : State) (m : Mode) (f : ModeSt → ModeSt) : (State.updMode s m f).vitals = s.vitals := by
  unfold State.updMode
  simp only [pending_vit, vitals_mk, stepping_vit, fuse_vit, kek_vit, keys_vit, linkUp_vit, speed_vit, width_vit, align_vit,
      pair_vit, therm_vit]

theorem State.updFunc_vitals (s : State) (fn : ℕ) (f : Func → Func) : (State.updFunc s fn f).vitals = s.vitals := by
  unfold State.updFunc
  simp only [pending_vit, linkUp_vit, speed_vit, width_vit, vitals_mk, stepping_vit, fuse_vit, kek_vit, keys_vit, align_vit,
      pair_vit, therm_vit]

theorem State.updRing_vitals (s : State) (fn : ℕ) (r : ℕ) (f : Ring → Ring) : (State.updRing s fn r f).vitals = s.vitals := by
  unfold State.updRing
  simp only [updFunc_vitals]

theorem State.updDomain_vitals (s : State) (d : ℕ) (f : Domain → Domain) : (State.updDomain s d f).vitals = s.vitals := by
  unfold State.updDomain
  simp only [pending_vit, stepping_vit, vitals_mk, fuse_vit, kek_vit, keys_vit, linkUp_vit, speed_vit, width_vit, align_vit,
      pair_vit, therm_vit]

theorem State.updGroup_vitals (s : State) (g : ℕ) (f : Domain → Domain) : (State.updGroup s g f).vitals = s.vitals := by
  unfold State.updGroup
  simp only [pending_vit, stepping_vit, vitals_mk, fuse_vit, kek_vit, keys_vit, linkUp_vit, speed_vit, width_vit, align_vit,
      pair_vit, therm_vit]

theorem State.updLane_vitals (s : State) (n : ℕ) (f : Lane → Lane) : (State.updLane s n f).vitals = s.vitals := by
  unfold State.updLane
  simp only [pending_vit, vitals_mk, stepping_vit, fuse_vit, kek_vit, keys_vit, linkUp_vit, speed_vit, width_vit, align_vit,
      pair_vit, therm_vit]

theorem State.updPort_vitals (s : State) (p : ℕ) (f : Port → Port) : (State.updPort s p f).vitals = s.vitals := by
  unfold State.updPort
  simp only [pending_vit, vitals_mk, stepping_vit, fuse_vit, kek_vit, keys_vit, linkUp_vit, speed_vit, width_vit, align_vit,
      pair_vit, therm_vit]

theorem State.updLevel_vitals (s : State) (n : ℕ) (f : Align → Align) : (State.updLevel s n f).vitals = s.vitals := by
  unfold State.updLevel
  simp only [pending_vit, vitals_mk, stepping_vit, fuse_vit, kek_vit, keys_vit, linkUp_vit, speed_vit, width_vit, align_vit,
      pair_vit, therm_vit]

theorem State.updEnt_vitals (s : State) (e : ℕ) (f : XEnt → XEnt) : (State.updEnt s e f).vitals = s.vitals := by
  unfold State.updEnt
  simp only [pending_vit, vitals_mk, stepping_vit, fuse_vit, kek_vit, keys_vit, linkUp_vit, speed_vit, width_vit, align_vit,
      pair_vit, therm_vit]

theorem State.updClient_vitals (s : State) (p : ℕ) (f : Client → Client) : (State.updClient s p f).vitals = s.vitals := by
  unfold State.updClient
  rfl

theorem State.updLink_vitals (s : State) (j : ℕ) (f : Link → Link) : (State.updLink s j f).vitals = s.vitals := by
  unfold State.updLink
  simp only [pending_vit, vitals_mk, stepping_vit, fuse_vit, kek_vit, keys_vit, linkUp_vit, speed_vit, width_vit, align_vit,
      pair_vit, therm_vit]

theorem State.updQueue_vitals (s : State) (q : ℕ) (f : Queue → Queue) : (State.updQueue s q f).vitals = s.vitals := by
  unfold State.updQueue
  simp only [pending_vit, vitals_mk, stepping_vit, fuse_vit, kek_vit, keys_vit, linkUp_vit, speed_vit, width_vit, align_vit,
      pair_vit, therm_vit]

theorem State.updNode_vitals (s : State) (k : ℕ) (f : Node → Node) : (State.updNode s k f).vitals = s.vitals := by
  unfold State.updNode
  simp only [pending_vit, vitals_mk, stepping_vit, fuse_vit, kek_vit, keys_vit, linkUp_vit, speed_vit, width_vit, align_vit,
      pair_vit, therm_vit]

theorem State.updGate_vitals (s : State) (p : ℕ) (f : Gate → Gate) : (State.updGate s p f).vitals = s.vitals := by
  unfold State.updGate
  simp only [pending_vit, vitals_mk, stepping_vit, fuse_vit, kek_vit, keys_vit, linkUp_vit, speed_vit, width_vit, align_vit,
      pair_vit, therm_vit]

theorem State.updEgress_vitals (s : State) (p : ℕ) (f : Egress → Egress) : (State.updEgress s p f).vitals = s.vitals := by
  unfold State.updEgress
  simp only [pending_vit, vitals_mk, stepping_vit, fuse_vit, kek_vit, keys_vit, linkUp_vit, speed_vit, width_vit, align_vit,
      pair_vit, therm_vit]

theorem State.updPolicer_vitals (s : State) (i : ℕ) (f : Policer → Policer) : (State.updPolicer s i f).vitals = s.vitals := by
  unfold State.updPolicer
  simp only [pending_vit, vitals_mk, stepping_vit, fuse_vit, kek_vit, keys_vit, linkUp_vit, speed_vit, width_vit, align_vit,
      pair_vit, therm_vit]

theorem State.updPool_vitals (s : State) (p : ℕ) (f : Pool → Pool) : (State.updPool s p f).vitals = s.vitals := by
  unfold State.updPool
  simp only [pending_vit, vitals_mk, stepping_vit, fuse_vit, kek_vit, keys_vit, linkUp_vit, speed_vit, width_vit, align_vit,
      pair_vit, therm_vit]

theorem State.updXm_vitals (s : State) (c : ℕ) (f : Xm → Xm) : (State.updXm s c f).vitals = s.vitals := by
  unfold State.updXm
  simp only [pending_vit, vitals_mk, stepping_vit, fuse_vit, kek_vit, keys_vit, linkUp_vit, speed_vit, width_vit, align_vit,
      pair_vit, therm_vit]

theorem State.updStack_vitals (s : State) (k : ℕ) (f : Hbm → Hbm) : (State.updStack s k f).vitals = s.vitals := by
  unfold State.updStack
  simp only [pending_vit, vitals_mk, stepping_vit, fuse_vit, kek_vit, keys_vit, linkUp_vit, speed_vit, width_vit, align_vit,
      pair_vit, therm_vit]

theorem State.updUnit_vitals (s : State) (u : ℕ) (f : Refresh → Refresh) : (State.updUnit s u f).vitals = s.vitals := by
  unfold State.updUnit
  simp only [pending_vit, vitals_mk, stepping_vit, fuse_vit, kek_vit, keys_vit, linkUp_vit, speed_vit, width_vit, align_vit,
      pair_vit, therm_vit]

theorem State.updSlot_vitals (s : State) (k : ℕ) (f : Slot → Slot) (h : ∀ p, (f p).key = p.key) :
    (State.updSlot s k f).vitals = s.vitals := by
  have : (fun n => ((s.sec.slots.upd {} k f).get {} n).key) = fun n => (s.sec.slots.get {} n).key := by
    funext n
    by_cases hn : n = k
    · subst hn; rw [NMap.get_upd_self, h]
    · rw [NMap.get_upd_ne _ _ _ _ hn]
  unfold State.updSlot State.vitals
  rw [this]

theorem State.updClaim_vitals (s : State) (p : ℕ) (f : Claim → Claim) : (State.updClaim s p f).vitals = s.vitals := by
  unfold State.updClaim
  simp only [pending_vit, pair_vit, apply_ite State.vitals, vitals_mk, stepping_vit, fuse_vit, kek_vit, keys_vit, linkUp_vit,
      speed_vit, width_vit, align_vit, therm_vit, ite_self]

theorem State.updEpochs_vitals (s : State) (p : ℕ) (f : Epochs → Epochs) : (State.updEpochs s p f).vitals = s.vitals := by
  unfold State.updEpochs
  simp only [pending_vit, apply_ite State.vitals, vitals_mk, stepping_vit, fuse_vit, kek_vit, keys_vit, linkUp_vit, speed_vit,
      width_vit, align_vit, pair_vit, therm_vit, ite_self]

theorem State.updStaging_vitals (s : State) (k : ℕ) (f : List Pkt → List Pkt) : (State.updStaging s k f).vitals = s.vitals := by
  unfold State.updStaging
  simp only [pending_vit, vitals_mk, stepping_vit, fuse_vit, kek_vit, keys_vit, linkUp_vit, speed_vit, width_vit, align_vit,
      pair_vit, therm_vit]

theorem State.updInput_vitals (s : State) (k : ℕ) (f : List Pkt → List Pkt) : (State.updInput s k f).vitals = s.vitals := by
  unfold State.updInput
  simp only [pending_vit, vitals_mk, stepping_vit, fuse_vit, kek_vit, keys_vit, linkUp_vit, speed_vit, width_vit, align_vit,
      pair_vit, therm_vit]

theorem State.updOutput_vitals (s : State) (k : ℕ) (f : List Pkt → List Pkt) : (State.updOutput s k f).vitals = s.vitals := by
  unfold State.updOutput
  simp only [pending_vit, vitals_mk, stepping_vit, fuse_vit, kek_vit, keys_vit, linkUp_vit, speed_vit, width_vit, align_vit,
      pair_vit, therm_vit]

/-! ### Flags -/

theorem State.setCtr_vitals (s : State) (set : ℕ) (inst : ℕ) (item : ℕ) (c : Ctr) : (State.setCtr s set inst item c).vitals =
    s.vitals := by
  unfold State.setCtr
  simp only [pending_vit, vitals_mk, stepping_vit, fuse_vit, kek_vit, keys_vit, linkUp_vit, speed_vit, width_vit, align_vit,
      pair_vit, therm_vit]

theorem State.bumpQuiet_vitals (s : State) (set : ℕ) (inst : ℕ) (item : ℕ) (n : ℕ) : (State.bumpQuiet s set inst item n).1.vitals
    = s.vitals := by
  unfold State.bumpQuiet
  simp only [apply_ite Prod.fst, apply_ite State.vitals, setCtr_vitals, ite_self]

theorem State.sendVector_vitals (s : State) (fn : ℕ) (v : ℕ) : (State.sendVector s fn v).vitals = s.vitals := by
  unfold State.sendVector
  simp only [linkUp_vit, State.updFunc_vitals]

theorem State.signalRing_vitals (s : State) (fn : ℕ) (r : ℕ) : (State.signalRing s fn r).vitals = s.vitals := by
  unfold State.signalRing
  simp only [apply_ite State.vitals, State.updRing_vitals, sendVector_vitals, ite_self]

theorem State.setFatal_vitals (s : State) (w : ℕ) (sec : ℕ) (ns : ℕ) : (State.setFatal s w sec ns).vitals = s.vitals := by
  unfold State.setFatal
  rfl

theorem State.latchFatal_vitals (s : State) (src : ℕ) (code : ℕ) (ringFail : Bool) : (State.latchFatal s src code
    ringFail).vitals = s.vitals := by
  unfold State.latchFatal
  simp only [State.setFatal_vitals, apply_ite State.vitals, ite_self, pending_vit, vitals_mk, stepping_vit, fuse_vit, kek_vit,
      keys_vit, linkUp_vit, speed_vit, width_vit, align_vit, pair_vit, therm_vit]

theorem State.relatch_vitals (s : State) : (State.relatch s).vitals = s.vitals := by
  unfold State.relatch
  (repeat' split) <;> rfl

theorem State.raiseFatalVec_vitals (s : State) : (State.raiseFatalVec s).vitals = s.vitals := by
  unfold State.raiseFatalVec
  simp only [apply_ite State.vitals, sendVector_vitals, ite_self]

theorem State.writeEvt_vitals (s : State) (fn : ℕ) (r : ℕ) (e : Evt) : (State.writeEvt s fn r e).vitals = s.vitals := by
  unfold State.writeEvt
  simp only [signalRing_vitals, State.updRing_vitals]

theorem State.dropEvt_vitals (s : State) (fn : ℕ) (r : ℕ) (e : Evt) : (State.dropEvt s fn r e).vitals = s.vitals := by
  unfold State.dropEvt
  simp only [apply_ite State.vitals, raiseFatalVec_vitals, latchFatal_vitals, State.updRing_vitals, ite_self]

theorem State.pushEvt_vitals (s : State) (fn : ℕ) (r : ℕ) (e : Evt) : (State.pushEvt s fn r e).1.vitals = s.vitals := by
  unfold State.pushEvt
  simp only [apply_ite Prod.fst, apply_ite State.vitals, dropEvt_vitals, writeEvt_vitals, State.updRing_vitals, ite_self]

theorem State.drainEvt1_vitals (s : State) (fn : ℕ) (r : ℕ) : (State.drainEvt1 s fn r).vitals = s.vitals := by
  unfold State.drainEvt1
  simp only [apply_ite State.vitals]
  (repeat' split) <;> simp only [writeEvt_vitals, State.updRing_vitals]

theorem State.drainEvts_vitals (s : State) (fn r n : ℕ) : (State.drainEvts s fn r n).vitals = s.vitals := by
  induction n generalizing s with
  | zero => rfl
  | succ n ih => exact (ih _).trans (State.drainEvt1_vitals ..)

theorem State.sendEvt_vitals (s : State) (p : ℕ) (e : Evt) : (State.sendEvt s p e).1.vitals = s.vitals := by
  unfold State.sendEvt
  simp only [apply_ite Prod.fst, apply_ite State.vitals, bumpQuiet_vitals, pushEvt_vitals, ite_self]

theorem State.raiseSaturated_vitals (s : State) (set : ℕ) (inst : ℕ) (item : ℕ) : (State.raiseSaturated s set inst item).vitals =
    s.vitals := by
  unfold State.raiseSaturated
  simp only [sendEvt_vitals]

theorem State.raiseSt_vitals (s : State) (p : ℕ) (e : EvName) (inst : ℕ) (payload : ℕ) (st : Bool) : (State.raiseSt s p e inst
    payload st).vitals = s.vitals := by
  unfold State.raiseSt
  simp only [apply_ite State.vitals, raiseSaturated_vitals, sendEvt_vitals, raiseFatalVec_vitals, latchFatal_vitals, ite_self]

theorem State.raise_vitals (s : State) (p : ℕ) (e : EvName) (inst : ℕ) (payload : ℕ) : (State.raise s p e inst payload).vitals =
    s.vitals := by
  unfold State.raise
  simp only [raiseSt_vitals]

theorem State.bump_vitals (s : State) (c : CtrName) (ix : ℕ) (n : ℕ) : (State.bump s c ix n).vitals = s.vitals := by
  unfold State.bump
  simp only [apply_ite State.vitals, raiseSaturated_vitals, bumpQuiet_vitals, ite_self]

theorem State.bumpNz_vitals (s : State) (c : CtrName) (ix : ℕ) (n : ℕ) : (State.bumpNz s c ix n).vitals = s.vitals := by
  unfold State.bumpNz
  simp only [apply_ite State.vitals, bump_vitals, ite_self]

theorem State.bumpPair_vitals (s : State) (c : CtrName) (ix : ℕ) (bytes : ℕ) : (State.bumpPair s c ix bytes).vitals = s.vitals :=
    by
  unfold State.bumpPair
  simp only [bump_vitals]

theorem State.writeComp_vitals (s : State) (fn : ℕ) (n : ℕ) (c : Comp) : (State.writeComp s fn n c).vitals = s.vitals := by
  unfold State.writeComp
  simp only [signalRing_vitals, State.updRing_vitals]

theorem State.pushComp_vitals (s : State) (fn : ℕ) (n : ℕ) (c : Comp) : (State.pushComp s fn n c).vitals = s.vitals := by
  unfold State.pushComp
  simp only [apply_ite State.vitals, writeComp_vitals, State.updRing_vitals, ite_self]

theorem State.drainComps_vitals (s : State) (fn n k : ℕ) : (State.drainComps s fn n k).vitals = s.vitals := by
  induction k generalizing s with
  | zero => rfl
  | succ k ih =>
    unfold State.drainComps
    dsimp only
    split
    · split
      · rfl
      · rw [ih, State.writeComp_vitals, State.updRing_vitals]
    · rfl

/-! ### Rings -/

theorem State.fence_vitals (s : State) (fn : ℕ) (n : ℕ) (seq : ℕ) (status : ℕ) : (State.fence s fn n seq status).vitals =
    s.vitals := by
  unfold State.fence
  simp only [apply_ite State.vitals, State.raise_vitals, State.updRing_vitals, ite_self]

theorem State.complete_vitals (s : State) (fn : ℕ) (n : ℕ) (d : Desc) (status : ℕ) (detail : ℕ) (result : ℕ) (authed : Bool)
    (resp : List Byte) : (State.complete s fn n d status detail result authed resp).vitals = s.vitals := by
  unfold State.complete
  simp only [fence_vitals, State.pushComp_vitals]

theorem State.remember_vitals (s : State) (fn : ℕ) (n : ℕ) (seq : ℕ) (status : ℕ) (detail : ℕ) (result : ℕ) : (State.remember s
    fn n seq status detail result).vitals = s.vitals := by
  unfold State.remember
  simp only [State.updRing_vitals]

theorem State.closeWindow_vitals (s : State) (slot : Option (ℕ × ℕ × ℕ)) (status : ℕ) (result : ℕ) : (State.closeWindow s slot
    status result).vitals = s.vitals := by
  unfold State.closeWindow
  (repeat' split) <;> simp only [implies_true, State.updSlot_vitals]

theorem State.lastStatus_vitals (s : State) (st : ℕ) : (State.lastStatus s st).vitals = s.vitals := by
  unfold State.lastStatus
  simp only [pending_vit, vitals_mk, stepping_vit, fuse_vit, kek_vit, keys_vit, linkUp_vit, speed_vit, width_vit, align_vit,
      pair_vit, therm_vit]

theorem State.finish1_vitals (s : State) (fn : ℕ) (n : ℕ) (run : Running) (status : ℕ) (detail : ℕ) (result : ℕ) (resp : List
    Byte) : (State.finish1 s fn n run status detail result resp).vitals = s.vitals := by
  unfold State.finish1
  simp only [complete_vitals, closeWindow_vitals, remember_vitals, State.updRing_vitals, apply_ite State.vitals,
      lastStatus_vitals, ite_self]

theorem State.finish_vitals (s : State) (fn : ℕ) (n : ℕ) (run : Running) (status : ℕ) (detail : ℕ) (result : ℕ) (resp : List
    Byte) : (State.finish s fn n run status detail result resp).vitals = s.vitals := by
  unfold State.finish
  simp only [finish1_vitals, implies_true, foldl_vitals]

theorem State.countAuth_vitals (s : State) (k : ℕ) (item : ℕ) : (State.countAuth s k item).vitals = s.vitals := by
  unfold State.countAuth
  simp only [State.bump_vitals]

theorem State.raiseRejected_vitals (s : State) (fn : ℕ) (n : ℕ) (slot : ℕ) (seq : ℕ) (status : ℕ) : (State.raiseRejected s fn n
    slot seq status).vitals = s.vitals := by
  unfold State.raiseRejected
  simp only [State.raise_vitals]

theorem State.authenticate_vitals (s : State) (fn : ℕ) (n : ℕ) (d : Desc) (payload : ℕ) (critical : Bool) (underIk : Bool) :
    (State.authenticate s fn n d payload critical underIk).state.vitals = s.vitals := by
  unfold State.authenticate
  simp only [fuse_vit]
  (repeat' split) <;> simp only [pass_state, refuse_state, raiseRejected_vitals, countAuth_vitals, dup_state, implies_true,
      State.updSlot_vitals]

theorem State.showProgress_vitals (s : State) (fn : ℕ) (n : ℕ) : (State.showProgress s fn n).vitals = s.vitals := by
  unfold State.showProgress
  (repeat' split) <;> rfl

theorem State.runHead_vitals (s : State) (fn n : ℕ) (k : State → Desc → State) (hk : ∀ t d, (k t d).vitals = t.vitals) :
    (State.runHead s fn n k).vitals = s.vitals := by
  unfold State.runHead
  dsimp only
  split
  · rfl
  · split
    · rw [State.complete_vitals, State.updRing_vitals]
    · rw [State.complete_vitals, State.updRing_vitals]
    · split
      · rw [State.finish_vitals, State.bump_vitals, State.updRing_vitals, State.updRing_vitals]
      · rw [hk, State.updRing_vitals, State.updRing_vitals]

theorem State.skipUnknown_vitals (s : State) (fn n a : ℕ) : (State.skipUnknown s fn n a).vitals = s.vitals := by
  induction a generalizing s with
  | zero => rfl
  | succ a ih =>
    unfold State.skipUnknown
    split
    · rfl
    · split
      · rw [ih, State.runHead_vitals]
        intro t d
        exact State.finish_vitals ..
      · rfl

theorem State.settle_vitals (s : State) (fn : ℕ) (n : ℕ) : (State.settle s fn n).vitals = s.vitals := by
  unfold State.settle
  simp only [skipUnknown_vitals]

/-- A body that keeps the vitals keeps them through every entry. -/
theorem State.runEntries_vitals (sp : OpSpec) (c : Cmd) (run : Running)
    (hb : ∀ t x, (sp.body t c x).state.vitals = t.vitals) (xs : List ℕ) (ix : ℕ) (resp : List Byte) (s : State) :
    (State.runEntries s sp c run xs ix resp).vitals = s.vitals := by
  induction xs generalizing s ix resp with
  | nil => exact State.finish_vitals ..
  | cons x xs ih =>
    have hx := hb s x
    unfold State.runEntries
    split
    · rename_i u w he
      rw [he] at hx
      rw [State.updRing_vitals]; exact hx
    · rename_i u st de r rr he
      rw [he] at hx
      split
      · rw [State.finish_vitals]; exact hx
      · split
        · rw [ih]; exact hx
        · rw [State.finish_vitals]; exact hx

/-- The opcode's own execution keeps the vitals. -/
def OpSpec.Calm (sp : OpSpec) : Prop := ∀ t c x, (sp.body t c x).state.vitals = t.vitals

theorem State.resume_vitals (s : State) (sps : List OpSpec) (fn n : ℕ) (h : ∀ sp ∈ sps, sp.Calm) :
    (State.resume s sps fn n).vitals = s.vitals := by
  unfold State.resume
  split
  · rfl
  · split
    · rfl
    · rename_i sp hf
      split
      · rfl
      · dsimp only
        rw [State.settle_vitals, State.runEntries_vitals _ _ _ (fun t x => h sp (List.mem_of_find?_eq_some hf) t _ x)]

theorem State.resumeAfter_vitals (s : State) (sp : OpSpec) (fn n : ℕ) (h : sp.Calm) :
    (State.resumeAfter s sp fn n).vitals = s.vitals := by
  unfold State.resumeAfter
  split
  · rfl
  · split
    · rw [State.settle_vitals, State.finish_vitals]
    · split
      · rfl
      · dsimp only
        rw [State.settle_vitals, State.runEntries_vitals _ _ _ (fun t x => h t _ x)]

theorem State.endWait_vitals (s : State) (fn : ℕ) (n : ℕ) (status : ℕ) (detail : ℕ) (result : ℕ) (resp : List Byte) :
    (State.endWait s fn n status detail result resp).vitals = s.vitals := by
  unfold State.endWait
  (repeat' split) <;> simp only [settle_vitals, finish_vitals]

theorem State.endWaits_vitals (s : State) (f : Wait → Bool) (status : ℕ) (result : ℕ) : (State.endWaits s f status result).vitals
    = s.vitals := by
  unfold State.endWaits
  simp only [apply_ite State.vitals, endWait_vitals, ite_self, implies_true, foldl_vitals]

theorem State.resumeWaits_vitals (s : State) (sps : List OpSpec) (f : Wait → Bool) (h : ∀ sp ∈ sps, sp.Calm) :
    (State.resumeWaits s sps f).vitals = s.vitals := by
  unfold State.resumeWaits
  refine foldl_vitals _ (fun s w => ?_) _ _
  split
  · exact State.resume_vitals _ _ _ _ h
  · rfl

/-! ### HostIf -/

theorem State.badAccess_vitals (s : State) (fn : ℕ) (off : ℕ) : (State.badAccess s fn off).vitals = s.vitals := by
  unfold State.badAccess
  simp only [State.raise_vitals]

theorem State.takeSubsys_vitals (s : State) : (State.takeSubsys s).vitals = s.vitals := by
  unfold State.takeSubsys
  simp only [apply_ite State.vitals, ite_self, pending_vit, vitals_mk, stepping_vit, fuse_vit, kek_vit, keys_vit, linkUp_vit,
      speed_vit, width_vit, align_vit, pair_vit, therm_vit]

theorem State.badDoorbell_vitals (s : State) (fn : ℕ) (r : ℕ) (value : ℕ) : (State.badDoorbell s fn r value).vitals = s.vitals :=
    by
  unfold State.badDoorbell
  simp only [apply_ite State.vitals, State.raise_vitals, State.updRing_vitals, ite_self]

theorem State.hostErr_vitals (s : State) (fn : ℕ) (r : ℕ) : (State.hostErr s fn r).vitals = s.vitals := by
  unfold State.hostErr
  simp only [State.raise_vitals, State.updRing_vitals]

/-! ### Security -/

theorem fenceClearBody_vitals (s : State) (c : Cmd) (x : ℕ) : (fenceClearBody s c x).state.vitals = s.vitals := by
  unfold fenceClearBody
  simp only [apply_ite Out.state, fail_state, ok_state, okR_state, done_state, apply_ite State.vitals, State.raise_vitals,
      State.updRing_vitals, ite_self]

theorem authPolicyBody_vitals (s : State) (c : Cmd) (x : ℕ) : (authPolicyBody s c x).state.vitals = s.vitals := by
  unfold authPolicyBody
  simp only [pending_vit, kek_vit, fuse_vit, apply_ite Out.state, fail_state, ok_state, apply_ite State.vitals, vitals_mk,
      stepping_vit, keys_vit, linkUp_vit, speed_vit, width_vit, align_vit, pair_vit, therm_vit, ite_self]

/-! ### MemUnit -/

theorem State.touch_vitals (s : State) (u : ℕ) : (State.touch s u).vitals = s.vitals := by
  unfold State.touch
  rfl

theorem State.bumpUnit_vitals (s : State) (u : ℕ) (item : ℕ) : (State.bumpUnit s u item).vitals = s.vitals := by
  unfold State.bumpUnit
  simp only [State.bump_vitals, apply_ite State.vitals, ite_self]

theorem State.countCe_vitals (s : State) (u : ℕ) : (State.countCe s u).vitals = s.vitals := by
  unfold State.countCe
  simp only [State.bumpUnit_vitals]

theorem State.countUe_vitals (s : State) (u : ℕ) : (State.countUe s u).vitals = s.vitals := by
  unfold State.countUe
  simp only [State.bumpUnit_vitals, pending_vit, vitals_mk, stepping_vit, fuse_vit, kek_vit, keys_vit, linkUp_vit, speed_vit,
      width_vit, align_vit, pair_vit, therm_vit]

theorem State.memUe_vitals (s : State) (part : ℕ) (unit : ℕ) (structure_ : ℕ) (addr : ℕ) : (State.memUe s part unit structure_
    addr).vitals = s.vitals := by
  unfold State.memUe
  simp only [State.raise_vitals, countUe_vitals]

theorem State.setPoison_vitals (s : State) (structure_ : ℕ) (ix : ℕ) : (State.setPoison s structure_ ix).vitals = s.vitals := by
  unfold State.setPoison
  rfl

theorem State.recRewritten_vitals (s : State) (structure_ : ℕ) (ix : ℕ) : (State.recRewritten s structure_ ix).vitals = s.vitals
    := by
  unfold State.recRewritten
  simp only [pending_vit, vitals_mk, stepping_vit, fuse_vit, kek_vit, keys_vit, linkUp_vit, speed_vit, width_vit, align_vit,
      pair_vit, therm_vit]

theorem State.readOne_vitals (s : State) (part : ℕ) (u : ℕ) (structure_ : ℕ) (ix : ℕ) (out : ℕ) : (State.readOne s part u
    structure_ ix out).vitals = s.vitals := by
  unfold State.readOne
  simp only [State.touch_vitals, State.countCe_vitals, State.memUe_vitals, apply_ite State.vitals, ite_self]

theorem State.readTwo_vitals (s : State) (part : ℕ) (structure_ : ℕ) (ix : ℕ) (u0 : ℕ) (u1 : ℕ) (o0 : ℕ) (o1 : ℕ) :
    (State.readTwo s part structure_ ix u0 u1 o0 o1).1.vitals = s.vitals := by
  unfold State.readTwo
  simp only [State.readOne_vitals, apply_ite State.vitals, ite_self, apply_ite Prod.fst]

theorem State.divideCellar_vitals (s : State) : (State.divideCellar s).vitals = s.vitals := by
  unfold State.divideCellar
  rfl

theorem State.noteTraffic_vitals (s : State) (part : ℕ) (kind : ℕ) (n : ℕ) : (State.noteTraffic s part kind n).vitals = s.vitals
    := by
  unfold State.noteTraffic
  rfl

end Sys2Proof.Machine
end

