-- ==== Sys2Proof/Laws/VitalsPath.lean ====
section
/-! SUPPORT. Operations that leave the vitals as they are (the queue of commands, fuses and keys, link, alignment, pair and thermal
states): time, lanes, transport, MACs, parsing, lookup, punts and frames. -/

namespace Sys2Proof.Machine

/-! ### TimeBase -/

theorem State.mw0_vitals (s : State) (fn : ℕ) (off : ℕ) (k : State → State) (hk : ∀ t, (k t).vitals = t.vitals) : (State.mw0 s fn
    off k).vitals = s.vitals := by
  unfold State.mw0
  simp only [apply_ite State.vitals, State.badAccess_vitals, hk, ite_self]

theorem State.sharedWrite_vitals (s : State) (fn : ℕ) (off : ℕ) (k : State → State) (hk : ∀ t, (k t).vitals = t.vitals) :
    (State.sharedWrite s fn off k).vitals = s.vitals := by
  unfold State.sharedWrite
  simp only [apply_ite State.vitals, hk, ite_self, implies_true, mw0_vitals]

theorem State.decideStep_vitals (s : State) (cause : ℕ) (rel : ℤ) (target : Option ℕ) (owner : Option (ℕ × ℕ)) :
    (State.decideStep s cause rel target owner).vitals = s.vitals := by
  unfold State.decideStep
  simp only [pending_vit, align_vit, vitals_mk, stepping_vit, fuse_vit, kek_vit, keys_vit, linkUp_vit, speed_vit, width_vit,
      pair_vit, therm_vit]

theorem timeAdjustBody_vitals (s : State) (c : Cmd) (x : ℕ) : (timeAdjustBody s c x).state.vitals = s.vitals := by
  unfold timeAdjustBody
  simp only [pending_vit, align_vit, apply_ite Out.state, fail_state, ok_state, wait_state, apply_ite State.vitals, vitals_mk,
      stepping_vit, fuse_vit, kek_vit, keys_vit, linkUp_vit, speed_vit, width_vit, pair_vit, therm_vit, ite_self,
      State.decideStep_vitals]

theorem State.markUnaligned_vitals (s : State) : (State.markUnaligned s).vitals = s.vitals := by
  unfold State.markUnaligned
  simp only [pending_vit, vitals_mk, stepping_vit, fuse_vit, kek_vit, keys_vit, linkUp_vit, speed_vit, width_vit, align_vit,
      pair_vit, therm_vit]

theorem State.noteTod_vitals (s : State) : (State.noteTod s).vitals = s.vitals := by
  unfold State.noteTod
  simp only [apply_ite State.vitals, markUnaligned_vitals, ite_self]

theorem State.slewOff_vitals (s : State) (off : ℤ) : (State.slewOff s off).vitals = s.vitals := by
  unfold State.slewOff
  simp only [pending_vit, align_vit, vitals_mk, stepping_vit, fuse_vit, kek_vit, keys_vit, linkUp_vit, speed_vit, width_vit,
      pair_vit, therm_vit]

theorem State.updTsQueue_vitals (s : State) (k : ℕ) (f : TsQueue → TsQueue) : (State.updTsQueue s k f).vitals = s.vitals := by
  unfold State.updTsQueue
  simp only [pending_vit, align_vit, vitals_mk, stepping_vit, fuse_vit, kek_vit, keys_vit, linkUp_vit, speed_vit, width_vit,
      pair_vit, therm_vit]

theorem State.appendTs_vitals (s : State) (k : ℕ) (e : ℕ) : (State.appendTs s k e).vitals = s.vitals := by
  unfold State.appendTs
  simp only [apply_ite State.vitals, State.raise_vitals, updTsQueue_vitals, ite_self]

theorem State.flushLost_vitals (s : State) (k : ℕ) : (State.flushLost s k).vitals = s.vitals := by
  unfold State.flushLost
  (repeat' split) <;> simp only [appendTs_vitals, updTsQueue_vitals]

theorem State.pushTs_vitals (s : State) (k : ℕ) (port : ℕ) (tag : ℕ) (e : ℕ) : (State.pushTs s k port tag e).vitals = s.vitals :=
    by
  unfold State.pushTs
  simp only [apply_ite State.vitals, appendTs_vitals, flushLost_vitals, State.bump_vitals, updTsQueue_vitals, ite_self]

theorem tsReadBody_vitals (s : State) (z1 : Cmd) (x : ℕ) : (tsReadBody s z1 x).state.vitals = s.vitals := by
  unfold tsReadBody
  simp only [apply_ite Out.state, fail_state, okResp_state, apply_ite State.vitals, State.flushLost_vitals,
      State.updTsQueue_vitals, ite_self]

/-! ### Hier -/

theorem State.syncV_vitals (s : State) (p : ℕ) : (State.syncV s p).vitals = s.vitals := by
  unfold State.syncV
  simp only [State.updEgress_vitals]

theorem State.syncAllV_vitals (s : State) : (State.syncAllV s).vitals = s.vitals := by
  unfold State.syncAllV
  simp only [syncV_vitals, implies_true, foldl_vitals]

theorem State.evaluated_vitals (s : State) (j : ℕ) (w : ℕ) (q : ℕ) : (State.evaluated s j w q).vitals = s.vitals := by
  unfold State.evaluated
  rfl

theorem State.landed_vitals (s : State) : (State.landed s).vitals = s.vitals := by
  unfold State.landed
  rfl

/-! ### Rooms -/

theorem State.takeRooms_vitals (s : State) (part c a : ℕ) : (State.takeRooms s part c a).1.vitals = s.vitals := by
  induction a generalizing s with
  | zero => rfl
  | succ n ih =>
    unfold State.takeRooms
    extract_lets g
    split
    · rfl
    · exact ih _

theorem State.updChain_vitals (s : State) (c : ℕ) (f : Chain → Chain) : (State.updChain s c f).vitals = s.vitals := by
  unfold State.updChain
  simp only [pending_vit, vitals_mk, stepping_vit, fuse_vit, kek_vit, keys_vit, linkUp_vit, speed_vit, width_vit, align_vit,
      pair_vit, therm_vit]

theorem State.linkRooms_vitals (s : State) (c : ℕ) (l : List ℕ) : (State.linkRooms s c l).vitals = s.vitals := by
  unfold State.linkRooms
  simp only [pending_vit, updChain_vitals, vitals_mk, stepping_vit, fuse_vit, kek_vit, keys_vit, linkUp_vit, speed_vit,
      width_vit, align_vit, pair_vit, therm_vit]

theorem State.poolEmpty_vitals (s : State) (p : ℕ) : (State.poolEmpty s p).vitals = s.vitals := by
  unfold State.poolEmpty
  simp only [apply_ite State.vitals, State.updPool_vitals, State.bump_vitals, State.raise_vitals, ite_self]

theorem State.allocChain_vitals (s : State) (p : ℕ) (n : ℕ) : (State.allocChain s p n).1.vitals = s.vitals := by
  unfold State.allocChain
  simp only [pending_vit, apply_ite Prod.fst, apply_ite State.vitals, poolEmpty_vitals, linkRooms_vitals, takeRooms_vitals,
      State.updPool_vitals, vitals_mk, stepping_vit, fuse_vit, kek_vit, keys_vit, linkUp_vit, speed_vit, width_vit, align_vit,
      pair_vit, therm_vit, ite_self]

theorem State.raiseRetireFull_vitals (s : State) (part : ℕ) (page : Bool) : (State.raiseRetireFull s part page).vitals = s.vitals
    := by
  unfold State.raiseRetireFull
  simp only [pending_vit, apply_ite State.vitals, State.raise_vitals, vitals_mk, stepping_vit, fuse_vit, kek_vit, keys_vit,
      linkUp_vit, speed_vit, width_vit, align_vit, pair_vit, therm_vit, ite_self]

theorem State.raiseRetired_vitals (s : State) (part : ℕ) (i : ℕ) (page : Bool) : (State.raiseRetired s part i page).vitals =
    s.vitals := by
  unfold State.raiseRetired
  simp only [State.raise_vitals, State.bump_vitals]

theorem State.returnRoom_vitals (s : State) (p : ℕ) (r : ℕ) (bad : Bool) : (State.returnRoom s p r bad).vitals = s.vitals := by
  unfold State.returnRoom
  dsimp only
  (repeat' split) <;> first | rfl | simp only [State.updPool_vitals, State.raiseRetireFull_vitals, State.raiseRetired_vitals,
      apply_ite State.vitals, ite_self, foldl_vitals, implies_true, pending_vit, vitals_mk, stepping_vit, fuse_vit, kek_vit,
      keys_vit, linkUp_vit, speed_vit, width_vit, align_vit, pair_vit, therm_vit]

theorem State.freeEvent_vitals (s : State) (twice : Bool) (part : ℕ) (first : ℕ) (n : ℕ) (agent : ℕ) (page : Bool) :
    (State.freeEvent s twice part first n agent page).vitals = s.vitals := by
  unfold State.freeEvent
  simp only [State.raise_vitals]

theorem State.freeFails_vitals (s : State) (twice : Bool) (part : ℕ) (first : ℕ) (n : ℕ) (agent : ℕ) (page : Bool) :
    (State.freeFails s twice part first n agent page).vitals = s.vitals := by
  unfold State.freeFails
  simp only [State.freeEvent_vitals, State.bump_vitals]

theorem State.freeRooms_vitals (s : State) (c : ℕ) (agent : ℕ) (l : List ℕ) : (State.freeRooms s c agent l).vitals = s.vitals :=
    by
  unfold State.freeRooms
  dsimp only
  (repeat' split) <;> first | rfl | simp only [State.returnRoom_vitals, State.bump_vitals, State.freeEvent_vitals, apply_ite
      State.vitals, ite_self, foldl_vitals, implies_true, pending_vit, vitals_mk, stepping_vit, fuse_vit, kek_vit, keys_vit,
      linkUp_vit, speed_vit, width_vit, align_vit, pair_vit, therm_vit]

theorem State.freeChain_vitals (s : State) (c : ℕ) (agent : ℕ) : (State.freeChain s c agent).vitals = s.vitals := by
  unfold State.freeChain
  simp only [pending_vit, freeRooms_vitals, apply_ite State.vitals, freeFails_vitals, vitals_mk, stepping_vit, fuse_vit, kek_vit,
      keys_vit, linkUp_vit, speed_vit, width_vit, align_vit, pair_vit, therm_vit, ite_self]

theorem State.releaseChain_vitals (s : State) (c : ℕ) (agent : ℕ) : (State.releaseChain s c agent).vitals = s.vitals := by
  unfold State.releaseChain
  simp only [apply_ite State.vitals, updChain_vitals, freeChain_vitals, ite_self]

theorem State.readRooms_vitals (s : State) (part : ℕ) (l : List ℕ) (out : ℕ) : (State.readRooms s part l out).1.vitals = s.vitals
    := by
  unfold State.readRooms
  simp only [State.readOne_vitals, implies_true, foldl_vitals_fst]

theorem State.readChain_vitals (s : State) (part : ℕ) (c : ℕ) (l : List ℕ) (out : ℕ) : (State.readChain s part c l out).1.vitals
    = s.vitals := by
  unfold State.readChain
  simp only [State.readRooms_vitals, State.updChain_vitals, apply_ite State.vitals, ite_self, apply_ite Prod.fst]

theorem State.cellarState_vitals (s : State) (part : ℕ) (full : Bool) : (State.cellarState s part full).vitals = s.vitals := by
  unfold State.cellarState
  simp only [pending_vit, apply_ite State.vitals, State.raiseSt_vitals, vitals_mk, stepping_vit, fuse_vit, kek_vit, keys_vit,
      linkUp_vit, speed_vit, width_vit, align_vit, pair_vit, therm_vit, ite_self]

theorem State.freePage_vitals (s : State) (q : ℕ) (i : ℕ) (bad : Bool) : (State.freePage s q i bad).vitals = s.vitals := by
  unfold State.freePage
  dsimp only
  (repeat' split) <;> first | rfl | simp only [State.freeFails_vitals, State.cellarState_vitals, State.raiseRetireFull_vitals,
      State.raiseRetired_vitals, apply_ite State.vitals, ite_self, foldl_vitals, implies_true, pending_vit, vitals_mk,
      stepping_vit, fuse_vit, kek_vit, keys_vit, linkUp_vit, speed_vit, width_vit, align_vit, pair_vit, therm_vit]

theorem State.dropHead_vitals (s : State) (q : ℕ) (agent : ℕ) : (State.dropHead s q agent).vitals = s.vitals := by
  unfold State.dropHead
  simp only 
  (repeat' split) <;> simp only [State.updQueue_vitals, freePage_vitals, implies_true, foldl_vitals, releaseChain_vitals]

theorem State.dropRef_vitals (s : State) (k : Pkt) : (State.dropRef s k).vitals = s.vitals := by
  unfold State.dropRef
  simp only [State.updEpochs_vitals]

theorem State.dropRefs_vitals (s : State) (ps : List Pkt) : (State.dropRefs s ps).vitals = s.vitals := by
  unfold State.dropRefs
  simp only [State.dropRef_vitals, foldl_vitals, implies_true]

theorem State.setDeficit_vitals (s : State) (level : ℕ) (ix : ℕ) (d : ℤ) : (State.setDeficit s level ix d).vitals = s.vitals := by
  unfold State.setDeficit
  simp only [apply_ite State.vitals, State.updQueue_vitals, State.updNode_vitals, ite_self]

theorem State.clearDeficits_vitals (s : State) (n : ℕ) (path : Path4) : (State.clearDeficits s n path).vitals = s.vitals := by
  unfold State.clearDeficits
  simp only [apply_ite State.vitals, setDeficit_vitals, ite_self, implies_true, foldl_vitals]

theorem State.purgeQueue_vitals (s : State) (n a : ℕ) : (State.purgeQueue s n a).1.vitals = s.vitals := by
  induction a generalizing s with
  | zero => rfl
  | succ m ih =>
    unfold State.purgeQueue
    split
    · rfl
    · exact (ih _).trans ((State.dropRef_vitals ..).trans (State.dropHead_vitals ..))

theorem State.purgePort_vitals (s : State) (p : ℕ) : (State.purgePort s p).1.vitals = s.vitals := by
  unfold State.purgePort
  simp only [clearDeficits_vitals, purgeQueue_vitals, implies_true, foldl_vitals_fst]

theorem State.purgeEgress_vitals (s : State) (p : ℕ) : (State.purgeEgress s p).1.vitals = s.vitals := by
  unfold State.purgeEgress
  simp only [State.updEgress_vitals, State.dropRefs_vitals, State.updQueue_vitals, implies_true, foldl_vitals]

/-! ### Lane -/

theorem State.extendGate_vitals (s : State) (p : ℕ) : (State.extendGate s p).vitals = s.vitals := by
  unfold State.extendGate
  rfl

theorem State.extendPort_vitals (s : State) (p : ℕ) (mask : ℕ) (delta : ℕ) (extra : ℕ) : (State.extendPort s p mask delta
    extra).1.vitals = s.vitals := by
  unfold State.extendPort
  simp only [State.updQueue_vitals, State.updEgress_vitals, State.extendGate_vitals, foldl_vitals, implies_true]

theorem State.raiseExtended_vitals (s : State) (p : ℕ) (cause : ℕ) (fin : Bool) (mask : ℕ) (start : ℕ) (stop : ℕ) (n : ℕ) :
    (State.raiseExtended s p cause fin mask start stop n).vitals = s.vitals := by
  unfold State.raiseExtended
  simp only [State.raise_vitals]

theorem State.applyInterval_vitals (s : State) (p : ℕ) (cause : ℕ) (mask : ℕ) (start : ℕ) (stop : ℕ) (extra : ℕ) :
    (State.applyInterval s p cause mask start stop extra).vitals = s.vitals := by
  unfold State.applyInterval
  simp only [State.extendPort_vitals, State.raiseExtended_vitals, State.bump_vitals]

theorem State.updLanes_vitals (s : State) (p : ℕ) (f : Lane → Lane) : (State.updLanes s p f).vitals = s.vitals := by
  unfold State.updLanes
  simp only [State.updLane_vitals, implies_true, foldl_vitals]

theorem State.moveLane_vitals (s : State) (n : ℕ) (st : LaneSt) : (State.moveLane s n st).vitals = s.vitals := by
  unfold State.moveLane
  simp only [apply_ite State.vitals, State.bump_vitals, State.updLane_vitals, ite_self]

theorem State.moveLanes_vitals (s : State) (p : ℕ) (st : LaneSt) : (State.moveLanes s p st).vitals = s.vitals := by
  unfold State.moveLanes
  simp only [State.moveLane_vitals, foldl_vitals, implies_true]

theorem State.beginAttempt_vitals (s : State) (p : ℕ) : (State.beginAttempt s p).vitals = s.vitals := by
  unfold State.beginAttempt
  simp only [State.updPort_vitals]

theorem State.freeRx_vitals (s : State) (k : Pkt) : (State.freeRx s k).vitals = s.vitals := by
  unfold State.freeRx
  simp only [apply_ite State.vitals, State.updLink_vitals, ite_self]

theorem State.emptyOutput_vitals (s : State) (out : ℕ) : (State.emptyOutput s out).vitals = s.vitals := by
  unfold State.emptyOutput
  simp only [State.updOutput_vitals, State.bumpNz_vitals, State.dropRefs_vitals, State.freeRx_vitals, foldl_vitals, implies_true,
      pending_vit, vitals_mk, stepping_vit, fuse_vit, kek_vit, keys_vit, linkUp_vit, speed_vit, width_vit, align_vit, pair_vit,
      therm_vit]

theorem State.flushLink_vitals (s : State) (j : ℕ) : (State.flushLink s j).vitals = s.vitals := by
  unfold State.flushLink
  simp only [State.dropRefs_vitals, State.updLink_vitals, State.emptyOutput_vitals, apply_ite State.vitals, ite_self]

theorem State.linkDown_vitals (s : State) (j : ℕ) (cause : ℕ) : (State.linkDown s j cause).vitals = s.vitals := by
  unfold State.linkDown
  simp only [apply_ite State.vitals, State.raise_vitals, flushLink_vitals, State.updLink_vitals, ite_self]

theorem State.linkLanesUp_vitals (s : State) (j : ℕ) : (State.linkLanesUp s j).vitals = s.vitals := by
  unfold State.linkLanesUp
  simp only [apply_ite State.vitals, State.updLink_vitals, ite_self]

theorem State.flushDown_vitals (s : State) (p : ℕ) (t0 : ℕ) : (State.flushDown s p t0).vitals = s.vitals := by
  unfold State.flushDown
  simp only [State.raiseExtended_vitals, State.bump_vitals, State.updPort_vitals, purgeEgress_vitals, purgePort_vitals]

theorem State.goesDown_vitals (s : State) (p : ℕ) (st : ℕ) (cause : ℕ) : (State.goesDown s p st cause).vitals = s.vitals := by
  unfold State.goesDown
  simp only [State.raise_vitals, State.updPort_vitals, State.flushDown_vitals, apply_ite State.vitals, ite_self]

theorem State.portReturns_vitals (s : State) (p : ℕ) : (State.portReturns s p).vitals = s.vitals := by
  unfold State.portReturns
  (repeat' split) <;> simp only [State.flushDown_vitals, State.applyInterval_vitals, State.updPort_vitals]

theorem State.setClient_vitals (s : State) (p : ℕ) (up : Bool) : (State.setClient s p up).vitals = s.vitals := by
  unfold State.setClient
  simp only [pending_vit, vitals_mk, stepping_vit, fuse_vit, kek_vit, keys_vit, linkUp_vit, speed_vit, width_vit, align_vit,
      pair_vit, therm_vit]

theorem State.refreshClient_vitals (s : State) (p : ℕ) : (State.refreshClient s p).vitals = s.vitals := by
  unfold State.refreshClient
  simp only [apply_ite State.vitals, portReturns_vitals, State.raise_vitals, setClient_vitals, goesDown_vitals, ite_self]

theorem State.refreshClients_vitals (s : State) (g : ℕ) : (State.refreshClients s g).vitals = s.vitals := by
  unfold State.refreshClients
  simp only [refreshClient_vitals, implies_true, foldl_vitals]

theorem State.markSes_vitals (s : State) (g : ℕ) : (State.markSes s g).vitals = s.vitals := by
  unfold State.markSes
  simp only [State.updEnt_vitals, apply_ite State.vitals, ite_self, foldl_vitals, implies_true]

theorem State.refreshGroup_vitals (s : State) (g : ℕ) : (State.refreshGroup s g).vitals = s.vitals := by
  unfold State.refreshGroup
  simp only [State.markSes_vitals, State.refreshClients_vitals]

theorem State.portLeaves_vitals (s : State) (p : ℕ) (cause : ℕ) : (State.portLeaves s p cause).vitals = s.vitals := by
  unfold State.portLeaves
  simp only [State.beginAttempt_vitals, State.linkDown_vitals, State.refreshGroup_vitals, State.raise_vitals,
      State.goesDown_vitals, apply_ite State.vitals, ite_self]

theorem State.laneFalls_vitals (s : State) (n : ℕ) (st : LaneSt) (cause : ℕ) : (State.laneFalls s n st cause).vitals = s.vitals
    := by
  unfold State.laneFalls
  (repeat' split) <;> simp only [moveLane_vitals, portLeaves_vitals, implies_true, foldl_vitals]

theorem State.portToLock_vitals (s : State) (p : ℕ) (cause : ℕ) : (State.portToLock s p cause).vitals = s.vitals := by
  unfold State.portToLock
  simp only [apply_ite State.vitals, portLeaves_vitals, moveLane_vitals, implies_true, foldl_vitals, ite_self]

theorem State.ladder_vitals (s : State) (p : ℕ) : (State.ladder s p).vitals = s.vitals := by
  unfold State.ladder
  dsimp only
  (repeat' split) <;> first | rfl | simp only [State.updPort_vitals, State.updLanes_vitals, State.moveLanes_vitals,
      State.raise_vitals, apply_ite State.vitals, ite_self, foldl_vitals, implies_true, pending_vit, vitals_mk, stepping_vit,
      fuse_vit, kek_vit, keys_vit, linkUp_vit, speed_vit, width_vit, align_vit, pair_vit, therm_vit]

/-! ### Transport -/

theorem State.oneSecond_vitals (s : State) (k : ℕ) : (State.oneSecond s k).vitals = s.vitals := by
  unfold State.oneSecond
  simp only [State.updEnt_vitals, foldl_vitals, implies_true]

theorem State.seconds_vitals (s : State) (k n : ℕ) : (State.seconds s k n).vitals = s.vitals := by
  induction n generalizing s k with
  | zero => rfl
  | succ n ih =>
    unfold State.seconds
    rw [ih, State.oneSecond_vitals]

theorem State.runSeconds_vitals (s : State) : (State.runSeconds s).vitals = s.vitals := by
  unfold State.runSeconds
  simp only [State.seconds_vitals, apply_ite State.vitals, ite_self, pending_vit, vitals_mk, stepping_vit, fuse_vit, kek_vit,
      keys_vit, linkUp_vit, speed_vit, width_vit, align_vit, pair_vit, therm_vit]

theorem State.stepBins_vitals (s : State) (back : Bool) (old : ℕ) : (State.stepBins s back old).vitals = s.vitals := by
  unfold State.stepBins
  simp only [State.updEnt_vitals, foldl_vitals, implies_true, pending_vit, vitals_mk, stepping_vit, fuse_vit, kek_vit, keys_vit,
      linkUp_vit, speed_vit, width_vit, align_vit, pair_vit, therm_vit]

theorem State.trimBins_vitals (s : State) (n : ℕ) : (State.trimBins s n).vitals = s.vitals := by
  unfold State.trimBins
  simp only [pending_vit, vitals_mk, stepping_vit, fuse_vit, kek_vit, keys_vit, linkUp_vit, speed_vit, width_vit, align_vit,
      pair_vit, therm_vit]

theorem State.raiseLevel_vitals (s : State) (e : EvName) (l : ℕ) (set : Bool) : (State.raiseLevel s e l set).vitals = s.vitals :=
    by
  unfold State.raiseLevel
  simp only [apply_ite State.vitals, State.raiseSt_vitals, ite_self]

theorem State.levelSearch_vitals (s : State) (l : ℕ) : (State.levelSearch s l).vitals = s.vitals := by
  unfold State.levelSearch
  simp only [raiseLevel_vitals, State.updLevel_vitals]

theorem State.raiseDefects_vitals (s : State) (g : ℕ) (layer : ℕ) (ix : ℕ) (was : ℕ) (now : ℕ) : (State.raiseDefects s g layer ix
    was now).vitals = s.vitals := by
  unfold State.raiseDefects
  simp only [apply_ite State.vitals, State.raiseSt_vitals, ite_self]

theorem State.setDefects_vitals (s : State) (g : ℕ) (layer : ℕ) (ix : ℕ) (d : ℕ) : (State.setDefects s g layer ix d).vitals =
    s.vitals := by
  unfold State.setDefects
  simp only [State.refreshGroup_vitals, State.raiseDefects_vitals, State.updEnt_vitals]

theorem State.justify_vitals (s : State) (f : XptFrame) : (State.justify s f).vitals = s.vitals := by
  unfold State.justify
  dsimp only
  (repeat' split) <;> simp only [State.bump_vitals, State.updEnt_vitals]

theorem State.pointer_vitals (s : State) (f : XptFrame) : (State.pointer s f).vitals = s.vitals := by
  unfold State.pointer
  dsimp only
  (repeat' split) <;> simp only [State.updEnt_vitals, State.bump_vitals]

theorem State.overhead_vitals (s : State) (f : XptFrame) : (State.overhead s f).vitals = s.vitals := by
  unfold State.overhead
  rfl

theorem State.msiCheck_vitals (s : State) (f : XptFrame) : (State.msiCheck s f).vitals = s.vitals := by
  unfold State.msiCheck
  dsimp only
  (repeat' split) <;> first | rfl | simp only [State.setDefects_vitals, apply_ite State.vitals, ite_self, foldl_vitals,
      implies_true, pending_vit, vitals_mk, stepping_vit, fuse_vit, kek_vit, keys_vit, linkUp_vit, speed_vit, width_vit,
      align_vit, pair_vit, therm_vit]

theorem State.gfpFeed_vitals (s : State) (p : ℕ) (bytes : List Byte) : (State.gfpFeed s p bytes).vitals = s.vitals := by
  unfold State.gfpFeed
  simp only [State.updClient_vitals, State.bumpNz_vitals, State.updEnt_vitals]

theorem State.concat_vitals (s : State) (p : ℕ) : (State.concat s p).vitals = s.vitals := by
  unfold State.concat
  dsimp only
  (repeat' split) <;> simp [State.updEnt_vitals, State.setDefects_vitals, State.gfpFeed_vitals, foldl_vitals]

theorem State.memberFrame_vitals (s : State) (f : XptFrame) : (State.memberFrame s f).vitals = s.vitals := by
  unfold State.memberFrame
  dsimp only
  (repeat' split) <;> first | rfl | simp only [State.updEnt_vitals, State.concat_vitals, apply_ite State.vitals, ite_self,
      foldl_vitals, implies_true, pending_vit, vitals_mk, stepping_vit, fuse_vit, kek_vit, keys_vit, linkUp_vit, speed_vit,
      width_vit, align_vit, pair_vit, therm_vit]

theorem State.clientFrame_vitals (s : State) (f : XptFrame) : (State.clientFrame s f).vitals = s.vitals := by
  unfold State.clientFrame
  simp only [State.updClient_vitals, State.setDefects_vitals, State.bumpNz_vitals, apply_ite State.vitals, ite_self]

theorem State.outGmp_vitals (s : State) (k : ℕ) (r : GmpRate) : (State.outGmp s k r).vitals = s.vitals := by
  unfold State.outGmp
  rfl

theorem State.outClient_vitals (s : State) (p : ℕ) : (State.outClient s p).vitals = s.vitals := by
  unfold State.outClient
  simp only [State.outGmp_vitals, State.updEnt_vitals, State.updClient_vitals, apply_ite State.vitals, ite_self]

theorem xptOhSetBody_vitals (s : State) (c : Cmd) (x : ℕ) : (xptOhSetBody s c x).state.vitals = s.vitals := by
  unfold xptOhSetBody
  simp only [apply_ite Out.state, fail_state, ok_state, apply_ite State.vitals, State.updEnt_vitals, ite_self]

theorem xptOhReadBody_vitals (s : State) (c : Cmd) (x : ℕ) : (xptOhReadBody s c x).state.vitals = s.vitals := by
  unfold xptOhReadBody
  simp only [apply_ite Out.state, fail_state, okResp_state, ite_self]

theorem pmReadBody_vitals (s : State) (c : Cmd) (x : ℕ) : (pmReadBody s c x).state.vitals = s.vitals := by
  unfold pmReadBody
  simp only [apply_ite Out.state, fail_state, okResp_state, ite_self]

/-! ### Groups -/

theorem State.recheckGuard_vitals (s : State) (p : ℕ) : (State.recheckGuard s p).vitals = s.vitals := by
  unfold State.recheckGuard
  (repeat' split) <;> simp only [State.raise_vitals, State.updGate_vitals, State.syncV_vitals]

theorem State.startLine_vitals (s : State) (n : ℕ) (typ : ℕ) : (State.startLine s n typ).vitals = s.vitals := by
  unfold State.startLine
  simp only [State.updPort_vitals, State.updLane_vitals, foldl_vitals, implies_true]

theorem State.startClients_vitals (s : State) (g : ℕ) : (State.startClients s g).vitals = s.vitals := by
  unfold State.startClients
  rfl

theorem State.groupLinesUp_vitals (s : State) (g : ℕ) : (State.groupLinesUp s g).vitals = s.vitals := by
  unfold State.groupLinesUp
  simp only [State.startLine_vitals, State.recheckGuard_vitals, State.updPort_vitals, State.levelSearch_vitals,
      State.startClients_vitals, apply_ite State.vitals, ite_self, foldl_vitals, implies_true]

theorem State.groupStart_vitals (s : State) (g : ℕ) : (State.groupStart s g).vitals = s.vitals := by
  unfold State.groupStart
  simp only [groupLinesUp_vitals, State.updGroup_vitals]

theorem State.disableLine_vitals (s : State) (n : ℕ) : (State.disableLine s n).vitals = s.vitals := by
  unfold State.disableLine
  simp only [State.updLanes_vitals, State.moveLanes_vitals, State.updPort_vitals, State.raise_vitals, State.goesDown_vitals,
      apply_ite State.vitals, ite_self]

theorem State.groupLinesDown_vitals (s : State) (g : ℕ) : (State.groupLinesDown s g).vitals = s.vitals := by
  unfold State.groupLinesDown
  simp only [disableLine_vitals, implies_true, foldl_vitals, apply_ite State.vitals, State.goesDown_vitals,
      State.setClient_vitals, ite_self]

theorem State.groupStop_vitals (s : State) (g : ℕ) : (State.groupStop s g).vitals = s.vitals := by
  unfold State.groupStop
  simp only [groupLinesDown_vitals, State.updGroup_vitals]

theorem State.groupNext_vitals (s : State) (g : ℕ) : (State.groupNext s g).vitals = s.vitals := by
  unfold State.groupNext
  simp only 
  (repeat' split) <;> simp only [groupStart_vitals, State.updGroup_vitals, groupStop_vitals]

theorem State.groupSwitch_vitals (s : State) (g : ℕ) (on : Bool) : (State.groupSwitch s g on).vitals = s.vitals := by
  unfold State.groupSwitch
  simp only [apply_ite State.vitals, groupNext_vitals, State.updGroup_vitals, ite_self]

theorem State.groupEnableCheck_vitals (s : State) (g : ℕ) : (State.groupEnableCheck s g).1.vitals = s.vitals := by
  unfold State.groupEnableCheck
  simp only [pending_vit, apply_ite Prod.fst, apply_ite State.vitals, vitals_mk, stepping_vit, fuse_vit, kek_vit, keys_vit,
      linkUp_vit, speed_vit, width_vit, align_vit, pair_vit, therm_vit, ite_self]

theorem State.cfgReject_vitals (s : State) (g : ℕ) : (State.cfgReject s g).vitals = s.vitals := by
  unfold State.cfgReject
  simp only [State.orReg_vitals]

theorem State.powerDone_vitals (s : State) (kind : ℕ) (ix : ℕ) (turn : ℕ) (dropped : ℕ) : (State.powerDone s kind ix turn
    dropped).vitals = s.vitals := by
  unfold State.powerDone
  simp only [State.endWaits_vitals]

theorem State.groupOff_vitals (s : State) (g : ℕ) : (State.groupOff s g).vitals = s.vitals := by
  unfold State.groupOff
  simp only [groupNext_vitals, powerDone_vitals, State.updGroup_vitals, State.updPort_vitals, State.updLane_vitals, implies_true,
      foldl_vitals]

/-! ### Mac -/

theorem State.endPause_vitals (s : State) (p : ℕ) (key : ℕ) (e : ℕ) : (State.endPause s p key e).vitals = s.vitals := by
  unfold State.endPause
  simp only 
  (repeat' split) <;> simp only [State.updPort_vitals, State.applyInterval_vitals]

theorem State.setPause_vitals (s : State) (p : ℕ) (key : ℕ) (quanta : ℕ) : (State.setPause s p key quanta).vitals = s.vitals := by
  unfold State.setPause
  simp only [apply_ite State.vitals]
  (repeat' split) <;> simp only [endPause_vitals, State.updPort_vitals]

theorem State.gotPause_vitals (s : State) (p : ℕ) (quanta : ℕ) : (State.gotPause s p quanta).vitals = s.vitals := by
  unfold State.gotPause
  simp only [apply_ite State.vitals, setPause_vitals, State.bump_vitals, ite_self]

theorem State.gotPfc_vitals (s : State) (p : ℕ) (enable : ℕ) (quanta : List ℕ) : (State.gotPfc s p enable quanta).vitals =
    s.vitals := by
  unfold State.gotPfc
  simp only [apply_ite State.vitals, setPause_vitals, ite_self, implies_true, foldl_vitals, State.bump_vitals]

theorem State.takeSeq_vitals (s : State) (p : ℕ) (len : ℕ) (fcs : ℕ) : (State.takeSeq s p len fcs).vitals = s.vitals := by
  unfold State.takeSeq
  simp only [State.updPort_vitals]

theorem State.takeControlSeq_vitals (s : State) (p : ℕ) : (State.takeControlSeq s p).vitals = s.vitals := by
  unfold State.takeControlSeq
  simp only [takeSeq_vitals, State.drawn_vitals]

theorem State.policyChange_vitals (s : State) (p : ℕ) : (State.policyChange s p).vitals = s.vitals := by
  unfold State.policyChange
  refine foldl_vitals _ (fun s a => ?_) _ _
  (repeat' split) <;> simp only [apply_ite State.vitals, State.updPort_vitals, State.applyInterval_vitals, ite_self]

theorem State.interim_vitals (s : State) (p : ℕ) (key : ℕ) (cause : ℕ) (mask : ℕ) (t0 : ℕ) : (State.interim s p key cause mask
    t0).vitals = s.vitals := by
  unfold State.interim
  simp only [apply_ite State.vitals, State.raiseExtended_vitals, State.updPort_vitals, ite_self]

theorem State.countPauseTx_vitals (s : State) (p : ℕ) (quanta : ℕ) : (State.countPauseTx s p quanta).vitals = s.vitals := by
  unfold State.countPauseTx
  simp only [State.bump_vitals, State.updPort_vitals, State.bumpPair_vitals, State.takeControlSeq_vitals, State.gotPfc_vitals,
      State.gotPause_vitals, apply_ite State.vitals, ite_self]

theorem State.pauseCheck_vitals (s : State) (p : ℕ) : (State.pauseCheck s p).vitals = s.vitals := by
  unfold State.pauseCheck
  dsimp only
  (repeat' split) <;> first | rfl | simp only [State.countPauseTx_vitals, State.updPort_vitals, apply_ite State.vitals, ite_self,
      foldl_vitals, implies_true, pending_vit, vitals_mk, stepping_vit, fuse_vit, kek_vit, keys_vit, linkUp_vit, speed_vit,
      width_vit, align_vit, pair_vit, therm_vit]

theorem macAddrSetBody_vitals (s : State) (c : Cmd) (x : ℕ) : (macAddrSetBody s c x).state.vitals = s.vitals := by
  have h (m) : State.vitals { s with macs := m } = s.vitals := rfl
  unfold macAddrSetBody
  extract_lets p
  by_cases h1 : 48 ≤ p ∨ bits x 13 51 ≠ 0 ∨ bits x 112 16 ≠ 0 ∨ bit x 64 = true
  · rw [if_pos h1]; rfl
  · rw [if_neg h1]
    by_cases h2 : s.foreignPort c p = true
    · rw [if_pos h2]; rfl
    · rw [if_neg h2]; exact h _

theorem macAddrReadBody_vitals (s : State) (c : Cmd) (x : ℕ) : (macAddrReadBody s c x).state.vitals = s.vitals := by
  unfold macAddrReadBody
  simp only [apply_ite Out.state, fail_state, okResp_state, ite_self]

/-! ### Parse -/

theorem parseGraphWriteBody_vitals (s : State) (c : Cmd) (x : ℕ) : (parseGraphWriteBody s c x).state.vitals = s.vitals := by
  unfold parseGraphWriteBody
  simp only [pending_vit, apply_ite Out.state, fail_state, ok_state, apply_ite State.vitals, vitals_mk, stepping_vit, fuse_vit,
      kek_vit, keys_vit, linkUp_vit, speed_vit, width_vit, align_vit, pair_vit, therm_vit, ite_self]

theorem parseGraphActivateBody_vitals (s : State) (c : Cmd) (x : ℕ) : (parseGraphActivateBody s c x).state.vitals = s.vitals := by
  unfold parseGraphActivateBody
  simp only [pending_vit, apply_ite Out.state, fail_state, ok_state, apply_ite State.vitals, vitals_mk, stepping_vit, fuse_vit,
      kek_vit, keys_vit, linkUp_vit, speed_vit, width_vit, align_vit, pair_vit, therm_vit, ite_self]

/-! ### Lookup -/

theorem State.setVersions_vitals (s : State) (key : ℕ) (vs : List Ver) : (State.setVersions s key vs).vitals = s.vitals := by
  unfold State.setVersions
  simp only [pending_vit, vitals_mk, stepping_vit, fuse_vit, kek_vit, keys_vit, linkUp_vit, speed_vit, width_vit, align_vit,
      pair_vit, therm_vit]

theorem State.poisonVisible_vitals (s : State) (key : ℕ) (ep : ℕ) (part : ℕ) : (State.poisonVisible s key ep part).vitals =
    s.vitals := by
  unfold State.poisonVisible
  (repeat' split) <;> simp only [State.setVersions_vitals, State.raise_vitals, State.bump_vitals, State.drawn_vitals]

theorem State.readVer_vitals (s : State) (key : ℕ) (ep : ℕ) (part : ℕ) (bad : Bool) (corr : Bool) : (State.readVer s key ep part
    bad corr).1.vitals = s.vitals := by
  unfold State.readVer
  dsimp only
  (repeat' split) <;> first | rfl | simp only [State.readOne_vitals, State.drawn_vitals, State.poisonVisible_vitals,
      State.recRewritten_vitals, apply_ite State.vitals, ite_self, apply_ite Prod.fst, foldl_vitals_fst, foldl_vitals,
      implies_true, pending_vit, vitals_mk, stepping_vit, fuse_vit, kek_vit, keys_vit, linkUp_vit, speed_vit, width_vit,
      align_vit, pair_vit, therm_vit]

theorem State.mapRow_vitals (s : State) (bank : ℕ) (slot : ℕ) (rec_ : ℕ) : (State.mapRow s bank slot rec_).vitals = s.vitals := by
  unfold State.mapRow
  rfl

theorem State.remapBank_vitals (s : State) (bank : ℕ) : (State.remapBank s bank).vitals = s.vitals := by
  unfold State.remapBank
  simp only [State.mapRow_vitals, foldl_vitals, implies_true, pending_vit, vitals_mk, stepping_vit, fuse_vit, kek_vit, keys_vit,
      linkUp_vit, speed_vit, width_vit, align_vit, pair_vit, therm_vit]

theorem State.searchTcam_vitals (s : State) (part : ℕ) (ep : ℕ) (k : Key) (skip : ℕ) (bad : Bool) (lost : Bool) :
    (State.searchTcam s part ep k skip bad lost).1.vitals = s.vitals := by
  unfold State.searchTcam
  dsimp only
  (repeat' split) <;> first | rfl | simp only [State.bump_vitals, State.readVer_vitals, apply_ite State.vitals, ite_self,
      apply_ite Prod.fst, foldl_vitals_fst, foldl_vitals, implies_true, pending_vit, vitals_mk, stepping_vit, fuse_vit, kek_vit,
      keys_vit, linkUp_vit, speed_vit, width_vit, align_vit, pair_vit, therm_vit]

theorem State.tcamRepair_vitals (s : State) (part : ℕ) (bank : ℕ) (row : ℕ) : (State.tcamRepair s part bank row).vitals =
    s.vitals := by
  unfold State.tcamRepair
  simp only [State.raise_vitals, State.bump_vitals]

theorem State.searchLpm_vitals (s : State) (part : ℕ) (ep : ℕ) (k : Key) (bad : Bool) (corr : Bool) : (State.searchLpm s part ep
    k bad corr).1.vitals = s.vitals := by
  unfold State.searchLpm
  dsimp only
  (repeat' split) <;> first | rfl | simp only [State.readVer_vitals, apply_ite State.vitals, ite_self, apply_ite Prod.fst,
      foldl_vitals_fst, foldl_vitals, implies_true, pending_vit, vitals_mk, stepping_vit, fuse_vit, kek_vit, keys_vit,
      linkUp_vit, speed_vit, width_vit, align_vit, pair_vit, therm_vit]

theorem State.searchEm_vitals (s : State) (part : ℕ) (ep : ℕ) (k : Key) (bad : Bool) (corr : Bool) : (State.searchEm s part ep k
    bad corr).1.vitals = s.vitals := by
  unfold State.searchEm
  dsimp only
  (repeat' split) <;> first | rfl | simp only [State.readVer_vitals, apply_ite State.vitals, ite_self, apply_ite Prod.fst,
      foldl_vitals_fst, foldl_vitals, implies_true, pending_vit, vitals_mk, stepping_vit, fuse_vit, kek_vit, keys_vit,
      linkUp_vit, speed_vit, width_vit, align_vit, pair_vit, therm_vit]

theorem State.loseProfile_vitals (s : State) (part : ℕ) (ep : ℕ) (k : Option Key) (bad : Bool) : (State.loseProfile s part ep k
    bad).1.vitals = s.vitals := by
  unfold State.loseProfile
  (repeat' split) <;> simp only [State.readVer_vitals]

theorem State.search_vitals (s : State) (part : ℕ) (ep : ℕ) (keys : List Key) (err : RxErr) : (State.search s part ep keys
    err).1.vitals = s.vitals := by
  unfold State.search
  dsimp only
  (repeat' split) <;> first | rfl | simp only [State.tcamRepair_vitals, State.loseProfile_vitals, State.bump_vitals,
      State.searchLpm_vitals, State.searchEm_vitals, State.searchTcam_vitals, apply_ite State.vitals, ite_self, apply_ite
      Prod.fst, foldl_vitals_fst, foldl_vitals, implies_true, pending_vit, vitals_mk, stepping_vit, fuse_vit, kek_vit, keys_vit,
      linkUp_vit, speed_vit, width_vit, align_vit, pair_vit, therm_vit]

theorem State.readIndexed_vitals (s : State) (table : ℕ) (ix : ℕ) (ep : ℕ) (part : ℕ) (err : RxErr) : (State.readIndexed s table
    ix ep part err).1.vitals = s.vitals := by
  unfold State.readIndexed
  simp only [State.readVer_vitals]

theorem State.resolve_vitals (s : State) (part ep ref hash : ℕ) (err : RxErr) :
    (State.resolve s part ep ref hash err).1.vitals = s.vitals := by
  unfold State.resolve
  simp only [apply_ite Prod.fst, apply_ite State.vitals, State.bump_vitals, State.readIndexed_vitals, ite_self]

/-! ### Epoch -/

theorem State.takeRef_vitals (s : State) (p : ℕ) (ep : ℕ) : (State.takeRef s p ep).vitals = s.vitals := by
  unfold State.takeRef
  simp only [State.updEpochs_vitals]

theorem State.releaseVer_vitals (s : State) (key : ℕ) (birth : ℕ) : (State.releaseVer s key birth).vitals = s.vitals := by
  unfold State.releaseVer
  dsimp only
  (repeat' split) <;> first | rfl | simp only [State.remapBank_vitals, apply_ite State.vitals, ite_self, foldl_vitals,
      implies_true, pending_vit, vitals_mk, stepping_vit, fuse_vit, kek_vit, keys_vit, linkUp_vit, speed_vit, width_vit,
      align_vit, pair_vit, therm_vit]

theorem State.replaceVersions_vitals (s : State) (key : ℕ) (vs : List Ver) : (State.replaceVersions s key vs).vitals = s.vitals
    := by
  unfold State.replaceVersions
  simp only [State.setVersions_vitals, releaseVer_vitals, implies_true, foldl_vitals]

theorem State.updBank_vitals (s : State) (bank : ℕ) (f : List (ℕ × ℕ × ℕ) → List (ℕ × ℕ × ℕ)) : (State.updBank s bank f).vitals =
    s.vitals := by
  unfold State.updBank
  simp only [pending_vit, vitals_mk, stepping_vit, fuse_vit, kek_vit, keys_vit, linkUp_vit, speed_vit, width_vit, align_vit,
      pair_vit, therm_vit]

theorem State.shiftRow_vitals (s : State) (bank : ℕ) (src : ℕ) (dst : ℕ) : (State.shiftRow s bank src dst).vitals = s.vitals := by
  unfold State.shiftRow
  (repeat' split) <;> rfl

theorem State.putRow_vitals (s : State) (bank : ℕ) (slot : ℕ) (key : ℕ) (ep : ℕ) (rec_ : ℕ) : (State.putRow s bank slot key ep
    rec_).vitals = s.vitals := by
  unfold State.putRow
  rfl

theorem State.settleRow_vitals (s : State) (bank key ep rec_ fuel : ℕ) :
    (State.settleRow s bank key ep rec_ fuel).vitals = s.vitals := by
  induction fuel generalizing s with
  | zero => rfl
  | succ n ih =>
    unfold State.settleRow
    split
    · exact State.putRow_vitals ..
    · exact (ih _).trans (State.shiftRow_vitals ..)
    · rfl

theorem State.displace_vitals (s : State) (v : ℕ × ℕ × ℕ) : (State.displace s v).vitals = s.vitals := by
  unfold State.displace
  rfl

theorem State.emFree_vitals (s : State) (seen : List ℕ) (b need fuel : ℕ) (t : State)
    (h : (State.emFree s seen b need fuel).1 = some t) : t.vitals = s.vitals := by
  induction fuel generalizing s seen b need t with
  | zero =>
    unfold State.emFree at h
    dsimp only at h
    split at h <;> cases h
    rfl
  | succ n ih =>
    unfold State.emFree at h
    split at h
    · cases h; rfl
    · split at h
      · cases h
      · dsimp only at h
        split at h <;> cases h
        refine foldl_vitals_fst _ (fun r v => ?_) _ _
        obtain ⟨u, l⟩ := r
        dsimp only
        split
        · rfl
        · split
          · next he => exact (State.displace_vitals ..).trans (ih _ _ _ _ _ (congrArg Prod.fst he))
          · rfl

theorem State.placeEm_vitals (s : State) (part key kw kv birth : ℕ) : (State.placeEm s part key kw kv birth).vitals = s.vitals := by
  unfold State.placeEm
  extract_lets need a b put use ra src u
  have hp : ∀ t n, (put t n).vitals = t.vitals := fun _ _ => rfl
  have hu : ∀ t n, (use t n).vitals = t.vitals := fun _ _ => rfl
  clear_value put use
  split
  · rw [hp, hu]
  · split
    · rw [hp, hu]
    · split
      · next he => rw [hp, hu]; exact State.emFree_vitals _ _ _ _ _ _ he
      · next he => rw [hp, hu]; exact State.emFree_vitals _ _ _ _ _ _ he
      · split
        · rw [hp]
        · have h : u.vitals = s.vitals := hp ..
          split
          · rw [State.raise_vitals, h]
          · exact h

theorem State.takeOrder_vitals (s : State) (p : ℕ) (order : ℕ) : (State.takeOrder s p order).vitals = s.vitals := by
  unfold State.takeOrder
  simp only [State.updEpochs_vitals]

theorem tableWriteBody_vitals (s : State) (c : Cmd) (x : ℕ) : (tableWriteBody s c x).state.vitals = s.vitals := by
  unfold tableWriteBody
  extract_lets t r chk name key ep vs again s0 vs' bank used need s1
  have h0 : s0.vitals = s.vitals := by simp only [s0, apply_ite State.vitals, State.replaceVersions_vitals, ite_self]
  have h1 : s1.vitals = s.vitals := (State.setVersions_vitals ..).trans h0
  clear_value s1 s0 used need again vs' vs ep chk
  split
  · rfl
  · split
    · (repeat' split) <;> simp only [fail_state, ok_state, wait_state, State.setVersions_vitals, State.settleRow_vitals,
        State.takeOrder_vitals, State.putRow_vitals, h0]
    · simp only [apply_ite Out.state, fail_state, ok_state, apply_ite State.vitals, State.placeEm_vitals, h1, ite_self]

theorem tableDeleteBody_vitals (s : State) (c : Cmd) (x : ℕ) : (tableDeleteBody s c x).state.vitals = s.vitals := by
  unfold tableDeleteBody
  simp only [apply_ite Out.state, fail_state, apply_ite State.vitals]
  (repeat' split) <;> simp only [fail_state, ok_state, State.replaceVersions_vitals]

theorem tableReadBody_vitals (s : State) (c : Cmd) (x : ℕ) : (tableReadBody s c x).state.vitals = s.vitals := by
  unfold tableReadBody
  simp only [apply_ite Out.state, fail_state, okResp_state, ite_self]

theorem State.skipAlias_vitals (s : State) (p : ℕ) (ep : ℕ) (a : ℕ) : (State.skipAlias s p ep a).vitals = s.vitals := by
  induction a generalizing s p ep with
  | zero => rfl
  | succ n ih =>
    unfold State.skipAlias
    simp only [apply_ite State.vitals, ih, State.updEpochs_vitals, ite_self]

theorem State.commitNow_vitals (s : State) (p : ℕ) (ep : ℕ) : (State.commitNow s p ep).1.vitals = s.vitals := by
  unfold State.commitNow
  simp only [skipAlias_vitals, State.updEpochs_vitals]

theorem epochCommitBody_vitals (s : State) (c : Cmd) (x : ℕ) : (epochCommitBody s c x).state.vitals = s.vitals := by
  unfold epochCommitBody
  extract_lets p e pend was u earlier
  have h : u.vitals = s.vitals := State.takeOrder_vitals ..
  clear_value u was earlier
  split
  · split <;> exact h
  · extract_lets writes r
    (repeat' split) <;> first | exact h | exact (State.commitNow_vitals ..).trans h

theorem epochDiscardBody_vitals (s : State) (c : Cmd) (x : ℕ) : (epochDiscardBody s c x).state.vitals = s.vitals := by
  unfold epochDiscardBody
  extract_lets p order ep es
  split
  · exact State.takeOrder_vitals ..
  · exact foldl_vitals _ (fun t e => State.replaceVersions_vitals ..) _ _

theorem State.reclaimEntry_vitals (s : State) (o : ℕ) (key : ℕ) (vs : List Ver) : (State.reclaimEntry s o key vs).vitals =
    s.vitals := by
  unfold State.reclaimEntry
  simp only [apply_ite State.vitals, replaceVersions_vitals, ite_self]

theorem tcamBankFormatBody_vitals (s : State) (c : Cmd) (x : ℕ) : (tcamBankFormatBody s c x).state.vitals = s.vitals := by
  unfold tcamBankFormatBody
  simp only [pending_vit, apply_ite Out.state, fail_state, ok_state, apply_ite State.vitals, vitals_mk, stepping_vit, fuse_vit,
      kek_vit, keys_vit, linkUp_vit, speed_vit, width_vit, align_vit, pair_vit, therm_vit, ite_self]

/-! ### Record -/

theorem State.updPerf_vitals (s : State) (k : ℕ) (f : Perf → Perf) : (State.updPerf s k f).vitals = s.vitals := by
  unfold State.updPerf
  simp only [pending_vit, vitals_mk, stepping_vit, fuse_vit, kek_vit, keys_vit, linkUp_vit, speed_vit, width_vit, align_vit,
      pair_vit, therm_vit]

theorem State.perfEvent_vitals (s : State) (slice : ℕ) (ev : ℕ) (n : ℕ) (part : Option ℕ) : (State.perfEvent s slice ev n
    part).vitals = s.vitals := by
  unfold State.perfEvent
  simp only [apply_ite State.vitals, updPerf_vitals, ite_self, implies_true, foldl_vitals]

theorem State.tileEvent_vitals (s : State) (tile : ℕ) (ev : ℕ) : (State.tileEvent s tile ev).vitals = s.vitals := by
  unfold State.tileEvent
  simp only [apply_ite State.vitals, updPerf_vitals, ite_self, implies_true, foldl_vitals]

theorem State.syncSlots_vitals (s : State) (k : ℕ) : (State.syncSlots s k).vitals = s.vitals := by
  unfold State.syncSlots
  simp only [pending_vit, apply_ite State.vitals, perfEvent_vitals, State.bump_vitals, vitals_mk, stepping_vit, fuse_vit,
      kek_vit, keys_vit, linkUp_vit, speed_vit, width_vit, align_vit, pair_vit, therm_vit, ite_self]

theorem State.takeSlot_vitals (s : State) (k : ℕ) (cat : ℕ) (part : ℕ) : (State.takeSlot s k cat part).vitals = s.vitals := by
  unfold State.takeSlot
  simp only [pending_vit, syncSlots_vitals, apply_ite State.vitals, perfEvent_vitals, State.bump_vitals, vitals_mk, stepping_vit,
      fuse_vit, kek_vit, keys_vit, linkUp_vit, speed_vit, width_vit, align_vit, pair_vit, therm_vit, ite_self]

theorem State.holdSlots_vitals (s : State) (k : ℕ) (most : ℕ) : (State.holdSlots s k most).vitals = s.vitals := by
  unfold State.holdSlots
  simp only [State.drawn_vitals, State.perfEvent_vitals, State.bump_vitals, apply_ite State.vitals, ite_self, pending_vit,
      vitals_mk, stepping_vit, fuse_vit, kek_vit, keys_vit, linkUp_vit, speed_vit, width_vit, align_vit, pair_vit, therm_vit]

theorem State.captureAt_vitals (s : State) (point : ℕ) (part : ℕ) (pp : Passport) (data : List Byte) : (State.captureAt s point
    part pp data).vitals = s.vitals := by
  unfold State.captureAt
  simp only [State.bump_vitals, State.noteTraffic_vitals, apply_ite State.vitals, ite_self, pending_vit, vitals_mk, stepping_vit,
      fuse_vit, kek_vit, keys_vit, linkUp_vit, speed_vit, width_vit, align_vit, pair_vit, therm_vit]

theorem State.capturePkt_vitals (s : State) (point : ℕ) (k : Pkt) : (State.capturePkt s point k).vitals = s.vitals := by
  unfold State.capturePkt
  simp only [captureAt_vitals]

theorem State.flowWrite_vitals (s : State) (ix : ℕ) : (State.flowWrite s ix).vitals = s.vitals := by
  unfold State.flowWrite
  dsimp only
  (repeat' split) <;> first | rfl | simp only [State.noteTraffic_vitals, State.bump_vitals, apply_ite State.vitals, ite_self,
      foldl_vitals, implies_true, pending_vit, vitals_mk, stepping_vit, fuse_vit, kek_vit, keys_vit, linkUp_vit, speed_vit,
      width_vit, align_vit, pair_vit, therm_vit]

theorem State.flowUpdate_vitals (s : State) (part : ℕ) (pp : Passport) (at_ : ℕ) (flags : ℕ) (fwd : Bool) : (State.flowUpdate s
    part pp at_ flags fwd).vitals = s.vitals := by
  unfold State.flowUpdate
  dsimp only
  (repeat' split) <;> first | rfl | simp only [State.bump_vitals, State.flowWrite_vitals, apply_ite State.vitals, ite_self,
      foldl_vitals, implies_true, pending_vit, vitals_mk, stepping_vit, fuse_vit, kek_vit, keys_vit, linkUp_vit, speed_vit,
      width_vit, align_vit, pair_vit, therm_vit]

/-! ### Policer -/

theorem State.police_vitals (s : State) (ix : ℕ) (pp : Passport) : (State.police s ix pp).1.vitals = s.vitals := by
  unfold State.police
  simp only [apply_ite Prod.fst, apply_ite State.vitals, State.bumpPair_vitals, State.updPolicer_vitals, ite_self]

theorem policerSetBody_vitals (s : State) (c : Cmd) (x : ℕ) : (policerSetBody s c x).state.vitals = s.vitals := by
  unfold policerSetBody
  simp only [apply_ite Out.state, fail_state, ok_state, apply_ite State.vitals, State.updPolicer_vitals, ite_self]

/-! ### Byway -/

theorem State.punt_vitals (s : State) (m : ℕ) (p : Punt) : (State.punt s m p).vitals = s.vitals := by
  unfold State.punt
  dsimp only
  (repeat' split) <;> first | rfl | simp only [State.bumpPair_vitals, State.dropRef_vitals, State.bump_vitals,
      State.police_vitals, State.capturePkt_vitals, apply_ite State.vitals, ite_self, foldl_vitals, implies_true, pending_vit,
      vitals_mk, stepping_vit, fuse_vit, kek_vit, keys_vit, linkUp_vit, speed_vit, width_vit, align_vit, pair_vit, therm_vit]

theorem State.shortEvent_vitals (s : State) (fn : ℕ) (ring : ℕ) : (State.shortEvent s fn ring).vitals = s.vitals := by
  unfold State.shortEvent
  simp only [apply_ite State.vitals, State.raise_vitals, State.updRing_vitals, ite_self]

theorem State.ringShort_vitals (s : State) (fn : ℕ) (ring : ℕ) (p : Punt) : (State.ringShort s fn ring p).vitals = s.vitals := by
  unfold State.ringShort
  simp only [shortEvent_vitals, State.dropRef_vitals, State.capturePkt_vitals, State.bump_vitals, State.updRing_vitals]

theorem State.deliverPunt_vitals (s : State) (fn : ℕ) (ring : ℕ) (n : ℕ) (p : Punt) : (State.deliverPunt s fn ring n p).vitals =
    s.vitals := by
  unfold State.deliverPunt
  simp only [shortEvent_vitals, State.dropRef_vitals, State.signalRing_vitals, State.bumpPair_vitals, State.updRing_vitals]

theorem State.puntNotClaimed_vitals (s : State) (p : Punt) : (State.puntNotClaimed s p).vitals = s.vitals := by
  unfold State.puntNotClaimed
  simp only [State.dropRef_vitals, apply_ite State.vitals, State.bump_vitals, ite_self]

theorem State.enterCore_vitals (s : State) (input : ℕ) (k : Pkt) : (State.enterCore s input k).vitals = s.vitals := by
  unfold State.enterCore
  simp only [State.updInput_vitals, apply_ite State.vitals, ite_self, pending_vit, vitals_mk, stepping_vit, fuse_vit, kek_vit,
      keys_vit, linkUp_vit, speed_vit, width_vit, align_vit, pair_vit, therm_vit]

theorem State.injectCount_vitals (s : State) (fn : ℕ) (ring : ℕ) (st : ℕ) (data : Option (List Byte)) : (State.injectCount s fn
    ring st data).vitals = s.vitals := by
  unfold State.injectCount
  simp only [apply_ite State.vitals, State.bump_vitals, ite_self]

theorem State.injectFrame_vitals (s : State) (fn : ℕ) (ring : ℕ) (part : ℕ) (bs : List Byte) : (State.injectFrame s fn ring part
    bs).vitals = s.vitals := by
  unfold State.injectFrame
  simp only [enterCore_vitals, State.bumpPair_vitals, State.takeRef_vitals]

/-! ### Action -/

theorem State.act_vitals (s : State) (p : ℕ) (w : Walk) (dev : List Byte) (r : Results) (err : RxErr) (k : Pkt) :
    (State.act s p w dev r err k).1.vitals = s.vitals := by
  unfold State.act
  extract_lets ws s1 dw disp pol mir sb k' ref
  have h1 : s1.vitals = s.vitals := by
    unfold s1
    split
    · exact State.bumpPair_vitals ..
    · rfl
  clear_value s1 ref
  split
  · exact h1
  · split
    · exact h1
    · cases ref with
      | none => dsimp only; split <;> exact h1
      | some a =>
        have hr := State.resolve_vitals s1 k.part k.ep a k.pp.hash err
        dsimp only
        split
        · rename_i u he
          rw [he] at hr
          exact hr.trans h1
        · rename_i u nh he
          rw [he] at hr
          have hu : u.vitals = s.vitals := hr.trans h1
          split
          · exact hu
          · split
            · exact hu
            · exact (State.drawn_vitals ..).trans hu

/-! ### Frame -/

theorem State.countFlags_vitals (s : State) (p : ℕ) (flags : ℕ) : (State.countFlags s p flags).vitals = s.vitals := by
  unfold State.countFlags
  simp only [apply_ite State.vitals, State.bump_vitals, ite_self, implies_true, foldl_vitals]

theorem State.gotControl_vitals (s : State) (p : ℕ) (f : List Byte) : (State.gotControl s p f).vitals = s.vitals := by
  unfold State.gotControl
  simp only [apply_ite State.vitals, State.bump_vitals, State.gotPause_vitals, State.gotPfc_vitals, ite_self]

theorem State.steerIn_vitals (s : State) (p k : ℕ) (f : List Byte) (t : State) (h : State.steerIn s p k f = some t) :
    t.vitals = s.vitals := by
  unfold State.steerIn at h
  extract_lets at h
  split at h
  · cases h
  · cases h; rfl

theorem State.stageMirror_vitals (s : State) (k : ℕ) (pkt : Pkt) : (State.stageMirror s k pkt).vitals = s.vitals := by
  unfold State.stageMirror
  simp only [State.updStaging_vitals, State.takeRef_vitals, State.bump_vitals, apply_ite State.vitals, ite_self]

theorem State.puntPkt_vitals (s : State) (k : ℕ) (p : Punt) : (State.puntPkt s k p).vitals = s.vitals := by
  unfold State.puntPkt
  dsimp only
  (repeat' split) <;> first | rfl | simp only [State.police_vitals, State.dropRef_vitals, State.capturePkt_vitals,
      State.stageMirror_vitals, State.punt_vitals, apply_ite State.vitals, ite_self, foldl_vitals, implies_true, pending_vit,
      vitals_mk, stepping_vit, fuse_vit, kek_vit, keys_vit, linkUp_vit, speed_vit, width_vit, align_vit, pair_vit, therm_vit]

theorem State.slicePunt_vitals (s : State) (k : ℕ) (p : Punt) : (State.slicePunt s k p).vitals = s.vitals := by
  unfold State.slicePunt
  simp only [State.perfEvent_vitals, State.takeSlot_vitals, State.puntPkt_vitals]

theorem State.sliceDrop_vitals (s : State) (k : ℕ) (point : ℕ) (pkt : Pkt) : (State.sliceDrop s k point pkt).vitals = s.vitals :=
    by
  unfold State.sliceDrop
  simp only [State.takeSlot_vitals, State.dropRef_vitals, State.capturePkt_vitals]

theorem State.withhold_vitals (s : State) (p : ℕ) (k : ℕ) (pkt : Pkt) : (State.withhold s p k pkt).vitals = s.vitals := by
  unfold State.withhold
  simp only [State.takeSlot_vitals, State.dropRef_vitals, State.flowUpdate_vitals, State.bump_vitals]

theorem State.stage_vitals (s : State) (p : ℕ) (k : ℕ) (pkt : Pkt) : (State.stage s p k pkt).vitals = s.vitals := by
  unfold State.stage
  simp only [apply_ite State.vitals, State.takeSlot_vitals, State.dropRef_vitals, State.capturePkt_vitals, State.bump_vitals,
      State.pauseCheck_vitals, State.updStaging_vitals, ite_self]

theorem State.parseEnd_vitals (s : State) (p : ℕ) (k : ℕ) (w : Walk) (pkt : Pkt) : (State.parseEnd s p k w pkt).vitals = s.vitals
    := by
  unfold State.parseEnd
  simp only [apply_ite State.vitals, slicePunt_vitals, State.flowUpdate_vitals, State.bumpPair_vitals, sliceDrop_vitals, ite_self]

theorem State.lookupEvents_vitals (s : State) (k : ℕ) (part : ℕ) (keys : List Key) (r : Results) (err : RxErr) (ep : ℕ) :
    (State.lookupEvents s k part keys r err ep).vitals = s.vitals := by
  unfold State.lookupEvents
  simp only [State.perfEvent_vitals, State.drawn_vitals, State.holdSlots_vitals, apply_ite State.vitals, ite_self]

theorem State.lookAndAct_vitals (s : State) (p : ℕ) (k : ℕ) (w : Walk) (err : RxErr) (pkt : Pkt) : (State.lookAndAct s p k w err
    pkt).vitals = s.vitals := by
  unfold State.lookAndAct
  dsimp only
  (repeat' split) <;> simp [State.search_vitals, State.lookupEvents_vitals, State.act_vitals, State.flowUpdate_vitals,
      State.bump_vitals, State.sliceDrop_vitals, State.slicePunt_vitals, State.stage_vitals]

theorem State.goodFrame_vitals (s : State) (p seq : ℕ) (f : List Byte) (err : RxErr) :
    (State.goodFrame s p seq f err).vitals = s.vitals := by
  unfold State.goodFrame
  extract_lets w hash k
  split
  · rfl
  · split
    · exact State.bump_vitals ..
    · rename_i t ht
      have h := State.steerIn_vitals _ _ _ _ _ ht
      extract_lets u pkt src pkt' v
      have hu : u.vitals = s.vitals := (State.takeRef_vitals ..).trans h
      have hv : v.vitals = s.vitals := (State.perfEvent_vitals ..).trans hu
      clear_value u v pkt' pkt
      split
      · exact (State.withhold_vitals ..).trans hu
      · split
        · exact (State.lookAndAct_vitals ..).trans hv
        · exact (State.parseEnd_vitals ..).trans hv

theorem State.badFrame_vitals (s : State) (p seq flags : ℕ) (f : List Byte) :
    (State.badFrame s p seq flags f).vitals = s.vitals := by
  unfold State.badFrame
  extract_lets s1 k1 k2
  have h1 : s1.vitals = s.vitals := State.countFlags_vitals ..
  clear_value s1 k2
  split
  · split
    · exact h1
    · split
      · exact (State.bump_vitals ..).trans h1
      · rename_i t ht
        have h := (State.steerIn_vitals _ _ _ _ _ ht).trans h1
        extract_lets u pkt
        have hu : u.vitals = s.vitals := (State.takeRef_vitals ..).trans h
        clear_value u pkt
        split
        · exact (State.withhold_vitals ..).trans hu
        · exact (State.slicePunt_vitals ..).trans ((State.flowUpdate_vitals ..).trans hu)
  · exact (State.captureAt_vitals ..).trans h1

theorem State.countFec_vitals (s : State) (p : ℕ) (err : RxErr) : (State.countFec s p err).vitals = s.vitals := by
  unfold State.countFec
  simp only [State.bumpNz_vitals, apply_ite State.vitals, ite_self, foldl_vitals, implies_true]

theorem State.countLine_vitals (s : State) (p : ℕ) (err : RxErr) : (State.countLine s p err).vitals = s.vitals := by
  unfold State.countLine
  simp only [State.bumpNz_vitals, State.countFec_vitals, apply_ite State.vitals, ite_self]

theorem State.idleLine_vitals (s : State) (p : ℕ) (err : RxErr) : (State.idleLine s p err).vitals = s.vitals := by
  unfold State.idleLine
  simp only [State.countFec_vitals, State.bumpNz_vitals, apply_ite State.vitals, ite_self]

theorem State.gotFrame_vitals (s : State) (p : ℕ) (data : List Byte) (err : RxErr) : (State.gotFrame s p data err).vitals =
    s.vitals := by
  unfold State.gotFrame
  simp only [State.countLine_vitals, State.takeSeq_vitals, State.captureAt_vitals, State.bump_vitals, State.badFrame_vitals,
      State.bumpPair_vitals, State.gotControl_vitals, State.goodFrame_vitals, apply_ite State.vitals, ite_self]

end Sys2Proof.Machine
end

