-- ==== Sys2Proof/Laws/VitalsQueue.lean ====
section
/-! SUPPORT. Operations that leave the vitals as they are (the queue of commands, fuses and keys, link, alignment, pair and thermal
states): queues, scheduling, fabric, modes, pair, memories and the registers. -/

namespace Sys2Proof.Machine

/-! ### Switch -/

theorem State.coreDrop_vitals (s : State) (k : Pkt) : (State.coreDrop s k).vitals = s.vitals := by
  unfold State.coreDrop
  simp only [State.dropRef_vitals, State.capturePkt_vitals]

theorem State.dedup_vitals (s : State) (k : Pkt) : (State.dedup s k).1.vitals = s.vitals := by
  unfold State.dedup
  split
  · rfl
  · extract_lets part key put fresh
    have hput : ∀ t w, (put t w).vitals = t.vitals := fun _ _ => rfl
    clear_value put fresh key part
    split
    · exact hput ..
    · split
      · exact hput ..
      · split
        · exact hput ..
        · exact (State.dropRef_vitals ..).trans ((State.capturePkt_vitals ..).trans (State.bump_vitals ..))

theorem State.markAt_vitals (s : State) (out : ℕ) (k : Pkt) : (State.markAt s out k).1.vitals = s.vitals := by
  unfold State.markAt
  simp only [apply_ite Prod.fst, apply_ite State.vitals, State.bump_vitals, ite_self]

theorem State.noteCredit_vitals (s : State) (j : ℕ) : (State.noteCredit s j).vitals = s.vitals := by
  unfold State.noteCredit
  simp only [State.updLink_vitals]

theorem State.noteOutput_vitals (s : State) (out : ℕ) : (State.noteOutput s out).vitals = s.vitals := by
  unfold State.noteOutput
  simp only [apply_ite State.vitals, noteCredit_vitals, ite_self]

theorem State.deliverOut_vitals (s : State) (out : ℕ) (localIn : Bool) (k : Pkt) :
    (State.deliverOut s out localIn k).vitals = s.vitals := by
  unfold State.deliverOut
  split
  · exact State.punt_vitals ..
  · split
    · have h := State.dedup_vitals s k
      split <;> rename_i he <;> rw [he] at h
      · exact (State.updOutput_vitals ..).trans h
      · exact h
    · exact (State.noteOutput_vitals ..).trans (State.updOutput_vitals ..)

theorem State.countLost_vitals (s : State) (k : Pkt) (r : Route) : (State.countLost s k r).vitals = s.vitals := by
  unfold State.countLost
  dsimp only
  (repeat' split) <;> first | rfl | simp only [State.bump_vitals, apply_ite State.vitals, ite_self, foldl_vitals, implies_true,
      pending_vit, vitals_mk, stepping_vit, fuse_vit, kek_vit, keys_vit, linkUp_vit, speed_vit, width_vit, align_vit, pair_vit,
      therm_vit]

theorem State.purgeInput_vitals (s : State) (input : ℕ) : (State.purgeInput s input).vitals = s.vitals := by
  unfold State.purgeInput
  refine foldl_vitals _ (fun t k => ?_) _ _
  split
  · simp only [State.coreDrop_vitals, State.bump_vitals, State.updInput_vitals]
  · split
    · rfl
    · simp only [State.coreDrop_vitals, State.countLost_vitals, State.updInput_vitals]

theorem State.beginXfer_vitals (s : State) (pair : ℕ × ℕ) : (State.beginXfer s pair).vitals = s.vitals := by
  unfold State.beginXfer
  simp only [pending_vit, State.updInput_vitals, markAt_vitals]
  (repeat' split) <;> simp only [vitals_mk, stepping_vit, State.updInput_vitals, markAt_vitals, fuse_vit, kek_vit, keys_vit,
      linkUp_vit, speed_vit, width_vit, align_vit, pair_vit, therm_vit]

theorem State.moveCell_vitals (s : State) (x : Xfer) : (State.moveCell s x).vitals = s.vitals := by
  unfold State.moveCell
  simp only [pending_vit, apply_ite State.vitals, vitals_mk, stepping_vit, fuse_vit, kek_vit, keys_vit, linkUp_vit, speed_vit,
      width_vit, align_vit, pair_vit, therm_vit, deliverOut_vitals, freeRx_vitals, ite_self]

theorem State.carryCell_vitals (s : State) (pair : ℕ × ℕ) : (State.carryCell s pair).vitals = s.vitals := by
  unfold State.carryCell
  dsimp only
  (repeat' split) <;> first | rfl | simp only [State.beginXfer_vitals, State.moveCell_vitals, apply_ite State.vitals, ite_self,
      foldl_vitals, implies_true, pending_vit, vitals_mk, stepping_vit, fuse_vit, kek_vit, keys_vit, linkUp_vit, speed_vit,
      width_vit, align_vit, pair_vit, therm_vit]

/-! ### Inn -/

theorem State.growChain_vitals (s : State) (c : ℕ) (hIn : ℕ) (n : ℕ) : (State.growChain s c hIn n).vitals = s.vitals := by
  unfold State.growChain
  simp only [linkRooms_vitals, takeRooms_vitals, State.updPool_vitals]

theorem State.spillBlocked_vitals (s : State) (part : ℕ) (q : ℕ) : (State.spillBlocked s part q).vitals = s.vitals := by
  unfold State.spillBlocked
  simp only [State.cellarState_vitals, State.updQueue_vitals, State.bumpNz_vitals]

theorem State.spillPage_vitals (s : State) (part : ℕ) (q : ℕ) (page : ℕ) (out : ℕ) : (State.spillPage s part q page out).vitals =
    s.vitals := by
  unfold State.spillPage
  simp only [State.drawn_vitals, State.touch_vitals, State.noteTraffic_vitals, State.readChain_vitals, State.updQueue_vitals,
      State.linkRooms_vitals, State.freeRooms_vitals, State.bump_vitals, apply_ite State.vitals, ite_self, foldl_vitals,
      implies_true, pending_vit, vitals_mk, stepping_vit, fuse_vit, kek_vit, keys_vit, linkUp_vit, speed_vit, width_vit,
      align_vit, pair_vit, therm_vit]

theorem innPoolSetBody_vitals (s : State) (c : Cmd) (x : ℕ) : (innPoolSetBody s c x).state.vitals = s.vitals := by
  unfold innPoolSetBody
  simp only [apply_ite Out.state, fail_state, ok_state, apply_ite State.vitals, State.updPool_vitals, ite_self]

theorem innQueueSetBody_vitals (s : State) (c : Cmd) (x : ℕ) : (innQueueSetBody s c x).state.vitals = s.vitals := by
  unfold innQueueSetBody
  extract_lets q p s'
  have h : s'.vitals = s.vitals := State.updQueue_vitals ..
  clear_value s'
  (repeat' split) <;> first | rfl | exact (State.landed_vitals _).trans h

theorem State.lowerQuarantined_vitals (s : State) (part : ℕ) (n : ℕ) : (State.lowerQuarantined s part n).vitals = s.vitals := by
  unfold State.lowerQuarantined
  simp only [State.setCtr_vitals]

/-! ### Ledger -/

theorem State.tagQueue_vitals (s : State) (p : ℕ) (n : ℕ) (len : ℕ) : (State.tagQueue s p n len).vitals = s.vitals := by
  unfold State.tagQueue
  simp only [State.updQueue_vitals]

theorem State.acceptPkt_vitals (s : State) (n : ℕ) (p : ℕ) (chain : ℕ) (bound : Option ℕ) (k : Pkt) : (State.acceptPkt s n p
    chain bound k).vitals = s.vitals := by
  unfold State.acceptPkt
  simp only [State.tileEvent_vitals, State.bumpPair_vitals, apply_ite State.vitals, tagQueue_vitals, State.updQueue_vitals,
      State.bump_vitals, ite_self]

theorem State.attachCheck_vitals (s : State) (n : ℕ) (k : Pkt) (t : State) (h : State.attachCheck s n k = some t) :
    t.vitals = s.vitals := by
  unfold State.attachCheck at h
  extract_lets d part at h
  split at h
  · cases h; exact State.bump_vitals ..
  · split at h
    · cases h; exact State.bump_vitals ..
    · split at h
      · cases h; exact (State.updDomain_vitals ..).trans (State.bump_vitals ..)
      · split at h <;> cases h
        rfl

theorem State.fits34_vitals (s : State) (n : ℕ) (copy : Option ℕ) (k : Pkt) :
    (State.fits34 s n copy k).1.vitals = s.vitals := by
  unfold State.fits34
  extract_lets u
  split
  · rfl
  · split
    · rfl
    · have ha := State.allocChain_vitals s u.pool (roomsOf k.pp.length)
      split <;> rename_i he <;> rw [he] at ha <;> exact ha

theorem State.ledgerDrop_vitals (s : State) (copy : Option ℕ) (k : Pkt) : (State.ledgerDrop s copy k).vitals = s.vitals := by
  unfold State.ledgerDrop
  simp only [State.dropRef_vitals, apply_ite State.vitals, State.capturePkt_vitals, ite_self]

theorem State.countRefusal_vitals (s : State) (n : ℕ) (item : ℕ) : (State.countRefusal s n item).vitals = s.vitals := by
  unfold State.countRefusal
  simp only [State.tileEvent_vitals, State.bump_vitals]

theorem State.offerSpill_vitals (s : State) (n p : ℕ) (copy : Option ℕ) (k : Pkt) :
    (State.offerSpill s n p copy k).1.vitals = s.vitals := by
  unfold State.offerSpill
  extract_lets sq u
  have hu : u.vitals = s.vitals := State.bump_vitals ..
  clear_value u sq
  cases ha : u.attachCheck sq k with
  | some t =>
    dsimp only
    rw [State.dropRef_vitals, State.attachCheck_vitals _ _ _ _ ha, hu]
  | none =>
    have hf := State.fits34_vitals u sq copy k
    dsimp only
    generalize u.fits34 sq copy k = r at hf ⊢
    obtain ⟨t, c | l⟩ := r <;> dsimp only at hf ⊢
    · rw [State.acceptPkt_vitals, hf, hu]
    · rw [State.ledgerDrop_vitals, State.countRefusal_vitals, hf, hu]

theorem State.refuse_vitals (s : State) (n : ℕ) (p : ℕ) (item : ℕ) (copy : Option ℕ) (k : Pkt) : (State.refuse s n p item copy
    k).1.vitals = s.vitals := by
  unfold State.refuse
  simp only [apply_ite Prod.fst, apply_ite State.vitals, offerSpill_vitals, countRefusal_vitals, ledgerDrop_vitals, ite_self]

theorem State.offer_vitals (s : State) (copy : Option ℕ) (k : Pkt) : (State.offer s copy k).1.vitals = s.vitals := by
  unfold State.offer
  extract_lets n p u v h part
  have hv : v.vitals = s.vitals := by
    unfold v
    split
    · exact State.bump_vitals ..
    · rfl
  clear_value v h part u
  cases ha : s.attachCheck n k with
  | some t =>
    dsimp only
    rw [State.dropRef_vitals, State.attachCheck_vitals _ _ _ _ ha]
  | none =>
    dsimp only
    split
    · rw [State.ledgerDrop_vitals, State.tileEvent_vitals, State.bump_vitals]
    · split
      · rw [State.refuse_vitals, hv]
      · have hf := State.fits34_vitals v n copy k
        generalize v.fits34 n copy k = r at hf ⊢
        obtain ⟨t, c | l⟩ := r <;> dsimp only at hf ⊢
        · split
          · rw [State.acceptPkt_vitals, hf, hv]
          · rw [State.acceptPkt_vitals, State.updQueue_vitals, hf, hv]
        · rw [State.refuse_vitals, hf, hv]

theorem State.checked_vitals (s s' : State) (r : ℕ) (h : s'.vitals = s.vitals) : (State.checked s s' r).state.vitals = s.vitals
    := by
  unfold State.checked
  split
  · exact h
  · rfl
  · rfl

theorem ledgerClassBody_vitals (s : State) (c : Cmd) (x : ℕ) : (ledgerClassBody s c x).state.vitals = s.vitals := by
  unfold ledgerClassBody
  extract_lets v
  (repeat' split) <;> first | rfl | exact State.landed_vitals _

theorem ledgerPortBody_vitals (s : State) (c : Cmd) (x : ℕ) : (ledgerPortBody s c x).state.vitals = s.vitals := by
  unfold ledgerPortBody
  extract_lets p o
  (repeat' split) <;> first | rfl | exact (State.landed_vitals _).trans (State.updEgress_vitals ..)

theorem ledgerQueueBody_vitals (s : State) (c : Cmd) (x : ℕ) : (ledgerQueueBody s c x).state.vitals = s.vitals := by
  unfold ledgerQueueBody
  extract_lets n u t s1 s2
  have ht : t.vitals = s.vitals := by
    unfold t
    split
    · rfl
    · exact State.syncV_vitals ..
  have h1 : s1.vitals = s.vitals := (State.updQueue_vitals ..).trans ht
  have h2 : s2.vitals = s.vitals := by
    unfold s2
    clear_value s1
    split
    · split
      · exact (State.tagQueue_vitals ..).trans h1
      · exact h1
    · exact h1
  clear_value s2
  split
  · rfl
  · split
    · rfl
    · split
      · exact (State.landed_vitals _).trans h2
      · exact State.checked_vitals _ _ _ h2

theorem ledgerReadBody_vitals (s : State) (c : Cmd) (x : ℕ) : (ledgerReadBody s c x).state.vitals = s.vitals := by
  unfold ledgerReadBody
  simp only [apply_ite Out.state, fail_state, okResp_state, ite_self]

/-! ### Sched -/

theorem State.treeChange_vitals (s s' : State) (b r : Bool) (h : s'.vitals = s.vitals) :
    (State.treeChange s s' b r).state.vitals = s.vitals := by
  unfold State.treeChange
  extract_lets c
  split
  · rfl
  · split
    · rfl
    · split
      · exact State.checked_vitals _ _ _ h
      · exact (State.landed_vitals _).trans h

theorem schedNodeBody_vitals (s : State) (c : Cmd) (x : ℕ) : (schedNodeBody s c x).state.vitals = s.vitals := by
  unfold schedNodeBody
  extract_lets level ix s'
  have h : s'.vitals = s.vitals := (State.updNode_vitals ..).trans (State.syncAllV_vitals ..)
  clear_value s'
  split
  · rfl
  · split
    · rfl
    · exact State.treeChange_vitals _ _ _ _ h

theorem schedQueueBody_vitals (s : State) (c : Cmd) (x : ℕ) : (schedQueueBody s c x).state.vitals = s.vitals := by
  unfold schedQueueBody
  extract_lets n u s'
  have h : s'.vitals = s.vitals := (State.updQueue_vitals ..).trans (State.syncAllV_vitals ..)
  clear_value s'
  split
  · rfl
  · split
    · rfl
    · exact State.treeChange_vitals _ _ _ _ h

theorem State.markBounds_vitals (s : State) (p : ℕ) (old : Bool) : (State.markBounds s p old).vitals = s.vitals := by
  unfold State.markBounds
  simp only [State.updQueue_vitals, State.updEgress_vitals, foldl_vitals, implies_true]

theorem State.gatePend_vitals (s : State) (p : ℕ) (new : Option GateList) (raising : Bool) : (State.gatePend s p new
    raising).vitals = s.vitals := by
  unfold State.gatePend
  simp only [State.syncV_vitals, State.markBounds_vitals, State.landed_vitals, State.updGate_vitals, apply_ite State.vitals,
      ite_self]

theorem gateSetBody_vitals (s : State) (c : Cmd) (x : ℕ) : (gateSetBody s c x).state.vitals = s.vitals := by
  unfold gateSetBody
  simp only [apply_ite Out.state, fail_state, wait_state, okR_state, apply_ite State.vitals, State.updGate_vitals,
      State.syncV_vitals]
  (repeat' split) <;> simp only [wait_state, State.gatePend_vitals, fail_state]

theorem State.raiseGateStarted_vitals (s : State) (p : ℕ) (start : ℕ) : (State.raiseGateStarted s p start).vitals = s.vitals := by
  unfold State.raiseGateStarted
  simp only [State.raise_vitals]

theorem gateSetSpec_calm : gateSetSpec.Calm := fun t c x => gateSetBody_vitals t c x

theorem State.gateFinish_vitals (s : State) (p : ℕ) (c : GateChange) (start : ℕ) :
    (State.gateFinish s p c start).vitals = s.vitals := by
  unfold State.gateFinish
  extract_lets u w v r
  have hu : u.vitals = s.vitals := (State.updGate_vitals ..).trans (State.syncV_vitals ..)
  have hw : w.vitals = s.vitals := (State.markBounds_vitals ..).trans hu
  have hv : v.vitals = s.vitals := by
    unfold v
    clear_value w
    split
    · exact (State.raiseGateStarted_vitals ..).trans hw
    · exact hw
  clear_value v
  rw [State.resumeWaits_vitals _ _ _ (by simpa using gateSetSpec_calm), State.endWaits_vitals, hv]

/-! ### Release -/

theorem State.chargeAll_vitals (s : State) (n : ℕ) (len : ℕ) (path : Path4) : (State.chargeAll s n len path).vitals = s.vitals :=
    by
  unfold State.chargeAll
  simp only [State.updNode_vitals, implies_true, foldl_vitals, State.updQueue_vitals]

theorem State.nextTag_vitals (s : State) (p : ℕ) (n : ℕ) : (State.nextTag s p n).vitals = s.vitals := by
  unfold State.nextTag
  simp only [State.updQueue_vitals]

theorem State.reTag_vitals (s : State) (p : ℕ) (n : ℕ) : (State.reTag s p n).vitals = s.vitals := by
  unfold State.reTag
  simp only [State.updQueue_vitals]

theorem State.dropPoisoned_vitals (s : State) (n : ℕ) (p : ℕ) (k : QPkt) : (State.dropPoisoned s n p k).vitals = s.vitals := by
  unfold State.dropPoisoned
  simp only [State.dropRef_vitals, State.dropHead_vitals, State.capturePkt_vitals, State.bump_vitals]

theorem State.releaseHead_vitals (s : State) (p : ℕ) (n : ℕ) (prom : Bool) (k : QPkt) : (State.releaseHead s p n prom k).vitals =
    s.vitals := by
  unfold State.releaseHead
  simp only [State.tileEvent_vitals, apply_ite State.vitals, State.bump_vitals, State.bumpPair_vitals, State.updEgress_vitals,
      clearDeficits_vitals, nextTag_vitals, chargeAll_vitals, State.updQueue_vitals, State.dropHead_vitals, ite_self]

theorem State.noteGateHeld_vitals (s : State) (p : ℕ) : (State.noteGateHeld s p).vitals = s.vitals := by
  unfold State.noteGateHeld
  refine foldl_vitals _ (fun s a => ?_) _ _
  (repeat' split) <;> simp only [State.tileEvent_vitals, State.bump_vitals, State.updQueue_vitals]

theorem State.notePullLate_vitals (s : State) (p : ℕ) (n : ℕ) : (State.notePullLate s p n).vitals = s.vitals := by
  unfold State.notePullLate
  simp only 
  (repeat' split) <;> simp only [State.tileEvent_vitals, State.bump_vitals, State.updQueue_vitals]

/-! ### Egress -/

theorem State.editDrop_vitals (s : State) (p : ℕ) (n : ℕ) (k : Pkt) (item : ℕ) : (State.editDrop s p n k item).vitals = s.vitals
    := by
  unfold State.editDrop
  simp only [State.takeSlot_vitals, State.updQueue_vitals, State.capturePkt_vitals, State.bump_vitals]

theorem State.editPass_vitals (s : State) (p : ℕ) (e : Rel) (f : List Byte) (tsOp : ℕ) : (State.editPass s p e f tsOp).vitals =
    s.vitals := by
  unfold State.editPass
  simp only [State.updEgress_vitals, apply_ite State.vitals, State.bump_vitals, ite_self]

theorem State.readRewrite_vitals (s : State) (ix : ℕ) (ep : ℕ) (part : ℕ) (o0 : ℕ) (o1 : ℕ) : (State.readRewrite s ix ep part o0
    o1).vitals = s.vitals := by
  unfold State.readRewrite
  simp only [State.readTwo_vitals, State.poisonVisible_vitals, State.recRewritten_vitals, apply_ite State.vitals, ite_self]

theorem State.oneStep_vitals (s : State) (p : ℕ) (t : ℕ) (pp : Passport) (f : List Byte) : (State.oneStep s p t pp f).1.vitals =
    s.vitals := by
  unfold State.oneStep
  simp only 
  (repeat' split) <;> simp only [State.bump_vitals]

theorem State.twoStep_vitals (s : State) (p : ℕ) (t : ℕ) (pp : Passport) (f : List Byte) : (State.twoStep s p t pp f).vitals =
    s.vitals := by
  unfold State.twoStep
  simp only [State.pushTs_vitals]

theorem State.departed_vitals (s : State) (p : ℕ) (e : Rel) (len : ℕ) : (State.departed s p e len).vitals = s.vitals := by
  unfold State.departed
  simp only 
  (repeat' split) <;> simp only [State.updQueue_vitals, State.bump_vitals, State.raise_vitals]

theorem State.toLine_vitals (s : State) (p : ℕ) (f : List Byte) : (State.toLine s p f).vitals = s.vitals := by
  unfold State.toLine
  simp only [State.updEgress_vitals, State.updClient_vitals, State.updPort_vitals, apply_ite State.vitals, ite_self]

/-! ### Caravan -/

theorem State.makeCopies_vitals (s : State) (input : ℕ) (l : List Pkt) : (State.makeCopies s input l).1.vitals = s.vitals := by
  unfold State.makeCopies
  refine foldl_vitals_fst _ (fun r k => ?_) _ _
  obtain ⟨t, made⟩ := r
  dsimp only
  split
  · exact State.takeRef_vitals ..
  · exact (State.capturePkt_vitals ..).trans (State.countLost_vitals ..)

theorem State.countNoCopy_vitals (s : State) (k : Pkt) : (State.countNoCopy s k).vitals = s.vitals := by
  unfold State.countNoCopy
  simp only [apply_ite State.vitals, State.bump_vitals, ite_self]

theorem State.replicate_vitals (s : State) (input : ℕ) (k : Pkt) : (State.replicate s input k).vitals = s.vitals := by
  unfold State.replicate
  simp only [State.makeCopies_vitals, State.countNoCopy_vitals, State.updInput_vitals, State.dropRef_vitals, apply_ite
      State.vitals, ite_self, pending_vit, vitals_mk, stepping_vit, fuse_vit, kek_vit, keys_vit, linkUp_vit, speed_vit,
      width_vit, align_vit, pair_vit, therm_vit]

theorem State.decideCopy_vitals (s : State) (c : ℕ) (g : ℕ) (k : Pkt) : (State.decideCopy s c g k).vitals = s.vitals := by
  unfold State.decideCopy
  dsimp only
  (repeat' split) <;> first | rfl | simp only [State.dropRef_vitals, State.offer_vitals, State.bump_vitals,
      State.releaseChain_vitals, State.capturePkt_vitals, apply_ite State.vitals, ite_self, foldl_vitals, implies_true,
      pending_vit, vitals_mk, stepping_vit, fuse_vit, kek_vit, keys_vit, linkUp_vit, speed_vit, width_vit, align_vit, pair_vit,
      therm_vit]

theorem mcastGroupBody_vitals (s : State) (c : Cmd) (x : ℕ) : (mcastGroupBody s c x).state.vitals = s.vitals := by
  unfold mcastGroupBody
  extract_lets g e last old src u chains
  have hu : u.vitals = s.vitals := (State.recRewritten_vitals ..).trans (vitals_caravan ..)
  clear_value u chains old last e
  split
  · rfl
  · split
    · rfl
    · split <;> exact hu

theorem mcastGroupSpec_calm : mcastGroupSpec.Calm := fun t c x => mcastGroupBody_vitals t c x

theorem mcastReadBody_vitals (s : State) (c : Cmd) (x : ℕ) : (mcastReadBody s c x).state.vitals = s.vitals := by
  unfold mcastReadBody
  simp only [apply_ite Out.state, fail_state, okResp_state, ite_self]

theorem mcastMembersBody_vitals (s : State) (c : Cmd) (x : ℕ) : (mcastMembersBody s c x).state.vitals = s.vitals := by
  unfold mcastMembersBody
  simp only [pending_vit, apply_ite Out.state, fail_state, ok_state, apply_ite State.vitals, State.recRewritten_vitals,
      vitals_mk, stepping_vit, fuse_vit, kek_vit, keys_vit, linkUp_vit, speed_vit, width_vit, align_vit, pair_vit, therm_vit,
      implies_true, foldl_vitals, ite_self]

theorem mcastEsetBody_vitals (s : State) (c : Cmd) (x : ℕ) : (mcastEsetBody s c x).state.vitals = s.vitals := by
  unfold mcastEsetBody
  simp only [pending_vit, apply_ite Out.state, fail_state, ok_state, apply_ite State.vitals, State.recRewritten_vitals,
      vitals_mk, stepping_vit, fuse_vit, kek_vit, keys_vit, linkUp_vit, speed_vit, width_vit, align_vit, pair_vit, therm_vit,
      ite_self]

theorem State.pushSecond_vitals (s : State) (w : ℕ) (k : Pkt) : (State.pushSecond s w k).vitals = s.vitals := by
  unfold State.pushSecond
  simp only [pending_vit, apply_ite State.vitals, State.dropRef_vitals, State.bump_vitals, vitals_mk, stepping_vit, fuse_vit,
      kek_vit, keys_vit, linkUp_vit, speed_vit, width_vit, align_vit, pair_vit, therm_vit, ite_self]

theorem State.endReplications_vitals (s : State) : (State.endReplications s).vitals = s.vitals := by
  unfold State.endReplications
  refine foldl_vitals _ (fun s a => ?_) _ _
  split
  · split
    · rfl
    · exact State.resumeAfter_vitals _ _ _ _ mcastGroupSpec_calm
  · rfl

/-! ### TwinClaim -/

theorem State.updTwin_vitals (s : State) (f : Twin → Twin) (h : ∀ t, (f t).pair = t.pair) :
    (State.updTwin s f).vitals = s.vitals := by
  unfold State.updTwin State.vitals
  rw [h]

theorem State.setSeq_vitals (s : State) (p : ℕ) (st : ℕ) : (State.setSeq s p st).vitals = s.vitals := by
  unfold State.setSeq
  simp only [State.updPort_vitals, implies_true, foldl_vitals]

theorem State.twinChange_vitals (s : State) (f : State → State) (hf : ∀ t, (f t).vitals = t.vitals) : (State.twinChange s
    f).vitals = s.vitals := by
  unfold State.twinChange
  simp only [State.noteTod_vitals, setSeq_vitals, implies_true, foldl_vitals, hf]

theorem State.lantern_vitals (s : State) : (State.lantern s).vitals = s.vitals := by
  unfold State.lantern
  simp only [implies_true, updTwin_vitals]

theorem State.endClaimWaits_vitals (s : State) (p : ℕ) (w : Wait) (status : ℕ) : (State.endClaimWaits s p w status).vitals =
    s.vitals := by
  unfold State.endClaimWaits
  simp only [apply_ite State.vitals, State.endWait_vitals, ite_self, implies_true, foldl_vitals]

theorem State.startSide_vitals (s : State) (p : ℕ) : (State.startSide s p).vitals = s.vitals := by
  unfold State.startSide
  simp only [endClaimWaits_vitals, State.updClaim_vitals]

theorem State.stopSide_vitals (s : State) (p : ℕ) : (State.stopSide s p).vitals = s.vitals := by
  unfold State.stopSide
  simp only [endClaimWaits_vitals, apply_ite State.vitals, State.raise_vitals, State.updClaim_vitals, implies_true,
      twinChange_vitals, ite_self]

theorem State.yieldClaim_vitals (s : State) (p : ℕ) (cause : ℕ) : (State.yieldClaim s p cause).vitals = s.vitals := by
  unfold State.yieldClaim
  simp only [apply_ite State.vitals, State.updClaim_vitals, stopSide_vitals, ite_self]

theorem State.takeClaim_vitals (s : State) (p : ℕ) (n : ℕ) : (State.takeClaim s p n).vitals = s.vitals := by
  unfold State.takeClaim
  simp only [pair_vit, lantern_vitals, State.raise_vitals, apply_ite State.vitals, implies_true, updTwin_vitals,
      State.updClaim_vitals, twinChange_vitals, stopSide_vitals, ite_self, startSide_vitals]

theorem State.seeClaim_vitals (s : State) (p : ℕ) (n : ℕ) : (State.seeClaim s p n).vitals = s.vitals := by
  unfold State.seeClaim
  simp only [apply_ite State.vitals, yieldClaim_vitals, State.updClaim_vitals, implies_true, twinChange_vitals, ite_self]

theorem State.noteClaim_vitals (s : State) (pp : Passport) : (State.noteClaim s pp).vitals = s.vitals := by
  unfold State.noteClaim
  simp only [apply_ite State.vitals]
  (repeat' split) <;> simp only [seeClaim_vitals]

theorem State.autoTake_vitals (s : State) (p : ℕ) : (State.autoTake s p).vitals = s.vitals := by
  unfold State.autoTake
  simp only [apply_ite State.vitals, State.updClaim_vitals, takeClaim_vitals, ite_self]

/-! ### Fabric -/

theorem State.decideLink_vitals (s : State) (j : ℕ) (w : ℕ) : (State.decideLink s j w).vitals = s.vitals := by
  unfold State.decideLink
  simp only [apply_ite State.vitals, State.raise_vitals, State.updLink_vitals, ite_self]

theorem State.toCap_vitals (s : State) (j : ℕ) : (State.toCap s j).vitals = s.vitals := by
  unfold State.toCap
  simp only [apply_ite State.vitals, State.raise_vitals, State.flushLink_vitals, State.updLink_vitals, ite_self]

theorem State.goodCell_vitals (s : State) (j : ℕ) (counted : Bool) : (State.goodCell s j counted).vitals = s.vitals := by
  unfold State.goodCell
  simp only [apply_ite State.vitals, State.bump_vitals, State.updLink_vitals, ite_self]

theorem State.sendCell_vitals (s : State) (j : ℕ) (cell : List Byte) : (State.sendCell s j cell).vitals = s.vitals := by
  unfold State.sendCell
  simp only [State.bump_vitals, State.updLink_vitals]

theorem State.sendData_vitals (s : State) (j : ℕ) (k : Pkt) (bs : List Byte) (first : Bool) : (State.sendData s j k bs
    first).vitals = s.vitals := by
  unfold State.sendData
  simp only [State.noteCredit_vitals, apply_ite State.vitals, State.dropRef_vitals, State.updLink_vitals, sendCell_vitals,
      ite_self]

theorem State.sendReturn_vitals (s : State) (j : ℕ) : (State.sendReturn s j).vitals = s.vitals := by
  unfold State.sendReturn
  simp only [apply_ite State.vitals, State.updLink_vitals, sendCell_vitals, ite_self]

theorem State.addCredit_vitals (s : State) (j : ℕ) (n : ℕ) : (State.addCredit s j n).vitals = s.vitals := by
  unfold State.addCredit
  simp only [State.noteCredit_vitals, State.updLink_vitals, apply_ite State.vitals, State.bump_vitals, ite_self]

theorem State.gotReturn_vitals (s : State) (j : ℕ) (n : ℕ) : (State.gotReturn s j n).vitals = s.vitals := by
  unfold State.gotReturn
  simp only [apply_ite State.vitals, State.updLink_vitals, addCredit_vitals, ite_self]

theorem State.giveBack_vitals (s : State) (j : ℕ) (n : ℕ) : (State.giveBack s j n).vitals = s.vitals := by
  unfold State.giveBack
  simp only [State.updLink_vitals]

theorem State.reasmErr_vitals (s : State) (j : ℕ) (units : ℕ) : (State.reasmErr s j units).vitals = s.vitals := by
  unfold State.reasmErr
  simp only [giveBack_vitals, State.bump_vitals]

theorem State.updCtxs_vitals (s : State) (j : ℕ) (f : NMap Reasm → NMap Reasm) : (State.updCtxs s j f).vitals = s.vitals := by
  unfold State.updCtxs
  simp only [State.updLink_vitals]

theorem State.reassembled_vitals (s : State) (j units v hdr : ℕ) (bs : List Byte) :
    (State.reassembled s j units v hdr bs).vitals = s.vitals := by
  unfold State.reassembled
  extract_lets r pp data u part ep k
  have hu : u.vitals = s.vitals := State.noteClaim_vitals ..
  clear_value u k ep part pp data
  split
  · exact State.reasmErr_vitals ..
  · split
    · exact (State.giveBack_vitals ..).trans (State.bump_vitals ..)
    · split
      · exact State.giveBack_vitals ..
      · have hd := State.dedup_vitals (u.takeRef part ep) k
        generalize (u.takeRef part ep).dedup k = d at hd ⊢
        obtain ⟨t, b⟩ := d
        have ht : t.vitals = s.vitals := hd.trans ((State.takeRef_vitals ..).trans hu)
        cases b
        · exact (State.giveBack_vitals ..).trans ht
        · exact (State.updInput_vitals ..).trans ht

theorem State.takeCell_vitals (s : State) (j : ℕ) (v : ℕ) (hdr : ℕ) (units : ℕ) (payload : List Byte) : (State.takeCell s j v hdr
    units payload).vitals = s.vitals := by
  unfold State.takeCell
  simp only 
  (repeat' split) <;> simp only [reasmErr_vitals, updCtxs_vitals, reassembled_vitals]

theorem State.countCell_vitals (s : State) (j : ℕ) (err : CellErr) : (State.countCell s j err).vitals = s.vitals := by
  unfold State.countCell
  simp only [State.bumpNz_vitals, implies_true, foldl_vitals]

theorem fabReachBody_vitals (s : State) (z1 : Cmd) (x : ℕ) : (fabReachBody s z1 x).state.vitals = s.vitals := by
  unfold fabReachBody
  simp only [pending_vit, apply_ite Out.state, fail_state, ok_state, apply_ite State.vitals, vitals_mk, stepping_vit, fuse_vit,
      kek_vit, keys_vit, linkUp_vit, speed_vit, width_vit, align_vit, pair_vit, therm_vit, ite_self]

/-! ### Power -/

theorem State.refreshRooms_vitals (s : State) : (State.refreshRooms s).vitals = s.vitals := by
  unfold State.refreshRooms
  simp only [pending_vit, vitals_mk, stepping_vit, fuse_vit, kek_vit, keys_vit, linkUp_vit, speed_vit, width_vit, align_vit,
      pair_vit, therm_vit]

theorem State.clearBacking_vitals (s : State) (onF : Bool) : (State.clearBacking s onF).vitals = s.vitals := by
  unfold State.clearBacking
  simp only [pending_vit, vitals_mk, stepping_vit, fuse_vit, kek_vit, keys_vit, linkUp_vit, speed_vit, width_vit, align_vit,
      pair_vit, therm_vit]

theorem State.dropMarks_vitals (s : State) (l : List ℕ) : (State.dropMarks s l).vitals = s.vitals := by
  unfold State.dropMarks
  rfl

theorem State.resetF_vitals (s : State) : (State.resetF s).vitals = s.vitals := by
  unfold State.resetF
  rfl

theorem State.resetT_vitals (s : State) : (State.resetT s).vitals = s.vitals := by
  unfold State.resetT
  simp only [State.dropRefs_vitals, State.dropMarks_vitals, State.endReplications_vitals, State.clearBacking_vitals, apply_ite
      State.vitals, ite_self, pending_vit, vitals_mk, stepping_vit, fuse_vit, kek_vit, keys_vit, linkUp_vit, speed_vit,
      width_vit, align_vit, pair_vit, therm_vit]

theorem State.startUnits_vitals (s : State) (us : List ℕ) (chs : List ℕ) : (State.startUnits s us chs).vitals = s.vitals := by
  unfold State.startUnits
  simp only [pending_vit, State.updUnit_vitals, implies_true, foldl_vitals, vitals_mk, stepping_vit, fuse_vit, kek_vit, keys_vit,
      linkUp_vit, speed_vit, width_vit, align_vit, pair_vit, therm_vit]

theorem State.domainNext_vitals (s : State) (d : ℕ) : (State.domainNext s d).vitals = s.vitals := by
  unfold State.domainNext
  simp only 
  (repeat' split) <;> simp only [refreshRooms_vitals, State.updStack_vitals, State.updDomain_vitals, State.syncSlots_vitals]

theorem State.domainSwitch_vitals (s : State) (d : ℕ) (on : Bool) : (State.domainSwitch s d on).vitals = s.vitals := by
  unfold State.domainSwitch
  simp only [apply_ite State.vitals, domainNext_vitals, State.updDomain_vitals, ite_self]

theorem State.domainOn_vitals (s : State) (d : ℕ) : (State.domainOn s d).vitals = s.vitals := by
  unfold State.domainOn
  simp only [pending_vit, State.updDomain_vitals, domainNext_vitals, State.powerDone_vitals, apply_ite State.vitals,
      State.updXm_vitals, vitals_mk, stepping_vit, fuse_vit, kek_vit, keys_vit, linkUp_vit, speed_vit, width_vit, align_vit,
      pair_vit, therm_vit, ite_self]

theorem State.domainFlush_vitals (s : State) (d : ℕ) : (State.domainFlush s d).1.vitals = s.vitals := by
  unfold State.domainFlush
  simp only 
  (repeat' split) <;> simp only [State.clearDeficits_vitals, State.purgeQueue_vitals, implies_true, foldl_vitals_fst,
      State.updStaging_vitals, State.dropRefs_vitals, State.purgeEgress_vitals]

theorem State.domainOff_vitals (s : State) (d : ℕ) (n : ℕ) : (State.domainOff s d n).vitals = s.vitals := by
  unfold State.domainOff
  simp only [domainNext_vitals, State.powerDone_vitals, State.raise_vitals, apply_ite State.vitals, State.updXm_vitals,
      refreshRooms_vitals, State.updStack_vitals, State.updDomain_vitals, ite_self]

theorem powerOut_vitals (s : State) (kind : ℕ) (ix : ℕ) (x : Domain) : (powerOut s kind ix x).state.vitals = s.vitals := by
  unfold powerOut
  simp only [apply_ite Out.state, ok_state, wait_state, ite_self]

theorem powerBody_vitals (on : Bool) (s : State) (c : Cmd) (x : ℕ) : (powerBody on s c x).state.vitals = s.vitals := by
  unfold powerBody
  simp only [apply_ite Prod.fst, apply_ite Out.state, fail_state, apply_ite State.vitals, powerOut_vitals,
      State.domainSwitch_vitals, ite_self, State.groupEnableCheck_vitals, State.groupSwitch_vitals]

/-! ### Twin -/

theorem State.updPath_vitals (s : State) (hb : Bool) (f : Path → Path) : (State.updPath s hb f).vitals = s.vitals := by
  unfold State.updPath
  (repeat' split) <;> simp only [implies_true, State.updTwin_vitals]

theorem State.goodLantern_vitals (s : State) (hb : Bool) (count : ℕ) : (State.goodLantern s hb count).vitals = s.vitals := by
  unfold State.goodLantern
  simp only [apply_ite State.vitals, updPath_vitals, State.raise_vitals, ite_self]

theorem State.lanternClaim_vitals (s : State) (p : ℕ) (n : ℕ) : (State.lanternClaim s p n).vitals = s.vitals := by
  unfold State.lanternClaim
  simp only [apply_ite State.vitals, State.startSide_vitals, State.seeClaim_vitals, ite_self]

theorem State.lockStart_vitals (s : State) (p : ℕ) : (State.lockStart s p).vitals = s.vitals := by
  unfold State.lockStart
  simp only [State.stopSide_vitals, State.startSide_vitals, State.twinChange_vitals, State.updClaim_vitals, apply_ite
      State.vitals, ite_self, implies_true]

theorem twinClaimBody_vitals (s : State) (c : Cmd) (x : ℕ) : (twinClaimBody s c x).state.vitals = s.vitals := by
  unfold twinClaimBody
  extract_lets p n force k u
  have hu : u.vitals = s.vitals := State.takeClaim_vitals ..
  clear_value u
  split
  · rfl
  · split
    · rfl
    · split
      · rfl
      · split <;> exact hu

theorem twinReleaseBody_vitals (s : State) (c : Cmd) (z2 : ℕ) : (twinReleaseBody s c z2).state.vitals = s.vitals := by
  unfold twinReleaseBody
  simp only [apply_ite Out.state, fail_state, ok_state, wait_state, ite_self, apply_ite State.vitals, State.yieldClaim_vitals]

theorem State.seeDigest_vitals (s : State) (p : ℕ) (d : ℕ) : (State.seeDigest s p d).vitals = s.vitals := by
  unfold State.seeDigest
  simp only [apply_ite State.vitals, State.raise_vitals, State.updClaim_vitals, ite_self]

theorem State.seeRan_vitals (s : State) (mask : ℕ) : (State.seeRan s mask).vitals = s.vitals := by
  unfold State.seeRan
  simp only [apply_ite State.vitals, State.toCap_vitals, ite_self, implies_true, foldl_vitals, State.updTwin_vitals]

theorem State.follow_vitals (s : State) (off : ℤ) : (State.follow s off).vitals = s.vitals := by
  unfold State.follow
  simp only [pending_vit, align_vit, apply_ite State.vitals, State.decideStep_vitals, vitals_mk, stepping_vit, fuse_vit, kek_vit,
      keys_vit, linkUp_vit, speed_vit, width_vit, pair_vit, therm_vit, ite_self]

theorem State.timeAlarm_vitals (s : State) (off : ℤ) : (State.timeAlarm s off).vitals = s.vitals := by
  unfold State.timeAlarm
  simp only [apply_ite State.vitals, implies_true, State.updTwin_vitals, State.raise_vitals, ite_self, State.raiseSt_vitals]

theorem State.syncTimeActs_vitals (s : State) (m : SyncMsg) (t4 : ℕ) : (State.syncTimeActs s m t4).vitals = s.vitals := by
  unfold State.syncTimeActs
  simp only [apply_ite State.vitals, State.noteTod_vitals, follow_vitals, timeAlarm_vitals, implies_true, State.updTwin_vitals,
      ite_self]

theorem State.decideSample_vitals (s : State) (p : ℕ) (r : Option (ℕ × ℕ)) : (State.decideSample s p r).vitals = s.vitals := by
  unfold State.decideSample
  simp only 
  (repeat' split) <;> simp only [State.raise_vitals, State.updPort_vitals]

theorem twinFwdBody_vitals (s : State) (c : Cmd) (x : ℕ) : (twinFwdBody s c x).state.vitals = s.vitals := by
  unfold twinFwdBody
  simp only [apply_ite Out.state, fail_state, ok_state, apply_ite State.vitals, implies_true, State.updTwin_vitals, ite_self]

theorem nwLoadBody_vitals (s : State) (c : Cmd) (x : ℕ) : (nwLoadBody s c x).state.vitals = s.vitals := by
  unfold nwLoadBody
  simp only [apply_ite Out.state, fail_state, apply_ite State.vitals]
  (repeat' split) <;> simp only [fail_state, ok_state, implies_true, State.updTwin_vitals]

/-! ### Telemetry -/

theorem State.setPerf_vitals (s : State) (k : ℕ) (v : ℕ) : (State.setPerf s k v).vitals = s.vitals := by
  unfold State.setPerf
  simp only [State.updPerf_vitals]

theorem perfCfgBody_vitals (s : State) (c : Cmd) (x : ℕ) : (perfCfgBody s c x).state.vitals = s.vitals := by
  unfold perfCfgBody
  simp only [apply_ite Out.state, fail_state, ok_state, apply_ite State.vitals, State.updPerf_vitals, State.syncSlots_vitals,
      ite_self]

theorem State.statWritten_vitals (s : State) (k : ℕ) : (State.statWritten s k).vitals = s.vitals := by
  unfold State.statWritten
  rfl

theorem State.ctrSet_vitals (s : State) (set : ℕ) (inst : ℕ) (item : ℕ) (v : ℕ) : (State.ctrSet s set inst item v).vitals =
    s.vitals := by
  unfold State.ctrSet
  simp only [State.setPerf_vitals, State.statWritten_vitals, State.setCtr_vitals, apply_ite State.vitals, ite_self]

theorem State.readStat_vitals (s : State) (set : ℕ) (inst : ℕ) (item : ℕ) (o0 : ℕ) (o1 : ℕ) : (State.readStat s set inst item o0
    o1).1.vitals = s.vitals := by
  unfold State.readStat
  simp only [State.readTwo_vitals, State.raise_vitals, State.statWritten_vitals, State.setCtr_vitals, apply_ite State.vitals,
      ite_self, apply_ite Prod.fst]

theorem State.flushCtr_vitals (s : State) (set : ℕ) (inst : ℕ) (item : ℕ) : (State.flushCtr s set inst item).vitals = s.vitals :=
    by
  unfold State.flushCtr
  simp only [State.statWritten_vitals, State.setCtr_vitals, State.raiseSaturated_vitals, apply_ite State.vitals, ite_self]

theorem State.flowClear_vitals (s : State) (ix : ℕ) : (State.flowClear s ix).vitals = s.vitals := by
  unfold State.flowClear
  simp only [pending_vit, vitals_mk, stepping_vit, fuse_vit, kek_vit, keys_vit, linkUp_vit, speed_vit, width_vit, align_vit,
      pair_vit, therm_vit]

theorem State.ctrSync_vitals (s : State) (x : ℕ) : (State.ctrSync s x).vitals = s.vitals := by
  unfold State.ctrSync
  simp only [State.syncSlots_vitals, State.readStat_vitals, apply_ite State.vitals, ite_self, foldl_vitals, implies_true]

theorem counterReadBody_vitals (s : State) (c : Cmd) (x : ℕ) : (counterReadBody s c x).state.vitals = s.vitals := by
  unfold counterReadBody
  simp only [apply_ite Out.state, fail_state, okResp_state, apply_ite State.vitals, State.ctrSync_vitals, ite_self]

theorem counterReadClearBody_vitals (s : State) (c : Cmd) (x : ℕ) : (counterReadClearBody s c x).state.vitals = s.vitals := by
  unfold counterReadClearBody
  simp only [apply_ite Out.state, fail_state, okResp_state, apply_ite State.vitals, State.flowClear_vitals, State.ctrSync_vitals,
      State.ctrSet_vitals, implies_true, foldl_vitals, ite_self]

theorem counterWriteBody_vitals (s : State) (c : Cmd) (x : ℕ) : (counterWriteBody s c x).state.vitals = s.vitals := by
  unfold counterWriteBody
  simp only [apply_ite Out.state, fail_state, ok_state, apply_ite State.vitals, State.ctrSet_vitals, State.ctrSync_vitals,
      ite_self]

theorem State.settleSet_vitals (s : State) (set : ℕ) (part : ℕ) : (State.settleSet s set part).vitals = s.vitals := by
  unfold State.settleSet
  simp only [State.flushCtr_vitals, apply_ite State.vitals, ite_self, foldl_vitals, implies_true]

theorem counterSetCfgBody_vitals (s : State) (c : Cmd) (x : ℕ) : (counterSetCfgBody s c x).state.vitals = s.vitals := by
  unfold counterSetCfgBody
  extract_lets set u
  split
  · rfl
  · exact State.settleSet_vitals ..

/-! ### MemCtl -/

theorem State.autoOn_vitals (s : State) : (State.autoOn s).vitals = s.vitals := by
  unfold State.autoOn
  simp only [apply_ite State.vitals, State.domainSwitch_vitals, implies_true, foldl_vitals, ite_self]

theorem memTrainBody_vitals (s : State) (c : Cmd) (x : ℕ) : (memTrainBody s c x).state.vitals = s.vitals := by
  unfold memTrainBody
  simp only [apply_ite Out.state, fail_state, wait_state, apply_ite State.vitals, State.domainSwitch_vitals, State.updXm_vitals,
      ite_self, implies_true, foldl_vitals]

theorem State.trainChannel_vitals (s : State) (c : ℕ) (margin : Bool) : (State.trainChannel s c margin).vitals = s.vitals := by
  unfold State.trainChannel
  simp only [apply_ite State.vitals, State.startUnits_vitals, State.updXm_vitals, State.raise_vitals, ite_self]

theorem State.tryCool_vitals (s : State) (u : ℕ) : (State.tryCool s u).vitals = s.vitals := by
  unfold State.tryCool
  simp only [apply_ite State.vitals, State.raise_vitals, State.updUnit_vitals, ite_self]

theorem State.readUnit_vitals (s : State) (u : ℕ) (t : ℤ) : (State.readUnit s u t).1.vitals = s.vitals := by
  unfold State.readUnit
  dsimp only
  (repeat' split) <;> first | rfl | simp only [State.updUnit_vitals, State.bumpUnit_vitals, State.tryCool_vitals, apply_ite
      State.vitals, ite_self, apply_ite Prod.fst, foldl_vitals_fst, foldl_vitals, implies_true, pending_vit, vitals_mk,
      stepping_vit, fuse_vit, kek_vit, keys_vit, linkUp_vit, speed_vit, width_vit, align_vit, pair_vit, therm_vit]

theorem State.readUnits_vitals (s : State) (us : List ℕ) (t : ℤ) : (State.readUnits s us t).vitals = s.vitals := by
  unfold State.readUnits
  simp only 
  (repeat' split) <;> simp only [readUnit_vitals, implies_true, foldl_vitals_fst, State.raise_vitals]

theorem State.setTemp_vitals (s : State) (sensor : ℕ) (t : ℤ) : (State.setTemp s sensor t).vitals = s.vitals := by
  unfold State.setTemp
  simp only [pending_vit, vitals_mk, stepping_vit, fuse_vit, kek_vit, keys_vit, linkUp_vit, speed_vit, width_vit, align_vit,
      pair_vit, therm_vit]

theorem State.readStack_vitals (s : State) (k : ℕ) (t : ℤ) : (State.readStack s k t).vitals = s.vitals := by
  unfold State.readStack
  simp only [readUnits_vitals, State.updStack_vitals, setTemp_vitals]

theorem State.takeDeferred_vitals (s : State) : (State.takeDeferred s).vitals = s.vitals := by
  unfold State.takeDeferred
  refine foldl_vitals _ (fun s a => ?_) _ _
  (repeat' split) <;> simp only [readStack_vitals]

theorem State.endRetrain_vitals (s : State) (ch : ℕ) : (State.endRetrain s ch).vitals = s.vitals := by
  unfold State.endRetrain
  simp only [pending_vit, takeDeferred_vitals, vitals_mk, stepping_vit, fuse_vit, kek_vit, keys_vit, linkUp_vit, speed_vit,
      width_vit, align_vit, pair_vit, therm_vit]

theorem State.poisonChain_vitals (s : State) (c : ℕ) : (State.poisonChain s c).vitals = s.vitals := by
  unfold State.poisonChain
  simp only [pending_vit, vitals_mk, stepping_vit, fuse_vit, kek_vit, keys_vit, linkUp_vit, speed_vit, width_vit, align_vit,
      pair_vit, therm_vit]

theorem State.quarantine_vitals (s : State) (room : ℕ) : (State.quarantine s room).vitals = s.vitals := by
  unfold State.quarantine
  simp only [pending_vit, poisonChain_vitals]
  (repeat' split) <;> simp only [State.bump_vitals, vitals_mk, stepping_vit, poisonChain_vitals, fuse_vit, kek_vit, keys_vit,
      linkUp_vit, speed_vit, width_vit, align_vit, pair_vit, therm_vit]

theorem State.markPoison_vitals (s : State) (u : ℕ) (structure_ : ℕ) (ix : ℕ) : (State.markPoison s u structure_ ix).vitals =
    s.vitals := by
  unfold State.markPoison
  simp only [State.quarantine_vitals, State.poisonChain_vitals, State.updEnt_vitals, State.setPoison_vitals, apply_ite
      State.vitals, ite_self, pending_vit, vitals_mk, stepping_vit, fuse_vit, kek_vit, keys_vit, linkUp_vit, speed_vit,
      width_vit, align_vit, pair_vit, therm_vit]

theorem State.scrubUe_vitals (s : State) (u : ℕ) (ix : ℕ) (structure_ : ℕ) : (State.scrubUe s u ix structure_).vitals = s.vitals
    := by
  unfold State.scrubUe
  simp only [apply_ite State.vitals, State.raise_vitals, State.countUe_vitals, State.drawn_vitals, markPoison_vitals,
      State.memUe_vitals, ite_self]

theorem State.noteScrub_vitals (s : State) (u : ℕ) : (State.noteScrub s u).vitals = s.vitals := by
  unfold State.noteScrub
  rfl

/-! ### StepTime -/

theorem State.shiftTm_vitals (s : State) (delta : ℤ) (old : ℕ) : (State.shiftTm s delta old).vitals = s.vitals := by
  unfold State.shiftTm
  simp only [pending_vit, vitals_mk, stepping_vit, fuse_vit, kek_vit, keys_vit, linkUp_vit, speed_vit, width_vit, align_vit,
      pair_vit, therm_vit]

theorem State.shiftPorts_vitals (s : State) (delta : ℤ) : (State.shiftPorts s delta).vitals = s.vitals := by
  unfold State.shiftPorts
  simp only [pending_vit, vitals_mk, stepping_vit, fuse_vit, kek_vit, keys_vit, linkUp_vit, speed_vit, width_vit, align_vit,
      pair_vit, therm_vit]

theorem State.stepPps_vitals (s : State) (delta : ℤ) : (State.stepPps s delta).vitals = s.vitals := by
  unfold State.stepPps
  simp only [pending_vit, align_vit, vitals_mk, stepping_vit, fuse_vit, kek_vit, keys_vit, linkUp_vit, speed_vit, width_vit,
      pair_vit, therm_vit]

theorem State.raiseStepped_vitals (s : State) (cause : ℕ) (delta : ℤ) (old : ℕ) : (State.raiseStepped s cause delta old).vitals =
    s.vitals := by
  unfold State.raiseStepped
  simp only [State.raise_vitals]

theorem State.applyStep_vitals (s : State) (cause : ℕ) (m : ℕ) : (State.applyStep s cause m).vitals = s.vitals := by
  unfold State.applyStep
  simp only [pending_vit, State.syncAllV_vitals, State.runSeconds_vitals, align_vit, raiseStepped_vitals, stepPps_vitals,
      State.stepBins_vitals, shiftPorts_vitals, shiftTm_vitals, vitals_mk, stepping_vit, fuse_vit, kek_vit, keys_vit, linkUp_vit,
      speed_vit, width_vit, pair_vit, therm_vit]

theorem State.stepOwner_vitals (s : State) (o : StepOp) (status : ℕ) : (State.stepOwner s o status).vitals = s.vitals := by
  unfold State.stepOwner
  (repeat' split) <;> simp only [State.endWait_vitals]

/-! ### Abort -/

theorem State.renumberEntry_vitals (s : State) (cur : ℕ) (f : ℕ → ℕ) (key : ℕ) (vs : List Ver) : (State.renumberEntry s cur f key
    vs).vitals = s.vitals := by
  unfold State.renumberEntry
  simp only [pending_vit, State.setVersions_vitals, State.releaseVer_vitals, implies_true, foldl_vitals, vitals_mk, stepping_vit,
      fuse_vit, kek_vit, keys_vit, linkUp_vit, speed_vit, width_vit, align_vit, pair_vit, therm_vit]

theorem State.endClaims_vitals (s : State) (p : ℕ) : (State.endClaims s p).vitals = s.vitals := by
  unfold State.endClaims
  extract_lets cur claims f u
  have hu : u.vitals = s.vitals := foldl_vitals _ (fun _ _ => State.renumberEntry_vitals ..) _ _
  clear_value u f
  refine (foldl_vitals _ (fun t a => ?_) _ _).trans hu
  obtain ⟨fn, r, run⟩ := a
  dsimp only
  split
  · rfl
  · split
    · exact State.updRing_vitals ..
    · exact State.updRing_vitals ..
    · rfl

theorem State.abortRun_vitals (s : State) (fn : ℕ) (n : ℕ) (run : Running) : (State.abortRun s fn n run).vitals = s.vitals := by
  unfold State.abortRun
  simp only [State.settle_vitals, State.finish_vitals, State.bump_vitals]

theorem State.abortWaits_vitals (s : State) (f : ℕ × ℕ × Running → Bool) : (State.abortWaits s f).1.vitals = s.vitals := by
  unfold State.abortWaits
  simp only [State.abortRun_vitals, apply_ite State.vitals, ite_self, apply_ite Prod.fst, foldl_vitals_fst, implies_true]

theorem State.untrain_vitals (s : State) (m : ℕ) : (State.untrain s m).vitals = s.vitals := by
  unfold State.untrain
  simp only [apply_ite State.vitals, State.updXm_vitals, ite_self, implies_true, foldl_vitals]

theorem State.dropPending_vitals (s : State) (p : ℕ) : (State.dropPending s p).vitals = s.vitals := by
  unfold State.dropPending
  simp only [State.updGate_vitals, State.markBounds_vitals, State.syncV_vitals]

theorem State.undoWait_vitals (s : State) (a : Wait) : (State.undoWait s a).vitals = s.vitals := by
  unfold State.undoWait
  simp only [pending_vit]
  (repeat' split) <;> simp only [dropPending_vitals, untrain_vitals, vitals_mk, stepping_vit, fuse_vit, kek_vit, keys_vit,
      linkUp_vit, speed_vit, width_vit, align_vit, pair_vit, therm_vit]

theorem epochDiscardSpec_calm : epochDiscardSpec.Calm := fun t c x => epochDiscardBody_vitals t c x

theorem State.afterAbort_vitals (s : State) (part : ℕ) (a : Wait) : (State.afterAbort s part a).vitals = s.vitals := by
  unfold State.afterAbort
  split
  · exact State.resumeWaits_vitals _ _ _ (by simpa using gateSetSpec_calm)
  · exact State.endClaims_vitals ..
  · exact State.resumeWaits_vitals _ _ _ (by simpa using epochDiscardSpec_calm)
  · rfl

theorem State.abortHead_vitals (s : State) (fn : ℕ) (n : ℕ) : (State.abortHead s fn n).vitals = s.vitals := by
  unfold State.abortHead
  simp only [pending_vit]
  (repeat' split) <;> simp only [State.finish_vitals, vitals_mk, stepping_vit, fuse_vit, kek_vit, keys_vit, linkUp_vit,
      speed_vit, width_vit, align_vit, pair_vit, therm_vit, State.updRing_vitals, afterAbort_vitals, abortRun_vitals,
      undoWait_vitals]

theorem State.flushDescs_vitals (s : State) (fn : ℕ) (n : ℕ) : (State.flushDescs s fn n).vitals = s.vitals := by
  unfold State.flushDescs
  simp only [State.complete_vitals, State.bump_vitals, implies_true, foldl_vitals, State.updRing_vitals]

theorem State.ringStopped_vitals (s : State) (fn : ℕ) (n : ℕ) : (State.ringStopped s fn n).vitals = s.vitals := by
  unfold State.ringStopped
  simp only [apply_ite State.vitals, State.updRing_vitals, flushDescs_vitals, ite_self]

theorem State.ringAbort_vitals (s : State) (fn : ℕ) (n : ℕ) : (State.ringAbort s fn n).vitals = s.vitals := by
  unfold State.ringAbort
  simp only [apply_ite State.vitals, flushDescs_vitals, abortHead_vitals, State.updRing_vitals, ite_self]

theorem State.ringOff_vitals (s : State) (fn : ℕ) (r : ℕ) : (State.ringOff s fn r).vitals = s.vitals := by
  unfold State.ringOff
  simp only [State.updRing_vitals]

theorem State.abortTables_vitals (s : State) (part : ℕ) : (State.abortTables s part).1.vitals = s.vitals := by
  unfold State.abortTables
  simp only [endClaims_vitals, abortWaits_vitals]

theorem State.abortCaravan_vitals (s : State) (part : ℕ) : (State.abortCaravan s part).1.vitals = s.vitals := by
  unfold State.abortCaravan
  simp only [abortWaits_vitals, undoWait_vitals, implies_true, foldl_vitals]

theorem State.abortGroup_vitals (s : State) (g : ℕ) : (State.abortGroup s g).1.vitals = s.vitals := by
  unfold State.abortGroup
  simp only [abortWaits_vitals, apply_ite State.vitals, State.groupStop_vitals, State.updGroup_vitals, ite_self]

theorem State.abortTraining_vitals (s : State) (c : ℕ) : (State.abortTraining s c).1.vitals = s.vitals := by
  unfold State.abortTraining
  simp only [abortWaits_vitals, undoWait_vitals, implies_true, foldl_vitals]

theorem State.abortPauses_vitals (s : State) (index : ℕ) : (State.abortPauses s index).vitals = s.vitals := by
  unfold State.abortPauses
  simp only [State.endRetrain_vitals, implies_true, foldl_vitals]

theorem State.abortAct_vitals (s : State) (fn : ℕ) (func : ℕ) (index : ℕ) : (State.abortAct s fn func index).1.vitals = s.vitals
    := by
  unfold State.abortAct
  simp only [pending_vit, abortGroup_vitals, linkUp_vit, speed_vit, width_vit]
  (repeat' split) <;> simp only [ringAbort_vitals, ringOff_vitals, abortTables_vitals, abortCaravan_vitals, vitals_mk,
      stepping_vit, abortGroup_vitals, fuse_vit, kek_vit, keys_vit, align_vit, pair_vit, therm_vit, abortTraining_vitals,
      abortPauses_vitals]

theorem State.raiseAbortDone_vitals (s : State) (fn : ℕ) (func : ℕ) (index : ℕ) (n : ℕ) : (State.raiseAbortDone s fn func index
    n).vitals = s.vitals := by
  unfold State.raiseAbortDone
  simp only [State.raise_vitals]

theorem State.abortEnd_vitals (s : State) (fn func index : ℕ) : (State.abortEnd s fn func index).vitals = s.vitals := by
  unfold State.abortEnd
  extract_lets n rest src u v w
  have hu : u.vitals = s.vitals := rfl
  have hv : v.vitals = s.vitals := by
    unfold v
    clear_value u
    split
    · exact (State.updFunc_vitals ..).trans hu
    · exact hu
  have hw : w.vitals = s.vitals := (State.raiseAbortDone_vitals ..).trans hv
  clear_value w
  refine (foldl_vitals _ (fun t a => ?_) _ _).trans hw
  split
  · exact State.endWait_vitals ..
  · rfl

theorem abortBody_vitals (s : State) (c : Cmd) (x : ℕ) : (abortBody s c x).state.vitals = s.vitals := by
  unfold abortBody
  extract_lets func index st
  split
  · rfl
  · split
    · rfl
    · have ha := State.abortAct_vitals s c.fn func index
      generalize s.abortAct c.fn func index = r at ha ⊢
      obtain ⟨t, _ | n⟩ := r
      · exact ha
      · exact (State.raiseAbortDone_vitals ..).trans ha

theorem State.abortRings_vitals (s : State) (fn : ℕ) (lo : ℕ) : (State.abortRings s fn lo).vitals = s.vitals := by
  unfold State.abortRings
  simp only [ringAbort_vitals, implies_true, foldl_vitals]

theorem State.resetFunc_vitals (s : State) (fn : ℕ) : (State.resetFunc s fn).vitals = s.vitals := by
  unfold State.resetFunc
  simp only [pending_vit, State.updFunc_vitals, abortRings_vitals, align_vit, linkUp_vit, speed_vit, width_vit, vitals_mk,
      stepping_vit, fuse_vit, kek_vit, keys_vit, pair_vit, therm_vit]

/-! ### Modes -/

theorem State.setModeSt_vitals (s : State) (m : Mode) (st : OnOff) : (State.setModeSt s m st).vitals = s.vitals := by
  unfold State.setModeSt
  simp only [State.updMode_vitals]

theorem State.xptChange_vitals (s : State) (f : State → State) (hf : ∀ t, (f t).vitals = t.vitals) : (State.xptChange s f).vitals
    = s.vitals := by
  unfold State.xptChange
  simp only [State.groupLinesUp_vitals, implies_true, foldl_vitals, hf, State.groupLinesDown_vitals]

theorem State.takeWord_vitals (s : State) (w : ℕ) : (State.takeWord s w).vitals = s.vitals := by
  unfold State.takeWord
  exact State.xptChange_vitals _ _ (fun t => vitals_modes ..)

theorem State.fabLinesUp_vitals (s : State) (j : ℕ) : (State.fabLinesUp s j).vitals = s.vitals := by
  unfold State.fabLinesUp
  simp only [State.updLanes_vitals, State.startLine_vitals]

theorem State.fabLinesDown_vitals (s : State) (j : ℕ) : (State.fabLinesDown s j).vitals = s.vitals := by
  unfold State.fabLinesDown
  simp only [State.moveLanes_vitals, State.updLink_vitals, State.linkDown_vitals, State.updPort_vitals]

theorem State.fabFlush_vitals (s : State) (j : ℕ) : (State.fabFlush s j).vitals = s.vitals := by
  unfold State.fabFlush
  simp only [State.emptyOutput_vitals]

theorem State.mapPkts_vitals (s : State) (f : Pkt → Pkt) : (State.mapPkts s f).vitals = s.vitals := by
  unfold State.mapPkts
  simp only [pending_vit, vitals_mk, stepping_vit, fuse_vit, kek_vit, keys_vit, linkUp_vit, speed_vit, width_vit, align_vit,
      pair_vit, therm_vit]

theorem State.recountRefs_vitals (s : State) : (State.recountRefs s).vitals = s.vitals := by
  unfold State.recountRefs
  simp only [pending_vit, State.takeRef_vitals, implies_true, foldl_vitals, vitals_mk, stepping_vit, fuse_vit, kek_vit, keys_vit,
      linkUp_vit, speed_vit, width_vit, align_vit, pair_vit, therm_vit]

theorem State.epochsStart_vitals (s : State) : (State.epochsStart s).vitals = s.vitals := by
  unfold State.epochsStart
  rfl

theorem State.epochsSplit_vitals (s : State) : (State.epochsSplit s).vitals = s.vitals := by
  unfold State.epochsSplit
  simp only [pending_vit, recountRefs_vitals, mapPkts_vitals, vitals_mk, stepping_vit, fuse_vit, kek_vit, keys_vit, linkUp_vit,
      speed_vit, width_vit, align_vit, pair_vit, therm_vit]

theorem State.epochsJoin_vitals (s : State) (numA : ℕ) (numB : ℕ) : (State.epochsJoin s numA numB).vitals = s.vitals := by
  unfold State.epochsJoin
  simp only [pending_vit, recountRefs_vitals, mapPkts_vitals, vitals_mk, stepping_vit, fuse_vit, kek_vit, keys_vit, linkUp_vit,
      speed_vit, width_vit, align_vit, pair_vit, therm_vit]

theorem State.roomsSplit_vitals (s : State) : (State.roomsSplit s).vitals = s.vitals := by
  unfold State.roomsSplit
  simp only [State.updPool_vitals, implies_true, foldl_vitals]

theorem State.cutRings_vitals (s : State) (fn : ℕ) (all : Bool) : (State.cutRings s fn all).vitals = s.vitals := by
  unfold State.cutRings
  simp only [apply_ite State.vitals, State.ringAbort_vitals, State.updRing_vitals, State.ringOff_vitals, ite_self, implies_true,
      foldl_vitals]

theorem State.cutComps_vitals (s : State) (fn : ℕ) (all : Bool) : (State.cutComps s fn all).vitals = s.vitals := by
  unfold State.cutComps
  simp only [apply_ite State.vitals, State.ringOff_vitals, ite_self, implies_true, foldl_vitals]

theorem State.gatesStart_vitals (s : State) : (State.gatesStart s).vitals = s.vitals := by
  unfold State.gatesStart
  refine foldl_vitals _ (fun s a => ?_) _ _
  (repeat' split) <;> simp only [State.updGate_vitals]

theorem State.showOwner_vitals (s : State) : (State.showOwner s).vitals = s.vitals := by
  unfold State.showOwner
  (repeat' split) <;> simp only [State.showProgress_vitals]

theorem partAssignBody_vitals (s : State) (z1 : Cmd) (x : ℕ) : (partAssignBody s z1 x).state.vitals = s.vitals := by
  unfold partAssignBody
  simp only [pending_vit, apply_ite Out.state, fail_state, wait_state, ok_state, apply_ite State.vitals, State.setReg_vitals,
      vitals_mk, stepping_vit, fuse_vit, kek_vit, keys_vit, linkUp_vit, speed_vit, width_vit, align_vit, pair_vit, therm_vit,
      ite_self]

theorem State.linkLanesUpIf_vitals (s : State) (j : ℕ) : (State.linkLanesUpIf s j).vitals = s.vitals := by
  unfold State.linkLanesUpIf
  simp only [apply_ite State.vitals, State.linkLanesUp_vitals, ite_self]

/-! ### Registers -/

theorem State.writeMacCfg_vitals (s : State) (p : ℕ) (v : BitVec 32) : (State.writeMacCfg s p v).vitals = s.vitals := by
  unfold State.writeMacCfg
  simp only [apply_ite State.vitals, State.policyChange_vitals, State.storeReg_vitals, State.cfgReject_vitals, ite_self]

theorem State.writeFabCfg_vitals (s : State) (v : BitVec 32) : (State.writeFabCfg s v).vitals = s.vitals := by
  unfold State.writeFabCfg
  simp only [apply_ite State.vitals, State.storeReg_vitals, ite_self]

theorem State.writeHif_vitals (s : State) (fn : ℕ) (a : ℕ) (v : BitVec 32) : (State.writeHif s fn a v).vitals = s.vitals := by
  unfold State.writeHif
  simp only [apply_ite State.vitals, State.updFunc_vitals]
  (repeat' split) <;> simp only [State.updFunc_vitals, State.updRing_vitals]

/-! ### Chip -/

theorem State.farewell_vitals (s : State) : (State.farewell s).vitals = s.vitals := by
  unfold State.farewell
  simp only [apply_ite State.vitals, State.lantern_vitals, ite_self]

theorem State.readSensor_vitals (s : State) (k : ℕ) (r : Option ℤ) : (State.readSensor s k r).vitals = s.vitals := by
  unfold State.readSensor
  simp only [pending_vit, stepping_vit, therm_vit, apply_ite State.vitals]
  (repeat' split) <;> simp only [vitals_mk, fuse_vit, kek_vit, keys_vit, linkUp_vit, speed_vit, width_vit, align_vit, pair_vit,
      State.raise_vitals]

theorem State.syncIngress_vitals (s : State) : (State.syncIngress s).vitals = s.vitals := by
  unfold State.syncIngress
  simp only [State.syncSlots_vitals, implies_true, foldl_vitals]

end Sys2Proof.Machine
end

