-- ==== Sys2Proof/Laws/Keeps.lean ====
section
/-! SUPPORT. Operations that change the vitals and keep them legal: keys, modes, alignment, pair, resets and thermal states. -/

namespace Sys2Proof.Machine

/-- `t` has the queue and the fuses of `s`, and is legal where `s` is. -/
def Keeps (s t : State) : Prop :=
  t.pending = s.pending ∧ t.sec.fuseState = s.sec.fuseState ∧ (s.vitals.Legal → t.vitals.Legal)

theorem Keeps.refl (s : State) : Keeps s s := ⟨rfl, rfl, id⟩

theorem Keeps.trans {s t u : State} (h : Keeps s t) (k : Keeps t u) : Keeps s u :=
  ⟨k.1.trans h.1, k.2.1.trans h.2.1, fun l => k.2.2 (h.2.2 l)⟩

theorem Keeps.of_eq {s t : State} (h : t.vitals = s.vitals) : Keeps s t :=
  ⟨congrArg Vitals.pending h, congrArg Vitals.fuse h, fun l => h ▸ l⟩

/-- A change of equal vitals behind, or before, a change that keeps them legal. -/
theorem Keeps.eq {s t u : State} (h : Keeps s t) (k : u.vitals = t.vitals) : Keeps s u := h.trans (.of_eq k)

theorem Keeps.foldl {α : Type} (f : State → α → State) (h : ∀ s a, Keeps s (f s a)) (l : List α) (s : State) :
    Keeps s (l.foldl f s) := by
  induction l generalizing s with
  | nil => exact .refl s
  | cons a l ih => exact (h s a).trans (ih _)

theorem Keeps.ite {c : Prop} [Decidable c] {s t u : State} (h : c → Keeps s t) (k : ¬ c → Keeps s u) :
    Keeps s (if c then t else u) := by
  split
  · exact h ‹_›
  · exact k ‹_›

/-! ### Keys -/

theorem State.dropKey_keeps (s : State) (k : Nat) (f : Slot → Slot) (h : ∀ p, (f p).key = none) : Keeps s (s.updSlot k f) := by
  refine ⟨rfl, rfl, fun ⟨a, b, c, d⟩ => ⟨a, b, fun hf => ⟨(c hf).1, fun j => ?_⟩, d⟩⟩
  change ((s.sec.slots.upd {} k f).get {} j).key = none
  by_cases hj : j = k
  · subst hj; rw [NMap.get_upd_self]; exact h _
  · rw [NMap.get_upd_ne _ _ _ _ hj]; exact (c hf).2 j

theorem State.setKey_keeps (s : State) (k : Nat) (f : Slot → Slot) (h : s.sec.fuseState = 2) : Keeps s (s.updSlot k f) :=
  ⟨rfl, rfl, fun ⟨a, b, _, d⟩ => ⟨a, b, fun hf => absurd h hf, d⟩⟩

theorem State.clearUpperSlots_keeps (s : State) : Keeps s s.clearUpperSlots :=
  Keeps.foldl _ (fun s _ => State.dropKey_keeps s _ _ fun _ => rfl) _ _

theorem keyInstallBody_keeps (s : State) (c : Cmd) (x : Nat) (h : s.sec.fuseState = 2) : Keeps s (keyInstallBody s c x).state := by
  unfold keyInstallBody
  split
  · exact .refl s
  · split
    · exact .refl s
    · exact (State.setKey_keeps s _ _ h).eq (State.raise_vitals ..)

theorem keyClearBody_keeps (s : State) (c : Cmd) (x : Nat) : Keeps s (keyClearBody s c x).state := by
  unfold keyClearBody
  split
  · exact .refl s
  · exact (State.dropKey_keeps s c.keySlot _ fun _ => rfl).eq (State.raise_vitals ..)

/-! ### Rings -/

/-- A body that keeps the vitals legal while the fuses stand as they do keeps them so through every entry. -/
theorem State.runEntries_keeps (sp : OpSpec) (c : Cmd) (run : Running) (n : Nat)
    (hb : ∀ t x, t.sec.fuseState = n → Keeps t (sp.body t c x).state) (xs : List Nat) (ix : Nat) (resp : List Byte) (s : State)
    (hs : s.sec.fuseState = n) : Keeps s (s.runEntries sp c run xs ix resp) := by
  induction xs generalizing s ix resp with
  | nil => exact .of_eq (State.finish_vitals ..)
  | cons x xs ih =>
    have hx := hb s x hs
    unfold State.runEntries
    split
    · rename_i u w he
      rw [he] at hx
      exact Keeps.eq hx (State.updRing_vitals ..)
    · rename_i u st de r rr he
      rw [he] at hx
      split
      · exact Keeps.eq hx (State.finish_vitals ..)
      · split
        · exact Keeps.trans hx (ih _ _ _ (hx.2.1.trans hs))
        · exact Keeps.eq hx (State.finish_vitals ..)

/-- What the ring may ask of an opcode's own execution: a command under an install key is critical, and the execution keeps the
vitals legal, where it runs under an install key on a machine whose KEK is burnt. -/
structure OpSpec.Safe (sp : OpSpec) : Prop where
  critical : sp.underIk = true → ∀ t p, sp.critical t p = true
  body : ∀ t c x, (sp.underIk = true → t.sec.fuseState = 2) → Keeps t (sp.body t c x).state

theorem OpSpec.Calm.safe {sp : OpSpec} (h : sp.Calm) (k : sp.underIk = false) : sp.Safe :=
  ⟨fun j => by simp [k] at j, fun t c x _ => .of_eq (h t c x)⟩

theorem State.authenticate_fuse {s t : State} {fn n : Nat} {d : Desc} {x : Nat} {au : Bool} {slot : Option (Nat × Nat × Nat)}
    (h : s.authenticate fn n d x true true = .pass t au slot) : s.sec.fuseState = 2 := by
  unfold State.authenticate at h
  simp only [Bool.not_true, Bool.false_and, Bool.false_eq_true, if_false, if_true] at h
  split at h
  · cases h
  · split at h
    · cases h
    · rename_i heq
      split at heq
      · assumption
      · cases heq

theorem State.runAccepted_keeps (s : State) (sp : OpSpec) (fn n : Nat) (d : Desc) (mem : Option (List Byte)) (h : sp.Safe) :
    Keeps s (s.runAccepted sp fn n d mem) := by
  have ha := State.authenticate_vitals s fn n d
  unfold State.runAccepted
  extract_lets run v part crit countOk fmt bad
  have hbad : Keeps s bad := .of_eq (State.finish_vitals ..)
  clear_value bad
  split
  · exact hbad
  · split
    · exact .of_eq (State.finish_vitals ..)
    · rename_i x _
      split
      · exact hbad
      · split
        · exact .of_eq (State.finish_vitals ..)
        · have hx := ha x crit sp.underIk
          split <;> rename_i he <;> rw [he] at hx
          · exact .of_eq ((State.finish_vitals ..).trans hx)
          · split
            · exact .of_eq ((State.finish_vitals ..).trans hx)
            · exact .of_eq ((State.updRing_vitals ..).trans hx)
          · split
            · exact .of_eq ((State.finish_vitals ..).trans hx)
            · dsimp only
              split
              · exact .of_eq ((State.finish_vitals ..).trans hx)
              · refine (Keeps.of_eq hx).trans (State.runEntries_keeps sp _ _ _ (fun u y hu => ?_) _ _ _ _ rfl)
                refine h.body u _ y fun hk => ?_
                have hc : crit = true := h.critical hk s part
                rw [hc, hk] at he
                have hf := State.authenticate_fuse he
                exact hu.trans ((congrArg Vitals.fuse hx).trans hf)

theorem State.runHead_keeps (s : State) (fn n : Nat) (k : State → Desc → State) (hk : ∀ t d, Keeps t (k t d)) :
    Keeps s (s.runHead fn n k) := by
  unfold State.runHead
  dsimp only
  split
  · exact .refl s
  · split
    · exact .of_eq ((State.complete_vitals ..).trans (State.updRing_vitals ..))
    · exact .of_eq ((State.complete_vitals ..).trans (State.updRing_vitals ..))
    · split
      · exact .of_eq ((State.finish_vitals ..).trans ((State.bump_vitals ..).trans ((State.updRing_vitals ..).trans
          (State.updRing_vitals ..))))
      · exact (Keeps.of_eq ((State.updRing_vitals ..).trans (State.updRing_vitals ..))).trans (hk _ _)

theorem State.runCommand_keeps (s : State) {sp : OpSpec} (i : Issue) (h : sp.Safe) : Keeps s (s.runCommand sp i) := by
  unfold State.runCommand
  dsimp only
  split
  · exact .of_eq (State.pass_vitals ..)
  · split
    · exact ((Keeps.of_eq (State.pass_vitals ..)).trans (State.runHead_keeps _ _ _ _ fun t d =>
        State.runAccepted_keeps _ _ _ _ _ _ h)).eq (State.settle_vitals ..)
    · exact .of_eq (State.pass_vitals ..)

theorem State.runCommand_vitals (s : State) {sp : OpSpec} (i : Issue) (h : sp.Calm) : (s.runCommand sp i).vitals = s.vitals := by
  unfold State.runCommand
  dsimp only
  split
  · exact State.pass_vitals ..
  · split
    · rw [State.settle_vitals, State.runHead_vitals, State.pass_vitals]
      intro t d
      have ha := State.authenticate_vitals t i.fn i.ring d
      unfold State.runAccepted
      extract_lets run v part crit countOk fmt bad
      have hbad : bad.vitals = t.vitals := State.finish_vitals ..
      clear_value bad
      split
      · exact hbad
      · split
        · exact State.finish_vitals ..
        · rename_i x _
          split
          · exact hbad
          · split
            · exact State.finish_vitals ..
            · have hx := ha x crit sp.underIk
              split <;> rename_i he <;> rw [he] at hx
              · exact (State.finish_vitals ..).trans hx
              · split
                · exact (State.finish_vitals ..).trans hx
                · exact (State.updRing_vitals ..).trans hx
              · split
                · exact (State.finish_vitals ..).trans hx
                · dsimp only
                  split
                  · exact (State.finish_vitals ..).trans hx
                  · exact (State.runEntries_vitals sp _ _ (fun u y => h u _ y) ..).trans hx
    · exact State.pass_vitals ..

theorem State.resume_keeps (s : State) (sps : List OpSpec) (fn n : ℕ) (h : ∀ sp ∈ sps, ∀ t c x, Keeps t (sp.body t c x).state) :
    Keeps s (State.resume s sps fn n) := by
  unfold State.resume
  split
  · exact .refl s
  · split
    · exact .refl s
    · rename_i sp hf
      split
      · exact .refl s
      · exact (State.runEntries_keeps sp _ _ s.sec.fuseState (fun t x _ => h sp (List.mem_of_find?_eq_some hf) t _ x) _ _ _ _
          rfl).eq (State.settle_vitals ..)

theorem State.resumeWaits_keeps (s : State) (sps : List OpSpec) (f : Wait → Bool)
    (h : ∀ sp ∈ sps, ∀ t c x, Keeps t (sp.body t c x).state) : Keeps s (State.resumeWaits s sps f) := by
  unfold State.resumeWaits
  refine Keeps.foldl _ (fun s w => ?_) _ _
  split
  · exact State.resume_keeps _ _ _ _ h
  · exact .refl _

end Sys2Proof.Machine
end

