-- ==== Sys2Proof/Laws/KeepsModes.lean ====
section
/-! SUPPORT. Modes, alignment, pair, resets, thermal states and register writes keep the vitals legal. -/

namespace Sys2Proof.Machine

/-! ### Alignment and the pair -/

theorem State.setAlign_keeps (s : State) (t : Time) (h : s.vitals.Legal → t.align ≤ 2) :
    Keeps s { s with time := t } :=
  ⟨rfl, rfl, fun l => ⟨l.1, l.2.1, l.2.2.1, l.2.2.2.1, h l, l.2.2.2.2.2⟩⟩

theorem State.enterAlign_keeps (s : State) (n : Nat) (h : n ≤ 2) : Keeps s (s.enterAlign n) := by
  unfold State.enterAlign
  exact ((State.setAlign_keeps s _ fun _ => h).eq (State.noteTod_vitals ..)).eq (State.raise_vitals ..)

theorem State.updTwin_keeps (s : State) (f : Twin → Twin) (h : s.vitals.Legal → (f s.twin).pair ≤ 3) : Keeps s (s.updTwin f) :=
  ⟨rfl, rfl, fun l => ⟨l.1, l.2.1, l.2.2.1, l.2.2.2.1, l.2.2.2.2.1, h l, l.2.2.2.2.2.2⟩⟩

theorem State.setThermal_keeps (s : State) (f : Thermal → Thermal) (h : s.vitals.Legal → (f s.chip.thermal).st ≤ 2) :
    Keeps s (s.setThermal f) :=
  ⟨rfl, rfl, fun l => ⟨l.1, l.2.1, l.2.2.1, l.2.2.2.1, l.2.2.2.2.1, l.2.2.2.2.2.1, h l⟩⟩

theorem State.setThermal_vitals (s : State) (f : Thermal → Thermal) (h : (f s.chip.thermal).st = s.chip.thermal.st) :
    (s.setThermal f).vitals = s.vitals := by
  unfold State.setThermal
  simp only [vitals_mk, h]
  rfl

theorem State.judgeOffset_keeps (s : State) (off : Int) : Keeps s (s.judgeOffset off) := by
  unfold State.judgeOffset
  dsimp only
  split
  · split
    · split
      · exact State.enterAlign_keeps _ _ (by decide)
      · exact .of_eq rfl
    · exact .of_eq rfl
  · split
    · split
      · exact .of_eq rfl
      · split
        · exact State.enterAlign_keeps _ _ (by decide)
        · exact .of_eq rfl
    · refine State.enterAlign_keeps _ _ ?_
      split <;> decide

theorem State.capturePps_keeps (s : State) (off : Int) (b : Nat) : Keeps s (s.capturePps off b) := by
  unfold State.capturePps
  extract_lets t a
  have ha : Keeps s a := .of_eq rfl
  clear_value a
  exact (ha.eq (State.raise_vitals ..)).trans (State.judgeOffset_keeps ..)

theorem State.twinChange_keeps (s : State) (f : State → State) (h : Keeps s (f s)) : Keeps s (s.twinChange f) := by
  unfold State.twinChange
  refine (h.eq (foldl_vitals _ (fun s p => ?_) _ _)).eq (State.noteTod_vitals ..)
  exact State.setSeq_vitals ..

theorem State.configFails_keeps (s : State) : Keeps s s.configFails := by
  unfold State.configFails
  refine Keeps.trans (t := if s.twin.configBad then s
    else State.raise { s with twin := { s.twin with configBad := true } } 0 evTwinConfigBad) ?_ ?_
  · split
    · exact .refl s
    · exact .of_eq (State.raise_vitals ..)
  · exact State.twinChange_keeps _ _ (State.updTwin_keeps _ _ fun _ => Nat.zero_le _)

theorem State.enterForming_keeps (s : State) : Keeps s s.enterForming :=
  State.twinChange_keeps _ _ (State.updTwin_keeps _ _ fun _ => Nat.le_of_ble_eq_true rfl)

theorem State.declareFailed_keeps (s : State) : Keeps s s.declareFailed := by
  unfold State.declareFailed
  extract_lets u v w
  have hu : Keeps s u := State.twinChange_keeps _ _ (State.updTwin_keeps _ _ fun _ => Nat.le_of_ble_eq_true rfl)
  have hv : Keeps s v := (hu.eq (State.updTwin_vitals _ _ fun _ => rfl)).eq (State.raise_vitals ..)
  clear_value u v
  have hw : Keeps s w := by
    refine hv.eq (foldl_vitals _ (fun s p => ?_) _ _)
    split
    · exact State.startSide_vitals ..
    · rfl
  clear_value w
  exact hw.eq (foldl_vitals _ (fun s p => State.autoTake_vitals ..) _ _)

theorem State.lanternActs_keeps (s : State) (hb : Bool) (m : LanternMsg) : Keeps s (s.lanternActs hb m) := by
  unfold State.lanternActs
  extract_lets a b c d
  have ha : Keeps s a := .of_eq (State.updTwin_vitals _ _ fun _ => rfl)
  clear_value a
  have hb : Keeps s b := by
    refine ha.trans ?_
    unfold b
    split
    · exact State.enterForming_keeps _
    · exact .refl _
  clear_value b
  have hc : Keeps s c := hb.eq (State.lanternClaim_vitals ..)
  clear_value c
  have hd : Keeps s d := by
    refine hc.trans ?_
    unfold d
    split
    · exact .of_eq (State.lanternClaim_vitals ..)
    · exact .refl _
  clear_value d
  split
  · exact hd.trans (State.declareFailed_keeps _)
  · exact hd

theorem State.twinOff_keeps (s : State) : Keeps s s.twinOff := State.updTwin_keeps _ _ fun _ => Nat.zero_le _

theorem State.twinOn_keeps (s : State) : Keeps s s.twinOn := by
  unfold State.twinOn
  extract_lets a b c
  have ha : Keeps s a := State.updTwin_keeps _ _ fun _ => Nat.zero_le _
  clear_value a
  have hb : Keeps s b := ha.eq ((State.setSeq_vitals ..).trans (State.setSeq_vitals ..))
  clear_value b
  have hc : Keeps s c := by
    refine hb.trans ?_
    unfold c
    split
    · exact .refl _
    · exact State.configFails_keeps _
  clear_value c
  split
  · exact hc.eq (State.updTwin_vitals _ _ fun _ => rfl)
  · exact hc

/-! ### Modes -/

theorem State.xptChange_keeps (s : State) (f : State → State) (h : ∀ t, (f t).vitals = t.vitals) : Keeps s (s.xptChange f) :=
  .of_eq (State.xptChange_vitals s f h)

theorem State.modeUp_keeps (s : State) (m : Mode) : Keeps s (s.modeUp m) := by
  unfold State.modeUp
  extract_lets a b
  have ha : Keeps s a := by
    unfold a
    split
    · exact .of_eq (State.syncAllV_vitals ..)
    · exact .refl s
  clear_value a
  have hb : Keeps s b := ha.eq (State.setModeSt_vitals ..)
  clear_value b
  split
  · exact hb.eq (foldl_vitals _ (fun s p => State.fabLinesUp_vitals ..) _ _)
  · exact hb.eq (foldl_vitals _ (fun s p => State.fabLinesUp_vitals ..) _ _)
  · exact hb.eq (foldl_vitals _ (fun s p => State.fabLinesUp_vitals ..) _ _)
  · exact hb.eq (State.gatesStart_vitals ..)
  · exact hb.eq rfl
  · exact ((hb.trans (State.clearUpperSlots_keeps _)).eq (State.epochsStart_vitals ..)).eq (State.cutRings_vitals ..)
  · exact hb

theorem State.modeDown_keeps (s : State) (m : Mode) : Keeps s (s.modeDown m) := by
  unfold State.modeDown
  split
  · exact .of_eq ((State.setModeSt_vitals ..).trans (State.syncAllV_vitals ..))
  · exact State.xptChange_keeps _ _ fun t => State.setModeSt_vitals ..
  · exact (((Keeps.of_eq (State.setModeSt_vitals ..)).trans (State.clearUpperSlots_keeps _)).eq (State.epochsJoin_vitals ..)).eq
      (State.cutRings_vitals ..)
  · exact (Keeps.of_eq (State.setModeSt_vitals ..)).eq (foldl_vitals _ (fun s p => State.fabFlush_vitals ..) _ _)
  · exact (Keeps.of_eq (State.setModeSt_vitals ..)).eq (foldl_vitals _ (fun s p => State.fabFlush_vitals ..) _ _)
  · exact (Keeps.of_eq (State.setModeSt_vitals ..)).eq (foldl_vitals _ (fun s p => State.fabFlush_vitals ..) _ _)
  · exact (Keeps.of_eq (State.setModeSt_vitals s .cellar .quiescing)).eq (vitals_modes _ _)

theorem State.modeBegin_keeps (s : State) : Keeps s s.modeBegin := by
  unfold State.modeBegin
  split
  · exact .refl s
  · exact .of_eq (State.showOwner_vitals _)
  · exact (State.modeUp_keeps ..).eq (State.showOwner_vitals _)
  · exact (State.modeDown_keeps ..).eq (State.showOwner_vitals _)

theorem State.applyWord_keeps (s : State) (w : Nat) (o : Option (Nat × Nat)) : Keeps s (s.applyWord w o) := by
  unfold State.applyWord
  exact ((Keeps.of_eq (State.takeWord_vitals s w)).eq rfl).trans (State.modeBegin_keeps _)

theorem State.modeApply_keeps (s : State) : Keeps s s.modeApply := by
  unfold State.modeApply
  extract_lets w sp st u
  have hu : Keeps s u := .of_eq (State.lastStatus_vitals ..)
  clear_value u
  split
  · exact hu
  · exact (hu.eq rfl).trans (State.applyWord_keeps ..)

theorem setModeBody_keeps (s : State) (c : Cmd) (x : Nat) : Keeps s (setModeBody s c x).state := by
  unfold setModeBody
  split
  · exact .refl s
  · split
    · exact .refl s
    · extract_lets st u v
      have hu : Keeps s u := .of_eq (State.lastStatus_vitals ..)
      clear_value u
      split
      · exact .refl s
      · split
        · exact hu
        · have hv : Keeps s v := (hu.eq (State.setReg_vitals ..)).trans (State.applyWord_keeps ..)
          clear_value v
          split
          · exact hv.eq rfl
          · exact hv

theorem capacitySpecs_keep : ∀ sp ∈ capacitySpecs, ∀ t c x, Keeps t (sp.body t c x).state := by
  intro sp h
  simp only [capacitySpecs, List.mem_cons, List.not_mem_nil, or_false] at h
  obtain rfl | rfl | rfl | rfl | rfl | rfl := h
  · exact fun t c x => .of_eq (innQueueSetBody_vitals t c x)
  · exact fun t c x => .of_eq (ledgerQueueBody_vitals t c x)
  · exact fun t c x => .of_eq (schedNodeBody_vitals t c x)
  · exact fun t c x => .of_eq (schedQueueBody_vitals t c x)
  · exact fun t c x => .of_eq (gateSetSpec_calm t c x)
  · exact setModeBody_keeps

theorem State.planDone_keeps (s : State) : Keeps s s.planDone := by
  unfold State.planDone
  extract_lets o src a b c src' d
  have ha : Keeps s a := .of_eq rfl
  clear_value a
  have hb : Keeps s b := by
    unfold b
    clear_value o
    split
    · split
      · exact ha.eq (State.endWait_vitals ..)
      · exact ha
    · exact ha
  clear_value b
  have hc : Keeps s c := by
    refine hb.trans (State.resumeWaits_keeps _ _ _ ?_)
    intro sp hsp
    simp only [List.mem_cons, List.not_mem_nil, or_false] at hsp
    obtain rfl | rfl := hsp
    · exact setModeBody_keeps
    · exact fun t c x => .of_eq (partAssignBody_vitals t c x)
  clear_value c
  have hd : Keeps s d := hc.trans (.of_eq rfl)
  clear_value d
  split
  · split
    · exact hd
    · exact hd.trans (State.modeApply_keeps _)
  · exact hc

theorem State.modeNext_keeps (s : State) : Keeps s s.modeNext := by
  unfold State.modeNext
  split
  · exact .refl s
  · dsimp only
    split
    · exact (Keeps.of_eq rfl).trans (State.planDone_keeps _)
    · exact (Keeps.of_eq rfl).trans (State.modeBegin_keeps _)

theorem State.modeOn_keeps (s : State) (m : Mode) : Keeps s (s.modeOn m) := by
  have hl : ∀ t : State, ((modeLinks m).foldl State.linkLanesUpIf t).vitals = t.vitals :=
    fun t => foldl_vitals _ (fun s p => State.linkLanesUpIf_vitals ..) _ _
  have hm : Keeps s (s.setModeSt m .on) := .of_eq (State.setModeSt_vitals ..)
  unfold State.modeOn
  split
  · exact State.xptChange_keeps _ _ fun t => State.setModeSt_vitals ..
  · extract_lets u v src w
    have hu : Keeps s u := .of_eq (by
      simp only [u, State.roomsSplit_vitals, State.epochsSplit_vitals, State.setModeSt_vitals, State.cutComps_vitals])
    clear_value u
    have hv : Keeps s v := hu.eq (by simp only [v, apply_ite State.vitals, State.divideCellar_vitals, ite_self])
    clear_value v
    have hw : Keeps s w := hv.eq (vitals_parse _ _)
    clear_value w
    split
    · exact hw.eq (State.lockStart_vitals ..)
    · exact hw
  · extract_lets u
    have hu : Keeps s u := hm.eq (State.trimBins_vitals ..)
    clear_value u
    exact (hu.eq (State.divideCellar_vitals _)).trans (.of_eq (vitals_tele _ _))
  · exact ((hm.eq (hl _)).trans (State.twinOn_keeps _)).eq (State.noteTod_vitals ..)
  · exact (Keeps.of_eq (State.syncAllV_vitals ..)).eq (State.setModeSt_vitals ..)
  · exact hm.eq (hl _)
  · exact hm.eq (hl _)

theorem State.modeOff_keeps (s : State) (m : Mode) : Keeps s (s.modeOff m) := by
  unfold State.modeOff
  extract_lets a b src
  have ha : Keeps s a := .of_eq (State.setModeSt_vitals ..)
  clear_value a
  have hl : ∀ t : State, ((modeLinks m).foldl State.fabLinesDown t).vitals = t.vitals :=
    fun t => foldl_vitals _ (fun s p => State.fabLinesDown_vitals ..) _ _
  split
  · exact ha.eq (hl _)
  · exact ha.eq (hl _)
  · exact ((ha.eq (hl _)).trans (State.twinOff_keeps _)).eq (State.noteTod_vitals ..)
  · have hb : Keeps s b := ha.eq (State.trimBins_vitals ..)
    clear_value b
    exact hb.trans (.of_eq rfl)
  · have hb : ∀ u : State, u.vitals = a.vitals → Keeps s u := fun u h => ha.eq h
    apply hb
    rw [apply_ite State.vitals, State.divideCellar_vitals, ite_self]
    exact (State.updTwin_vitals _ (fun t => { t with b := {} }) fun _ => rfl).trans (State.cutComps_vitals ..)
  · exact ha
  · exact ha

/-! ### Resets and thermal states -/

theorem State.cleared_keeps (s : State) : Keeps s s.cleared :=
  ⟨rfl, rfl, fun l => ⟨l.1, l.2.1, fun h => ⟨(l.2.2.1 h).1, fun _ => rfl⟩, ⟨rfl, rfl⟩, Nat.zero_le _, Nat.zero_le _, Nat.zero_le _⟩⟩

theorem State.sysCleared_keeps (s : State) : Keeps s s.sysCleared :=
  ⟨rfl, rfl, fun l => ⟨l.1, l.2.1, fun h => ⟨(l.2.2.1 h).1, fun _ => rfl⟩, ⟨rfl, rfl⟩, Nat.zero_le _, Nat.zero_le _,
    l.2.2.2.2.2.2⟩⟩

theorem State.startUp_vitals (s : State) : s.startUp.vitals = s.vitals := by
  unfold State.startUp
  split <;> rfl

theorem State.allStop_keeps (s : State) : Keeps s s.allStop := by
  unfold State.allStop
  exact ((Keeps.of_eq (State.farewell_vitals s)).trans (State.sysCleared_keeps _)).eq rfl

theorem State.shutdown_keeps (s : State) : Keeps s s.shutdown := by
  unfold State.shutdown
  refine (State.allStop_keeps s).trans ?_
  exact ⟨rfl, rfl, fun l => ⟨l.1, l.2.1, l.2.2.1, l.2.2.2.1, l.2.2.2.2.1, l.2.2.2.2.2.1, Nat.le_refl 2⟩⟩

theorem State.throttle_keeps (s : State) (t : Int) : Keeps s (s.throttle t) := by
  unfold State.throttle
  exact ((Keeps.of_eq (State.syncIngress_vitals s)).trans (State.setThermal_keeps _ _ fun _ => Nat.le_of_ble_eq_true rfl)).eq (State.raise_vitals ..)

theorem State.warnTemp_vitals (s : State) (t : Int) : (s.warnTemp t).vitals = s.vitals := by
  unfold State.warnTemp
  split
  · split
    · rfl
    · exact (State.raise_vitals ..).trans (State.setThermal_vitals _ _ rfl)
  · split
    · exact State.setThermal_vitals _ _ rfl
    · rfl

end Sys2Proof.Machine
end

