-- ==== Sys2Proof/Laws/VitalsExec.lean ====
section
/-! SUPPORT. The commands that leave the vitals as they are. -/

namespace Sys2Proof.Machine

/-! ### Rings -/

theorem ans_vitals (s : State) : vitalsOf (ans s) = some s.vitals := by
  unfold ans
  (repeat' split) <;> rfl

/-! ### HostIf -/

theorem execBusMasterEnable_vitals (dt : ℕ) (fn : Fin 2) (s : State) : vitalsOf (execBusMasterEnable dt fn s) = some s.vitals :=
    by
  unfold execBusMasterEnable
  simp only [vitalsOf_ans, State.settle_vitals, State.drainComps_vitals, implies_true, foldl_vitals, State.drainEvts_vitals,
      State.updFunc_vitals, State.pass_vitals]

theorem execBusMasterDisable_vitals (dt : ℕ) (fn : Fin 2) (s : State) : vitalsOf (execBusMasterDisable dt fn s) = some s.vitals
    := by
  unfold execBusMasterDisable
  simp only [vitalsOf_ans, State.updFunc_vitals, State.pass_vitals]

theorem execConfigurationRequest_vitals (dt : ℕ) (fn : Fin 2) (s : State) : vitalsOf (execConfigurationRequest dt fn s) = some
    s.vitals := by
  unfold execConfigurationRequest
  simp only [State.takeSubsys_vitals, State.pass_vitals, ans_vitals, State.pass_vitals, pending_vit, vitals_mk, stepping_vit,
      fuse_vit, kek_vit, keys_vit, linkUp_vit, speed_vit, width_vit, align_vit, pair_vit, therm_vit]

theorem execMsixTableWrite_vitals (dt : ℕ) (fn : Fin 2) (off : Fin 4096) (value : Word32) (s : State) : vitalsOf
    (execMsixTableWrite dt fn off value s) = some s.vitals := by
  unfold execMsixTableWrite
  simp only [apply_ite vitalsOf, vitalsOf_ans, State.pass_vitals, State.updFunc_vitals, ite_self]

theorem execVersionOffer_vitals (dt : ℕ) (fn : Fin 2) (value : Word32) (s : State) : vitalsOf (execVersionOffer dt fn value s) =
    some s.vitals := by
  unfold execVersionOffer
  simp only [apply_ite vitalsOf, vitalsOf_ans, State.updFunc_vitals, State.pass_vitals, ite_self]

theorem execCommandDoorbell_vitals (dt : ℕ) (fn : Fin 2) (ring : Fin 64) (value : BitVec 64) (entries : List (BitVec 512)) (s :
    State) : vitalsOf (execCommandDoorbell dt fn ring value entries s) = some s.vitals := by
  unfold execCommandDoorbell
  simp only [apply_ite vitalsOf, vitalsOf_ans, State.pass_vitals, State.badDoorbell_vitals, State.updRing_vitals,
      State.settle_vitals, apply_ite State.vitals, State.hostErr_vitals, ite_self]

theorem execCompletionDoorbell_vitals (dt : ℕ) (fn : Fin 2) (ring : Fin 64) (value : BitVec 64) (s : State) : vitalsOf
    (execCompletionDoorbell dt fn ring value s) = some s.vitals := by
  unfold execCompletionDoorbell
  simp only [apply_ite vitalsOf, vitalsOf_ans, State.pass_vitals, State.badDoorbell_vitals, State.settle_vitals,
      State.drainComps_vitals, State.updRing_vitals, ite_self]

theorem execEventDoorbell_vitals (dt : ℕ) (fn : Fin 2) (ring : Fin 16) (value : BitVec 64) (s : State) : vitalsOf
    (execEventDoorbell dt fn ring value s) = some s.vitals := by
  unfold execEventDoorbell
  simp only [apply_ite vitalsOf, vitalsOf_ans, State.pass_vitals, State.badDoorbell_vitals, State.drainEvts_vitals,
      State.updRing_vitals, ite_self]

theorem execPuntDoorbell_vitals (dt : ℕ) (fn : Fin 2) (ring : Fin 32) (value : BitVec 64) (entries : List (BitVec 128)) (s :
    State) : vitalsOf (execPuntDoorbell dt fn ring value entries s) = some s.vitals := by
  unfold execPuntDoorbell
  simp only [apply_ite vitalsOf, vitalsOf_ans, State.pass_vitals, State.badDoorbell_vitals, State.updRing_vitals, apply_ite
      State.vitals, State.hostErr_vitals, ite_self]

theorem execInjectDoorbell_vitals (dt : ℕ) (fn : Fin 2) (ring : Fin 32) (value : BitVec 64) (entries : List (BitVec 256)) (s :
    State) : vitalsOf (execInjectDoorbell dt fn ring value entries s) = some s.vitals := by
  unfold execInjectDoorbell
  simp only [apply_ite vitalsOf, vitalsOf_ans, State.pass_vitals, State.badDoorbell_vitals, State.updRing_vitals, apply_ite
      State.vitals, State.hostErr_vitals, ite_self]

theorem execMw2BadWrite_vitals (dt : ℕ) (fn : Fin 2) (off : ℕ) (z3 : ℕ) (s : State) : vitalsOf (execMw2BadWrite dt fn off z3 s) =
    some s.vitals := by
  unfold execMw2BadWrite
  simp only [apply_ite vitalsOf, vitalsOf_ans, State.badAccess_vitals, State.pass_vitals, ite_self]

theorem execMw0BadAccess_vitals (dt : ℕ) (fn : Fin 2) (off : ℕ) (z3 : ℕ) (write : Bool) (s : State) : vitalsOf (execMw0BadAccess
    dt fn off z3 write s) = some s.vitals := by
  unfold execMw0BadAccess
  simp only [pending_vit, State.pass_vitals, stepping_vit, apply_ite vitalsOf, vitalsOf_ans, State.badAccess_vitals, vitals_mk,
      fuse_vit, kek_vit, keys_vit, linkUp_vit, speed_vit, width_vit, align_vit, pair_vit, therm_vit, ite_self]

theorem execInterruptModerationExpiry_vitals (dt : ℕ) (fn : Fin 2) (r : Fin 208) (s : State) : vitalsOf
    (execInterruptModerationExpiry dt fn r s) = some s.vitals := by
  unfold execInterruptModerationExpiry
  simp only 
  (repeat' split) <;> simp only [vitalsOf_ans, State.pass_vitals, State.sendVector_vitals, State.updRing_vitals]

theorem execProgressReport_vitals (dt : ℕ) (fn : Fin 2) (ring : Fin 64) (s : State) : vitalsOf (execProgressReport dt fn ring s)
    = some s.vitals := by
  unfold execProgressReport
  simp only 
  (repeat' split) <;> simp only [vitalsOf_ans, State.pass_vitals, State.updRing_vitals]

theorem execNop_vitals (i : Issue) (s : State) : vitalsOf (execNop i s) = some s.vitals :=
  congrArg some (State.runCommand_vitals s i (fun t c x => rfl))

/-! ### Security -/

theorem execFenceClear_vitals (i : Issue) (s : State) : vitalsOf (execFenceClear i s) = some s.vitals :=
  congrArg some (State.runCommand_vitals s i (fun t c x => fenceClearBody_vitals t c x))

theorem execAuthPolicySet_vitals (i : Issue) (s : State) : vitalsOf (execAuthPolicySet i s) = some s.vitals :=
  congrArg some (State.runCommand_vitals s i (fun t c x => authPolicyBody_vitals t c x))

theorem execFuseRead_vitals (i : Issue) (s : State) : vitalsOf (execFuseRead i s) = some s.vitals :=
  congrArg some (State.runCommand_vitals s i (fun t c x => rfl))

/-! ### TimeBase -/

theorem execFollowerCheck_vitals (dt : ℕ) (error : ℤ) (s : State) : vitalsOf (execFollowerCheck dt error s) = some s.vitals := by
  unfold execFollowerCheck
  simp only [State.pass_vitals, ans_vitals, State.syncAllV_vitals, State.raise_vitals, ite_self, apply_ite vitalsOf,
      State.pass_vitals, pending_vit, vitals_mk, stepping_vit, fuse_vit, kek_vit, keys_vit, linkUp_vit, speed_vit, width_vit,
      align_vit, pair_vit, therm_vit]

theorem execFollowerErrorCleared_vitals (dt : ℕ) (s : State) : vitalsOf (execFollowerErrorCleared dt s) = some s.vitals := by
  unfold execFollowerErrorCleared
  simp only [pending_vit, State.pass_vitals, align_vit, apply_ite vitalsOf, vitalsOf_ans, State.raiseSt_vitals, vitals_mk,
      stepping_vit, fuse_vit, kek_vit, keys_vit, linkUp_vit, speed_vit, width_vit, pair_vit, therm_vit, ite_self]

theorem execTimeAdjust_vitals (i : Issue) (s : State) : vitalsOf (execTimeAdjust i s) = some s.vitals :=
  congrArg some (State.runCommand_vitals s i (fun t c x => timeAdjustBody_vitals t c x))

theorem execTimeInitGo_vitals (dt : ℕ) (fn : Fin 2) (value : Word32) (s : State) : vitalsOf (execTimeInitGo dt fn value s) = some
    s.vitals := by
  unfold execTimeInitGo
  simp only [vitalsOf_ans, apply_ite State.vitals, State.decideStep_vitals, ite_self, implies_true, State.sharedWrite_vitals,
      State.pass_vitals]

theorem execTimeLatch_vitals (dt : ℕ) (fn : Fin 2) (value : Word32) (s : State) : vitalsOf (execTimeLatch dt fn value s) = some
    s.vitals := by
  unfold execTimeLatch
  simp only [pending_vit, align_vit, vitalsOf_ans, apply_ite State.vitals, vitals_mk, stepping_vit, fuse_vit, kek_vit, keys_vit,
      linkUp_vit, speed_vit, width_vit, pair_vit, therm_vit, ite_self, implies_true, State.sharedWrite_vitals, State.pass_vitals]

theorem execSlewEnd_vitals (dt : ℕ) (s : State) : vitalsOf (execSlewEnd dt s) = some s.vitals := by
  unfold execSlewEnd
  simp only [pending_vit, State.pass_vitals, align_vit]
  (repeat' split) <;> simp only [vitalsOf_ans, State.pass_vitals, vitals_mk, stepping_vit, fuse_vit, kek_vit, keys_vit,
      linkUp_vit, speed_vit, width_vit, pair_vit, therm_vit]

theorem execPpsCorrectionDecision_vitals (dt : ℕ) (s : State) : vitalsOf (execPpsCorrectionDecision dt s) = some s.vitals := by
  unfold execPpsCorrectionDecision
  simp only [pending_vit, State.pass_vitals, align_vit]
  (repeat' split) <;> simp only [vitalsOf_ans, State.pass_vitals, State.decideStep_vitals, vitals_mk, stepping_vit, fuse_vit,
      kek_vit, keys_vit, linkUp_vit, speed_vit, width_vit, pair_vit, therm_vit, State.slewOff_vitals]

theorem execPpsOutPulse_vitals (dt : ℕ) (s : State) : vitalsOf (execPpsOutPulse dt s) = some s.vitals := by
  unfold execPpsOutPulse
  simp only [pending_vit, State.pass_vitals, align_vit, apply_ite vitalsOf, vitalsOf_ans, vitals_mk, stepping_vit, fuse_vit,
      kek_vit, keys_vit, linkUp_vit, speed_vit, width_vit, pair_vit, therm_vit, ite_self]

theorem execPpsOutPulseEnd_vitals (dt : ℕ) (s : State) : vitalsOf (execPpsOutPulseEnd dt s) = some s.vitals := by
  unfold execPpsOutPulseEnd
  simp only [pending_vit, State.pass_vitals, align_vit, apply_ite vitalsOf, vitalsOf_ans, vitals_mk, stepping_vit, fuse_vit,
      kek_vit, keys_vit, linkUp_vit, speed_vit, width_vit, pair_vit, therm_vit, ite_self]

theorem execTsRead_vitals (i : Issue) (s : State) : vitalsOf (execTsRead i s) = some s.vitals :=
  congrArg some (State.runCommand_vitals s i (fun t c x => tsReadBody_vitals t c x))

/-! ### Lane -/

theorem execPcsAligned_vitals (dt : ℕ) (port : Fin 74) (s : State) : vitalsOf (execPcsAligned dt port s) = some s.vitals := by
  unfold execPcsAligned
  simp only [State.pass_vitals, ans_vitals, State.updLanes_vitals, State.updPort_vitals, State.linkLanesUp_vitals,
      State.refreshGroup_vitals, State.raise_vitals, State.portReturns_vitals, ite_self, apply_ite vitalsOf, State.pass_vitals]

theorem execLaneTxSettled_vitals (dt : ℕ) (lane : Fin 152) (s : State) : vitalsOf (execLaneTxSettled dt lane s) = some s.vitals
    := by
  unfold execLaneTxSettled
  simp only [apply_ite vitalsOf, vitalsOf_ans, State.pass_vitals]
  (repeat' split) <;> simp only [vitalsOf_ans, State.moveLane_vitals, State.pass_vitals, State.beginAttempt_vitals]

theorem execSignalQualified_vitals (dt : ℕ) (lane : Fin 152) (s : State) : vitalsOf (execSignalQualified dt lane s) = some
    s.vitals := by
  unfold execSignalQualified
  simp only [apply_ite vitalsOf, vitalsOf_ans, State.pass_vitals]
  (repeat' split) <;> simp only [vitalsOf_ans, State.moveLane_vitals, State.pass_vitals, State.updPort_vitals]

theorem execLaneAdapted_vitals (dt : ℕ) (lane : Fin 152) (s : State) : vitalsOf (execLaneAdapted dt lane s) = some s.vitals := by
  unfold execLaneAdapted
  simp only [apply_ite vitalsOf, vitalsOf_ans, State.moveLane_vitals, State.pass_vitals, ite_self]

theorem execLossOfSignal_vitals (dt : ℕ) (lane : Fin 152) (s : State) : vitalsOf (execLossOfSignal dt lane s) = some s.vitals :=
    by
  unfold execLossOfSignal
  simp only [apply_ite vitalsOf, vitalsOf_ans, State.pass_vitals]
  (repeat' split) <;> simp only [vitalsOf_ans, State.updLane_vitals, State.pass_vitals, State.raise_vitals,
      State.moveLane_vitals, State.laneFalls_vitals]

theorem execLossOfLock_vitals (dt : ℕ) (lane : Fin 152) (s : State) : vitalsOf (execLossOfLock dt lane s) = some s.vitals := by
  unfold execLossOfLock
  simp only [apply_ite vitalsOf, vitalsOf_ans, State.pass_vitals]
  (repeat' split) <;> simp only [vitalsOf_ans, State.laneFalls_vitals, State.pass_vitals]

theorem execPcsAlignmentLost_vitals (dt : ℕ) (port : Fin 74) (s : State) : vitalsOf (execPcsAlignmentLost dt port s) = some
    s.vitals := by
  unfold execPcsAlignmentLost
  simp only [State.pass_vitals, ans_vitals, State.portToLock_vitals, apply_ite State.vitals, ite_self, State.pass_vitals]

theorem execHighSer_vitals (dt : ℕ) (port : Fin 74) (s : State) : vitalsOf (execHighSer dt port s) = some s.vitals := by
  unfold execHighSer
  simp only [apply_ite vitalsOf, vitalsOf_ans, State.portToLock_vitals, State.pass_vitals, ite_self]

theorem execLockTimeout_vitals (dt : ℕ) (port : Fin 74) (s : State) : vitalsOf (execLockTimeout dt port s) = some s.vitals := by
  unfold execLockTimeout
  simp only 
  (repeat' split) <;> simp only [vitalsOf_ans, State.pass_vitals, State.updLanes_vitals, State.updPort_vitals,
      State.ladder_vitals, State.raise_vitals]

theorem execRetryInterval_vitals (dt : ℕ) (port : Fin 74) (s : State) : vitalsOf (execRetryInterval dt port s) = some s.vitals :=
    by
  unfold execRetryInterval
  simp only 
  (repeat' split) <;> simp only [vitalsOf_ans, State.pass_vitals, State.beginAttempt_vitals, apply_ite State.vitals,
      State.moveLane_vitals, ite_self, implies_true, foldl_vitals]

theorem execPrbsPatternSet_vitals (dt : ℕ) (fn : Fin 2) (lane : Fin 48) (value : Word32) (s : State) :
    vitalsOf (execPrbsPatternSet dt fn lane value s) = some s.vitals := by
  refine congrArg some ((State.mw0_vitals _ _ _ _ fun t => ?_).trans (State.pass_vitals ..))
  dsimp only
  (repeat' split) <;> simp only [State.storeReg_vitals, State.updLane_vitals, State.laneFalls_vitals, State.beginAttempt_vitals,
    State.moveLane_vitals]

theorem execPrbsCheckerLock_vitals (dt : ℕ) (lane : Fin 48) (s : State) : vitalsOf (execPrbsCheckerLock dt lane s) = some
    s.vitals := by
  unfold execPrbsCheckerLock
  simp only [apply_ite vitalsOf, vitalsOf_ans, State.updLane_vitals, State.pass_vitals, ite_self]

theorem execPrbsLockLost_vitals (dt : ℕ) (lane : Fin 48) (errors : ℕ) (s : State) : vitalsOf (execPrbsLockLost dt lane errors s)
    = some s.vitals := by
  unfold execPrbsLockLost
  simp only [State.pass_vitals, ans_vitals, State.bumpNz_vitals, State.raise_vitals, State.updLane_vitals, ite_self, apply_ite
      vitalsOf, State.pass_vitals]

theorem execRemoteFaultReceived_vitals (dt : ℕ) (port : Fin 48) (fault : Bool) (s : State) : vitalsOf (execRemoteFaultReceived dt
    port fault s) = some s.vitals := by
  unfold execRemoteFaultReceived
  simp only [State.updPort_vitals, State.pass_vitals, ans_vitals, State.pauseCheck_vitals, apply_ite State.vitals, ite_self,
      State.pass_vitals]

/-! ### Transport -/

theorem execFrameAlignCheck_vitals (dt : ℕ) (level : Fin 240) (hits : List (ℕ × ℕ)) (s : State) : vitalsOf (execFrameAlignCheck
    dt level hits s) = some s.vitals := by
  unfold execFrameAlignCheck
  dsimp only
  (repeat' split) <;> simp [State.pass_vitals, ans_vitals, State.runSeconds_vitals, State.updLevel_vitals,
      State.levelSearch_vitals, State.portToLock_vitals, State.refreshGroup_vitals, State.raiseLevel_vitals, State.pass_vitals]

theorem execLofDeclare_vitals (dt : ℕ) (level : Fin 240) (s : State) : vitalsOf (execLofDeclare dt level s) = some s.vitals := by
  unfold execLofDeclare
  simp only [State.pass_vitals, ans_vitals, State.refreshGroup_vitals, State.raiseLevel_vitals, State.updLevel_vitals,
      State.runSeconds_vitals, ite_self, apply_ite vitalsOf, State.pass_vitals]

theorem execLofClear_vitals (dt : ℕ) (level : Fin 240) (s : State) : vitalsOf (execLofClear dt level s) = some s.vitals := by
  unfold execLofClear
  simp only [State.pass_vitals, ans_vitals, State.refreshGroup_vitals, State.raiseLevel_vitals, State.updLevel_vitals,
      State.runSeconds_vitals, ite_self, apply_ite vitalsOf, State.pass_vitals]

theorem execTransportFrameReceived_vitals (dt : ℕ) (f : XptFrame) (s : State) : vitalsOf (execTransportFrameReceived dt f s) =
    some s.vitals := by
  unfold execTransportFrameReceived
  simp only [State.pass_vitals, ans_vitals, State.pointer_vitals, State.justify_vitals, State.overhead_vitals,
      State.runSeconds_vitals, State.setDefects_vitals, State.portToLock_vitals, State.clientFrame_vitals,
      State.memberFrame_vitals, State.msiCheck_vitals, apply_ite State.vitals, ite_self, apply_ite vitalsOf, State.pass_vitals]

theorem execTransportFrameSend_vitals (dt : ℕ) (g : Fin 6) (layer : ℕ) (index : ℕ) (s : State) : vitalsOf (execTransportFrameSend
    dt g layer index s) = some s.vitals := by
  unfold execTransportFrameSend
  simp only [State.pass_vitals, ans_vitals, State.updEnt_vitals, State.outGmp_vitals, State.outClient_vitals, ite_self, apply_ite
      vitalsOf, State.pass_vitals]

theorem execPmSecond_vitals (dt : ℕ) (s : State) : vitalsOf (execPmSecond dt s) = some s.vitals := by
  unfold execPmSecond
  simp only [ans_vitals, State.runSeconds_vitals, State.pass_vitals, State.pass_vitals]

theorem execPmBinStart_vitals (dt : ℕ) (s : State) : vitalsOf (execPmBinStart dt s) = some s.vitals := by
  unfold execPmBinStart
  simp only [State.runSeconds_vitals, State.pass_vitals, ans_vitals, State.updEnt_vitals, foldl_vitals, implies_true,
      State.pass_vitals]

theorem execPmBinClosed_vitals (dt : ℕ) (g : Fin 6) (day : Bool) (s : State) : vitalsOf (execPmBinClosed dt g day s) = some
    s.vitals := by
  unfold execPmBinClosed
  dsimp only
  (repeat' split) <;> first | rfl | simp only [State.runSeconds_vitals, State.pass_vitals, ans_vitals, State.raise_vitals,
      apply_ite State.vitals, ite_self, apply_ite vitalsOf, vitalsOf_ans, State.pass_vitals, foldl_vitals, implies_true,
      pending_vit, vitals_mk, stepping_vit, fuse_vit, kek_vit, keys_vit, linkUp_vit, speed_vit, width_vit, align_vit, pair_vit,
      therm_vit]

theorem execXptOhSet_vitals (i : Issue) (s : State) : vitalsOf (execXptOhSet i s) = some s.vitals :=
  congrArg some (State.runCommand_vitals s i (fun t c x => xptOhSetBody_vitals t c x))

theorem execXptOhRead_vitals (i : Issue) (s : State) : vitalsOf (execXptOhRead i s) = some s.vitals :=
  congrArg some (State.runCommand_vitals s i (fun t c x => xptOhReadBody_vitals t c x))

theorem execPmRead_vitals (i : Issue) (s : State) : vitalsOf (execPmRead i s) = some s.vitals :=
  congrArg some (State.runCommand_vitals s i (fun t c x => pmReadBody_vitals t c x))

/-! ### Groups -/

theorem execGroupEnable_vitals (dt : ℕ) (fn : Fin 2) (g : Fin 6) (s : State) : vitalsOf (execGroupEnable dt fn g s) = some
    s.vitals := by
  unfold execGroupEnable
  simp only [apply_ite Prod.fst, vitalsOf_ans, apply_ite State.vitals, State.groupSwitch_vitals, State.setReg_vitals,
      State.groupEnableCheck_vitals, ite_self, State.cfgReject_vitals, implies_true, State.mw0_vitals, State.pass_vitals]

theorem execGroupDisable_vitals (dt : ℕ) (fn : Fin 2) (g : Fin 6) (s : State) : vitalsOf (execGroupDisable dt fn g s) = some
    s.vitals := by
  unfold execGroupDisable
  simp only [vitalsOf_ans, apply_ite State.vitals, State.cfgReject_vitals, State.groupSwitch_vitals, State.setReg_vitals,
      ite_self, implies_true, State.mw0_vitals, State.pass_vitals]

theorem execGroupStartingDone_vitals (dt : ℕ) (g : Fin 6) (s : State) : vitalsOf (execGroupStartingDone dt g s) = some s.vitals
    := by
  unfold execGroupStartingDone
  simp only [apply_ite vitalsOf, vitalsOf_ans, State.pass_vitals, State.groupNext_vitals, State.powerDone_vitals,
      State.updGroup_vitals, ite_self]

theorem execGroupQuiescingDone_vitals (dt : ℕ) (g : Fin 6) (s : State) : vitalsOf (execGroupQuiescingDone dt g s) = some s.vitals
    := by
  unfold execGroupQuiescingDone
  simp only [apply_ite vitalsOf, vitalsOf_ans, State.pass_vitals, State.groupOff_vitals, ite_self]

/-! ### Mac -/

theorem execPauseReceived_vitals (dt : ℕ) (port : Fin 48) (quanta : BitVec 16) (s : State) : vitalsOf (execPauseReceived dt port
    quanta s) = some s.vitals := by
  unfold execPauseReceived
  simp only [apply_ite vitalsOf, vitalsOf_ans, State.pass_vitals, State.gotPause_vitals, State.bumpPair_vitals,
      State.takeControlSeq_vitals, ite_self]

theorem execPfcReceived_vitals (dt : ℕ) (port : Fin 48) (enable : BitVec 8) (quanta : Vector (BitVec 16) 8) (s : State) :
    vitalsOf (execPfcReceived dt port enable quanta s) = some s.vitals := by
  unfold execPfcReceived
  simp only [apply_ite vitalsOf, vitalsOf_ans, State.pass_vitals, State.gotPfc_vitals, State.bumpPair_vitals,
      State.takeControlSeq_vitals, ite_self]

theorem execPauseExpiry_vitals (dt : ℕ) (port : Fin 48) (cls : Option (Fin 8)) (s : State) : vitalsOf (execPauseExpiry dt port
    cls s) = some s.vitals := by
  unfold execPauseExpiry
  simp only 
  (repeat' split) <;> simp only [vitalsOf_ans, State.pass_vitals, State.endPause_vitals]

theorem execLedgerExtendedInterim_vitals (dt : ℕ) (port : Fin 48) (s : State) : vitalsOf (execLedgerExtendedInterim dt port s) =
    some s.vitals := by
  unfold execLedgerExtendedInterim
  simp only 
  (repeat' split) <;> simp only [vitalsOf_ans, State.interim_vitals, implies_true, foldl_vitals, State.pass_vitals]

theorem execPauseResend_vitals (dt : ℕ) (port : Fin 48) (s : State) : vitalsOf (execPauseResend dt port s) = some s.vitals := by
  unfold execPauseResend
  simp only 
  (repeat' split) <;> simp only [vitalsOf_ans, State.pauseCheck_vitals, State.pass_vitals, State.countPauseTx_vitals,
      State.updPort_vitals]

theorem execMacAddrSet_vitals (i : Issue) (s : State) : vitalsOf (execMacAddrSet i s) = some s.vitals :=
  congrArg some (State.runCommand_vitals s i (fun t c x => macAddrSetBody_vitals t c x))

theorem execMacAddrRead_vitals (i : Issue) (s : State) : vitalsOf (execMacAddrRead i s) = some s.vitals :=
  congrArg some (State.runCommand_vitals s i (fun t c x => macAddrReadBody_vitals t c x))

/-! ### Parse -/

theorem execParseGraphWrite_vitals (i : Issue) (s : State) : vitalsOf (execParseGraphWrite i s) = some s.vitals :=
  congrArg some (State.runCommand_vitals s i (fun t c x => parseGraphWriteBody_vitals t c x))

theorem execParseGraphActivate_vitals (i : Issue) (s : State) : vitalsOf (execParseGraphActivate i s) = some s.vitals :=
  congrArg some (State.runCommand_vitals s i (fun t c x => parseGraphActivateBody_vitals t c x))

/-! ### Lookup -/

theorem execTcamScrub_vitals (dt : ℕ) (bank : Fin 12) (row : Fin 16384) (corrupt : Bool) (s : State) : vitalsOf (execTcamScrub dt
    bank row corrupt s) = some s.vitals := by
  unfold execTcamScrub
  simp only [apply_ite vitalsOf, vitalsOf_ans, State.tcamRepair_vitals, State.pass_vitals, ite_self]

/-! ### Epoch -/

theorem execTableWrite_vitals (i : Issue) (s : State) : vitalsOf (execTableWrite i s) = some s.vitals :=
  congrArg some (State.runCommand_vitals s i (fun t c x => tableWriteBody_vitals t c x))

theorem execTableDelete_vitals (i : Issue) (s : State) : vitalsOf (execTableDelete i s) = some s.vitals :=
  congrArg some (State.runCommand_vitals s i (fun t c x => tableDeleteBody_vitals t c x))

theorem execTableRead_vitals (i : Issue) (s : State) : vitalsOf (execTableRead i s) = some s.vitals :=
  congrArg some (State.runCommand_vitals s i (fun t c x => tableReadBody_vitals t c x))

theorem execEpochCommit_vitals (i : Issue) (s : State) : vitalsOf (execEpochCommit i s) = some s.vitals :=
  congrArg some (State.runCommand_vitals s i (fun t c x => epochCommitBody_vitals t c x))

theorem epochCommitSpec_calm : epochCommitSpec.Calm := fun t c x => epochCommitBody_vitals t c x
theorem tableWriteSpec_calm : tableWriteSpec.Calm := fun t c x => tableWriteBody_vitals t c x

theorem execEpochCommitResume_vitals (dt : ℕ) (fn : Fin 2) (ring : Fin 64) (s : State) :
    vitalsOf (execEpochCommitResume dt fn ring s) = some s.vitals := by
  unfold execEpochCommitResume
  dsimp only
  split
  · refine congrArg some ((State.resume_vitals _ _ _ _ ?_).trans (State.pass_vitals ..))
    intro sp h
    rw [List.mem_singleton.mp h]
    exact epochCommitSpec_calm
  · exact congrArg some (State.pass_vitals ..)

theorem execEpochStall_vitals (dt : ℕ) (fn : Fin 2) (ring : Fin 64) (s : State) : vitalsOf (execEpochStall dt fn ring s) = some
    s.vitals := by
  unfold execEpochStall
  simp only 
  (repeat' split) <;> simp only [vitalsOf_ans, State.pass_vitals, State.raise_vitals, State.updRing_vitals]

theorem execEpochDiscard_vitals (i : Issue) (s : State) : vitalsOf (execEpochDiscard i s) = some s.vitals :=
  congrArg some (State.runCommand_vitals s i (fun t c x => epochDiscardBody_vitals t c x))

theorem execTcamRowMove_vitals (dt : ℕ) (bank : Fin 12) (s : State) : vitalsOf (execTcamRowMove dt bank s) = some s.vitals := by
  unfold execTcamRowMove
  extract_lets a b
  have ha : a.vitals = s.vitals := State.pass_vitals ..
  clear_value a
  split
  · exact congrArg some ha
  · split
    · exact congrArg some ha
    · extract_lets r ep u
      have hu : u.vitals = s.vitals := by
        refine Eq.trans ?_ ha
        unfold u
        split
        · exact State.shiftRow_vitals ..
        · rfl
        · rfl
      clear_value u
      have hw : ∀ fn n, ((u.resume [tableWriteSpec] fn n).resumeWaits [epochDiscardSpec] Wait.isDiscard).vitals = s.vitals := by
        intro fn n
        refine (State.resumeWaits_vitals _ _ _ ?_).trans ((State.resume_vitals _ _ _ _ ?_).trans hu)
        · intro sp h
          rw [List.mem_singleton.mp h]
          exact epochDiscardSpec_calm
        · intro sp h
          rw [List.mem_singleton.mp h]
          exact tableWriteSpec_calm
      split
      · exact congrArg some hu
      · exact congrArg some (hw _ _)
      · exact congrArg some (hw _ _)

theorem execVersionReclaim_vitals (dt : ℕ) (p : Fin 2) (s : State) : vitalsOf (execVersionReclaim dt p s) = some s.vitals := by
  unfold execVersionReclaim
  simp only [apply_ite vitalsOf, vitalsOf_ans, State.updEpochs_vitals, State.reclaimEntry_vitals, implies_true, foldl_vitals,
      State.pass_vitals, ite_self]

theorem execTcamBankFormat_vitals (i : Issue) (s : State) : vitalsOf (execTcamBankFormat i s) = some s.vitals :=
  congrArg some (State.runCommand_vitals s i (fun t c x => tcamBankFormatBody_vitals t c x))

/-! ### Policer -/

theorem execPolicerSet_vitals (i : Issue) (s : State) : vitalsOf (execPolicerSet i s) = some s.vitals :=
  congrArg some (State.runCommand_vitals s i (fun t c x => policerSetBody_vitals t c x))

/-! ### Byway -/

theorem execPuntReservation_vitals (dt : ℕ) (fn : Fin 2) (ring : Fin 32) (s : State) : vitalsOf (execPuntReservation dt fn ring
    s) = some s.vitals := by
  unfold execPuntReservation
  simp only [pending_vit, State.pass_vitals]
  (repeat' split) <;> simp only [vitalsOf_ans, State.pass_vitals, State.puntNotClaimed_vitals, vitals_mk, stepping_vit, fuse_vit,
      kek_vit, keys_vit, linkUp_vit, speed_vit, width_vit, align_vit, pair_vit, therm_vit, State.deliverPunt_vitals,
      State.ringShort_vitals]

theorem execInjectFrameRead_vitals (dt : ℕ) (fn : Fin 2) (ring : Fin 32) (data : Option (List Byte)) (s : State) : vitalsOf
    (execInjectFrameRead dt fn ring data s) = some s.vitals := by
  unfold execInjectFrameRead
  simp only 
  (repeat' split) <;> simp only [vitalsOf_ans, State.pass_vitals, State.injectFrame_vitals, State.injectCount_vitals,
      State.updRing_vitals]

/-! ### Frame -/

theorem execFrameReceived_vitals (dt : ℕ) (port : Fin 48) (data : List Byte) (err : RxErr) (s : State) : vitalsOf
    (execFrameReceived dt port data err s) = some s.vitals := by
  unfold execFrameReceived
  dsimp only
  (repeat' split) <;> first | rfl | simp only [State.pass_vitals, ans_vitals, State.idleLine_vitals, State.gotFrame_vitals,
      State.updClient_vitals, State.updPort_vitals, State.updEgress_vitals, apply_ite State.vitals, ite_self, apply_ite vitalsOf,
      vitalsOf_ans, State.pass_vitals, foldl_vitals, implies_true, pending_vit, vitals_mk, stepping_vit, fuse_vit, kek_vit,
      keys_vit, linkUp_vit, speed_vit, width_vit, align_vit, pair_vit, therm_vit]

/-! ### Switch -/

theorem execDedupWindowAge_vitals (dt : ℕ) (pairId : Fin 256) (inPort : Fin 256) (p : Fin 2) (s : State) : vitalsOf
    (execDedupWindowAge dt pairId inPort p s) = some s.vitals := by
  unfold execDedupWindowAge
  simp only [pending_vit, State.pass_vitals, pair_vit]
  (repeat' split) <;> simp only [vitalsOf_ans, State.pass_vitals, vitals_mk, stepping_vit, fuse_vit, kek_vit, keys_vit,
      linkUp_vit, speed_vit, width_vit, align_vit, therm_vit]

theorem execStagingToLanding_vitals (dt : ℕ) (slice : Fin 4) (s : State) : vitalsOf (execStagingToLanding dt slice s) = some
    s.vitals := by
  unfold execStagingToLanding
  simp only [apply_ite Prod.fst]
  (repeat' split) <;> simp only [vitalsOf_ans, State.pass_vitals, State.dropRef_vitals, State.capturePkt_vitals,
      State.police_vitals, State.pauseCheck_vitals, State.updStaging_vitals, State.enterCore_vitals]

theorem execSwitchCellTime_vitals (dt : ℕ) (s : State) : vitalsOf (execSwitchCellTime dt s) = some s.vitals := by
  unfold execSwitchCellTime
  simp only [State.pass_vitals, State.purgeInput_vitals, ans_vitals, State.carryCell_vitals, foldl_vitals, implies_true,
      State.pass_vitals, pending_vit, vitals_mk, stepping_vit, fuse_vit, kek_vit, keys_vit, linkUp_vit, speed_vit, width_vit,
      align_vit, pair_vit, therm_vit]

theorem execD2dFlitCrcFail_vitals (dt : ℕ) (sameFlit : Bool) (s : State) : vitalsOf (execD2dFlitCrcFail dt sameFlit s) = some
    s.vitals := by
  unfold execD2dFlitCrcFail
  simp only [pending_vit, State.pass_vitals, stepping_vit, apply_ite vitalsOf, vitalsOf_ans, State.raise_vitals, vitals_mk,
      fuse_vit, kek_vit, keys_vit, linkUp_vit, speed_vit, width_vit, align_vit, pair_vit, therm_vit, State.bump_vitals, ite_self]

/-! ### Inn -/

theorem execCellarSpill_vitals (dt : ℕ) (spill : Spill) (s : State) : vitalsOf (execCellarSpill dt spill s) = some s.vitals := by
  unfold execCellarSpill
  dsimp only
  (repeat' split) <;> first | rfl | simp only [State.pass_vitals, ans_vitals, State.spillBlocked_vitals, State.spillPage_vitals,
      State.cellarState_vitals, apply_ite State.vitals, ite_self, apply_ite vitalsOf, vitalsOf_ans, State.pass_vitals,
      foldl_vitals, implies_true, pending_vit, vitals_mk, stepping_vit, fuse_vit, kek_vit, keys_vit, linkUp_vit, speed_vit,
      width_vit, align_vit, pair_vit, therm_vit]

theorem execPullBack_vitals (dt : ℕ) (q : Fin 1048576) (out : Fin 3) (s : State) : vitalsOf (execPullBack dt q out s) = some
    s.vitals := by
  unfold execPullBack
  dsimp only
  (repeat' split) <;> simp [State.pass_vitals, ans_vitals, State.bump_vitals, State.updQueue_vitals, State.growChain_vitals,
      State.noteTraffic_vitals, State.freePage_vitals, State.readOne_vitals, State.pass_vitals, foldl_vitals]

theorem execInnPoolSet_vitals (i : Issue) (s : State) : vitalsOf (execInnPoolSet i s) = some s.vitals :=
  congrArg some (State.runCommand_vitals s i (fun t c x => innPoolSetBody_vitals t c x))

theorem execInnQueueSet_vitals (i : Issue) (s : State) : vitalsOf (execInnQueueSet i s) = some s.vitals :=
  congrArg some (State.runCommand_vitals s i (fun t c x => innQueueSetBody_vitals t c x))

theorem execInnAudit_vitals (i : Issue) (s : State) : vitalsOf (execInnAudit i s) = some s.vitals :=
  congrArg some (State.runCommand_vitals s i (fun t c x => rfl))

theorem execInnAuditDone_vitals (dt : ℕ) (fn : Fin 2) (ring : Fin 64) (s : State) : vitalsOf (execInnAuditDone dt fn ring s) =
    some s.vitals := by
  unfold execInnAuditDone
  simp only [pending_vit, State.pass_vitals, apply_ite vitalsOf, vitalsOf_ans, State.endWait_vitals,
      State.lowerQuarantined_vitals, State.returnRoom_vitals, implies_true, foldl_vitals, vitals_mk, stepping_vit, fuse_vit,
      kek_vit, keys_vit, linkUp_vit, speed_vit, width_vit, align_vit, pair_vit, therm_vit, ite_self]

/-! ### Ledger -/

theorem execLedgerClassSet_vitals (i : Issue) (s : State) : vitalsOf (execLedgerClassSet i s) = some s.vitals :=
  congrArg some (State.runCommand_vitals s i (fun t c x => ledgerClassBody_vitals t c x))

theorem execLedgerPortSet_vitals (i : Issue) (s : State) : vitalsOf (execLedgerPortSet i s) = some s.vitals :=
  congrArg some (State.runCommand_vitals s i (fun t c x => ledgerPortBody_vitals t c x))

theorem execLedgerQueueSet_vitals (i : Issue) (s : State) : vitalsOf (execLedgerQueueSet i s) = some s.vitals :=
  congrArg some (State.runCommand_vitals s i (fun t c x => ledgerQueueBody_vitals t c x))

theorem execLedgerQueueRead_vitals (i : Issue) (s : State) : vitalsOf (execLedgerQueueRead i s) = some s.vitals :=
  congrArg some (State.runCommand_vitals s i (fun t c x => ledgerReadBody_vitals t c x))

/-! ### Sched -/

theorem execSchedNodeSet_vitals (i : Issue) (s : State) : vitalsOf (execSchedNodeSet i s) = some s.vitals :=
  congrArg some (State.runCommand_vitals s i (fun t c x => schedNodeBody_vitals t c x))

theorem execSchedQueueSet_vitals (i : Issue) (s : State) : vitalsOf (execSchedQueueSet i s) = some s.vitals :=
  congrArg some (State.runCommand_vitals s i (fun t c x => schedQueueBody_vitals t c x))

theorem execGateListSet_vitals (i : Issue) (s : State) : vitalsOf (execGateListSet i s) = some s.vitals :=
  congrArg some (State.runCommand_vitals s i (fun t c x => gateSetBody_vitals t c x))

theorem execGateListStart_vitals (dt : ℕ) (port : Fin 48) (s : State) : vitalsOf (execGateListStart dt port s) = some s.vitals :=
    by
  unfold execGateListStart
  simp only 
  (repeat' split) <;> simp only [vitalsOf_ans, State.pass_vitals, State.gateFinish_vitals, State.updGate_vitals,
      State.syncV_vitals]

theorem execGateEntryBoundary_vitals (dt : ℕ) (port : Fin 48) (s : State) : vitalsOf (execGateEntryBoundary dt port s) = some
    s.vitals := by
  unfold execGateEntryBoundary
  simp only 
  (repeat' split) <;> simp only [vitalsOf_ans, State.pass_vitals, State.updGate_vitals, State.syncV_vitals]

/-! ### Release -/

theorem State.choose_vitals (s : State) (p : Nat) (ok : Queue → Bool) (f ix : Nat) (r : Nat × State)
    (h : s.choose p ok f ix = some r) : r.2.vitals = s.vitals := by
  induction f generalizing s ix r with
  | zero => cases h; rfl
  | succ f ih =>
    unfold State.choose at h
    dsimp only at h
    split at h
    · cases h
    · split at h
      · cases h
      · exact (ih _ _ _ h).trans ((State.updNode_vitals ..).trans (foldl_vitals _ (fun s c => State.setDeficit_vitals ..) _ _))

theorem State.select_vitals (s : State) (p : Nat) (ready : Bool) (r : Nat × Bool × State) (h : s.select p ready = some r) :
    r.2.2.vitals = s.vitals := by
  unfold State.select at h
  dsimp only at h
  split at h
  · cases h; rfl
  · obtain ⟨u, hu, rfl⟩ := Option.map_eq_some_iff.mp h
    unfold State.excessPick at hu
    dsimp only at hu
    split at hu
    · exact State.choose_vitals _ _ _ _ _ _ hu
    · cases hu

theorem execReleaseOpportunity_vitals (dt : ℕ) (port : Fin 48) (out : Fin 3) (s : State) :
    vitalsOf (execReleaseOpportunity dt port out s) = some s.vitals := by
  unfold execReleaseOpportunity
  extract_lets a p b c
  have ha : a.vitals = s.vitals := State.pass_vitals ..
  clear_value a
  have hb : b.vitals = s.vitals := (State.noteGateHeld_vitals ..).trans ((State.syncV_vitals ..).trans ha)
  clear_value b
  have hc : c.vitals = s.vitals := by
    refine Eq.trans ?_ hb
    unfold c
    split
    · exact State.notePullLate_vitals ..
    · rfl
  clear_value c
  split
  · exact congrArg some ha
  · split
    · exact congrArg some hc
    · rename_i h
      have ht := State.select_vitals _ _ _ _ h
      split
      · exact congrArg some hc
      · extract_lets read path
        have hr : ∀ t, (read t).1.vitals = t.vitals := fun t => State.readChain_vitals ..
        clear_value read
        split
        · exact congrArg some ((State.clearDeficits_vitals ..).trans ((State.reTag_vitals ..).trans
            ((State.dropPoisoned_vitals ..).trans ((hr _).trans hc))))
        · exact congrArg some ((State.releaseHead_vitals ..).trans ((hr _).trans (ht.trans hc)))

theorem execDownFlush_vitals (dt : ℕ) (port : Fin 48) (s : State) : vitalsOf (execDownFlush dt port s) = some s.vitals := by
  unfold execDownFlush
  simp only 
  (repeat' split) <;> simp only [vitalsOf_ans, State.pass_vitals, State.flushDown_vitals]

theorem execAgeDiscard_vitals (dt : ℕ) (q : Fin 1048576) (s : State) : vitalsOf (execAgeDiscard dt q s) = some s.vitals := by
  unfold execAgeDiscard
  simp only 
  (repeat' split) <;> simp only [vitalsOf_ans, State.pass_vitals, State.clearDeficits_vitals, State.reTag_vitals,
      State.bump_vitals, State.dropRef_vitals, State.dropHead_vitals]

/-! ### Egress -/

theorem execEgressEdit_vitals (dt : ℕ) (port : Fin 48) (outs : Fin 3 × Fin 3) (s : State) : vitalsOf (execEgressEdit dt
    port outs s) = some s.vitals := by
  unfold execEgressEdit
  dsimp only
  (repeat' split) <;> first | rfl | simp only [State.pass_vitals, ans_vitals, State.updEgress_vitals, State.updDomain_vitals,
      State.updQueue_vitals, State.dropRef_vitals, State.editDrop_vitals, State.editPass_vitals, State.holdSlots_vitals,
      State.readRewrite_vitals, State.perfEvent_vitals, apply_ite State.vitals, ite_self, apply_ite vitalsOf, vitalsOf_ans,
      State.pass_vitals, foldl_vitals, implies_true, pending_vit, vitals_mk, stepping_vit, fuse_vit, kek_vit, keys_vit,
      linkUp_vit, speed_vit, width_vit, align_vit, pair_vit, therm_vit]

theorem execMacTransmit_vitals (dt : ℕ) (port : Fin 48) (s : State) : vitalsOf (execMacTransmit dt port s) = some s.vitals := by
  unfold execMacTransmit
  dsimp only
  (repeat' split) <;> first | rfl | simp only [State.pass_vitals, ans_vitals, State.updEgress_vitals, State.takeSlot_vitals,
      State.updQueue_vitals, State.bump_vitals, State.oneStep_vitals, State.twoStep_vitals, State.bumpPair_vitals,
      State.departed_vitals, State.toLine_vitals, apply_ite State.vitals, ite_self, apply_ite vitalsOf, vitalsOf_ans,
      State.pass_vitals, foldl_vitals, implies_true, pending_vit, vitals_mk, stepping_vit, fuse_vit, kek_vit, keys_vit,
      linkUp_vit, speed_vit, width_vit, align_vit, pair_vit, therm_vit]

/-! ### Caravan -/

theorem execCaravanFirstStage_vitals (dt : ℕ) (s : State) : vitalsOf (execCaravanFirstStage dt s) = some s.vitals := by
  unfold execCaravanFirstStage
  dsimp only
  (repeat' split) <;> first | rfl | simp only [State.pass_vitals, ans_vitals, State.replicate_vitals, apply_ite State.vitals,
      ite_self, apply_ite vitalsOf, vitalsOf_ans, State.pass_vitals, foldl_vitals, implies_true, pending_vit, vitals_mk,
      stepping_vit, fuse_vit, kek_vit, keys_vit, linkUp_vit, speed_vit, width_vit, align_vit, pair_vit, therm_vit]

theorem execCaravanSecondStage_vitals (dt : ℕ) (s : State) : vitalsOf (execCaravanSecondStage dt s) = some s.vitals := by
  unfold execCaravanSecondStage
  dsimp only
  split
  · exact congrArg some (State.pass_vitals ..)
  · generalize hu : ({ (s.pass dt) with caravan := _ } : State) = u
    have ha : u.vitals = s.vitals := hu ▸ State.pass_vitals s dt
    clear hu
    split
    · exact congrArg some ((State.dropRef_vitals ..).trans ((State.capturePkt_vitals ..).trans ((State.bump_vitals ..).trans ha)))
    · split <;> rename_i h
      · have ht := State.allocChain_vitals u (grpPool (u.groupEntry ‹Pkt›.pp.dest)) (roomsOf ‹Pkt›.data.length)
        rw [h] at ht
        exact congrArg some ((State.dropRef_vitals ..).trans ((State.capturePkt_vitals ..).trans ((State.bump_vitals ..).trans
          (ht.trans ha))))
      · have ht := State.allocChain_vitals u (grpPool (u.groupEntry ‹Pkt›.pp.dest)) (roomsOf ‹Pkt›.data.length)
        rw [h] at ht
        rw [vitalsOf_ans, apply_ite State.vitals, State.dropRef_vitals, ite_self]
        refine congrArg some ((vitals_caravan _ _).trans ((foldl_vitals_fst _ (fun r m => ?_) _ _).trans
          ((State.updChain_vitals ..).trans (ht.trans ha))))
        obtain ⟨t, l⟩ := r
        dsimp only
        split
        · exact (State.releaseChain_vitals ..).trans (State.bump_vitals ..)
        · exact State.takeRef_vitals ..

theorem execMcastGroupWrite_vitals (i : Issue) (s : State) : vitalsOf (execMcastGroupWrite i s) = some s.vitals :=
  congrArg some (State.runCommand_vitals s i (fun t c x => mcastGroupBody_vitals t c x))

theorem execMcastGroupRead_vitals (i : Issue) (s : State) : vitalsOf (execMcastGroupRead i s) = some s.vitals :=
  congrArg some (State.runCommand_vitals s i (fun t c x => mcastReadBody_vitals t c x))

theorem execMcastMembersWrite_vitals (i : Issue) (s : State) : vitalsOf (execMcastMembersWrite i s) = some s.vitals :=
  congrArg some (State.runCommand_vitals s i (fun t c x => mcastMembersBody_vitals t c x))

theorem execMcastEsetWrite_vitals (i : Issue) (s : State) : vitalsOf (execMcastEsetWrite i s) = some s.vitals :=
  congrArg some (State.runCommand_vitals s i (fun t c x => mcastEsetBody_vitals t c x))

theorem execLedgerAdmission_vitals (dt : ℕ) (w : Fin 8) (s : State) : vitalsOf (execLedgerAdmission dt w s) = some s.vitals := by
  unfold execLedgerAdmission
  dsimp only
  (repeat' split) <;> first | rfl | simp only [State.pass_vitals, ans_vitals, State.decideCopy_vitals, State.evaluated_vitals,
      State.endReplications_vitals, State.pushSecond_vitals, State.updOutput_vitals, State.offer_vitals, apply_ite State.vitals,
      ite_self, apply_ite vitalsOf, vitalsOf_ans, State.pass_vitals, foldl_vitals, implies_true, pending_vit, vitals_mk,
      stepping_vit, fuse_vit, kek_vit, keys_vit, linkUp_vit, speed_vit, width_vit, align_vit, pair_vit, therm_vit]

/-! ### Fabric -/

theorem execCapCellReceived_vitals (dt : ℕ) (j : Fin 26) (word : BitVec 64) (s : State) : vitalsOf (execCapCellReceived dt j word
    s) = some s.vitals := by
  unfold execCapCellReceived
  simp only 
  (repeat' split) <;> simp only [vitalsOf_ans, State.pass_vitals, State.decideLink_vitals, State.updLink_vitals,
      State.goodCell_vitals, State.toCap_vitals]

theorem execReneg_vitals (dt : ℕ) (fn : Fin 2) (j : Fin 26) (s : State) : vitalsOf (execReneg dt fn j s) = some s.vitals := by
  unfold execReneg
  simp only [vitalsOf_ans, apply_ite State.vitals, State.toCap_vitals, ite_self, implies_true, State.sharedWrite_vitals,
      State.pass_vitals]

theorem execCapCellSend_vitals (dt : ℕ) (j : Fin 26) (s : State) : vitalsOf (execCapCellSend dt j s) = some s.vitals := by
  unfold execCapCellSend
  simp only [apply_ite vitalsOf, vitalsOf_ans, State.updLink_vitals, State.sendCell_vitals, State.pass_vitals, ite_self]

theorem execFabricCellTransmit_vitals (dt : ℕ) (j : Fin 26) (s : State) : vitalsOf (execFabricCellTransmit dt j s) = some
    s.vitals := by
  unfold execFabricCellTransmit
  simp only [apply_ite vitalsOf, vitalsOf_ans, State.noteCredit_vitals, State.pass_vitals]
  (repeat' split) <;> simp only [vitalsOf_ans, State.sendData_vitals, State.noteCredit_vitals, State.pass_vitals,
      State.sendReturn_vitals, State.updOutput_vitals]

theorem execCreditSyncSend_vitals (dt : ℕ) (j : Fin 26) (s : State) : vitalsOf (execCreditSyncSend dt j s) = some s.vitals := by
  unfold execCreditSyncSend
  simp only [apply_ite vitalsOf, vitalsOf_ans, State.updLink_vitals, State.sendCell_vitals, State.pass_vitals, ite_self]

theorem execCreditSyncReceived_vitals (dt : ℕ) (j : Fin 26) (sentUnits : BitVec 32) (returnedUnits : BitVec 32) (s : State) :
    vitalsOf (execCreditSyncReceived dt j sentUnits returnedUnits s) = some s.vitals := by
  unfold execCreditSyncReceived
  simp only [apply_ite vitalsOf, vitalsOf_ans, State.pass_vitals, State.updLink_vitals, State.addCredit_vitals, apply_ite
      State.vitals, State.goodCell_vitals, ite_self]

theorem execFabCreditStall_vitals (dt : ℕ) (j : Fin 26) (s : State) : vitalsOf (execFabCreditStall dt j s) = some s.vitals := by
  unfold execFabCreditStall
  simp only 
  (repeat' split) <;> simp only [vitalsOf_ans, State.noteCredit_vitals, State.pass_vitals, State.raise_vitals,
      State.updLink_vitals]

theorem execIdleOrCreditCellReceived_vitals (dt : ℕ) (j : Fin 26) (kind : Fin 3) (units : ℕ) (s : State) : vitalsOf
    (execIdleOrCreditCellReceived dt j kind units s) = some s.vitals := by
  unfold execIdleOrCreditCellReceived
  simp only [apply_ite vitalsOf, vitalsOf_ans, State.pass_vitals, State.gotReturn_vitals, State.goodCell_vitals, ite_self]

theorem execKeepaliveSend_vitals (dt : ℕ) (j : Fin 26) (s : State) : vitalsOf (execKeepaliveSend dt j s) = some s.vitals := by
  unfold execKeepaliveSend
  simp only [apply_ite vitalsOf, vitalsOf_ans, State.sendCell_vitals, State.pass_vitals, ite_self]

theorem execReceiveTimeout_vitals (dt : ℕ) (j : Fin 26) (s : State) : vitalsOf (execReceiveTimeout dt j s) = some s.vitals := by
  unfold execReceiveTimeout
  simp only [apply_ite vitalsOf, vitalsOf_ans, State.linkDown_vitals, State.pass_vitals, ite_self]

theorem execIdleEnter_vitals (dt : ℕ) (j : Fin 26) (s : State) : vitalsOf (execIdleEnter dt j s) = some s.vitals := by
  unfold execIdleEnter
  simp only [apply_ite vitalsOf, vitalsOf_ans, State.updLink_vitals, State.sendCell_vitals, State.pass_vitals, ite_self]

theorem execIdleEnterReceived_vitals (dt : ℕ) (j : Fin 26) (s : State) : vitalsOf (execIdleEnterReceived dt j s) = some s.vitals
    := by
  unfold execIdleEnterReceived
  simp only [apply_ite vitalsOf, vitalsOf_ans, State.updLink_vitals, State.goodCell_vitals, State.pass_vitals, ite_self]

theorem execIdleExit_vitals (dt : ℕ) (j : Fin 26) (s : State) : vitalsOf (execIdleExit dt j s) = some s.vitals := by
  unfold execIdleExit
  simp only [apply_ite vitalsOf, vitalsOf_ans, State.updLink_vitals, State.pass_vitals, ite_self]

theorem execIdleExitTimeout_vitals (dt : ℕ) (j : Fin 26) (s : State) : vitalsOf (execIdleExitTimeout dt j s) = some s.vitals := by
  unfold execIdleExitTimeout
  simp only [apply_ite vitalsOf, vitalsOf_ans, State.linkDown_vitals, State.pass_vitals, ite_self]

theorem execDataCellReceived_vitals (dt : ℕ) (j : Fin 26) (cell : List Byte) (err : CellErr) (s : State) : vitalsOf
    (execDataCellReceived dt j cell err s) = some s.vitals := by
  unfold execDataCellReceived
  simp only [apply_ite vitalsOf, vitalsOf_ans, State.pass_vitals, State.bump_vitals, State.countCell_vitals,
      State.goodCell_vitals, State.gotReturn_vitals, State.takeCell_vitals, State.updLink_vitals, ite_self]

theorem execReassemblyTimeout_vitals (dt : ℕ) (j : Fin 26) (src : Fin 4096) (s : State) : vitalsOf (execReassemblyTimeout dt j
    src s) = some s.vitals := by
  unfold execReassemblyTimeout
  simp only 
  (repeat' split) <;> simp only [vitalsOf_ans, State.pass_vitals, State.updCtxs_vitals, State.reasmErr_vitals]

theorem execFabReachWrite_vitals (i : Issue) (s : State) : vitalsOf (execFabReachWrite i s) = some s.vitals :=
  congrArg some (State.runCommand_vitals s i (fun t c x => fabReachBody_vitals t c x))

/-! ### Power -/

theorem execDomainStartingDone_vitals (dt : ℕ) (d : Fin 236) (s : State) : vitalsOf (execDomainStartingDone dt d s) = some
    s.vitals := by
  unfold execDomainStartingDone
  simp only [apply_ite vitalsOf, vitalsOf_ans, State.pass_vitals, State.refreshRooms_vitals, apply_ite State.vitals,
      State.resetF_vitals, State.updStack_vitals, State.startUnits_vitals, State.domainOn_vitals, ite_self, State.resetT_vitals]

theorem execDomainQuiescingDone_vitals (dt : ℕ) (d : Fin 236) (s : State) : vitalsOf (execDomainQuiescingDone dt d s) = some
    s.vitals := by
  unfold execDomainQuiescingDone
  simp only [apply_ite vitalsOf, vitalsOf_ans, State.pass_vitals, State.domainOff_vitals, ite_self]

theorem execDomainDrainTimeout_vitals (dt : ℕ) (d : Fin 236) (s : State) : vitalsOf (execDomainDrainTimeout dt d s) = some
    s.vitals := by
  unfold execDomainDrainTimeout
  simp only [State.pass_vitals, ans_vitals, State.domainFlush_vitals, State.domainOff_vitals, State.updDomain_vitals, ite_self,
      apply_ite vitalsOf, State.pass_vitals]

theorem execPowerDomainOn_vitals (i : Issue) (s : State) : vitalsOf (execPowerDomainOn i s) = some s.vitals :=
  congrArg some (State.runCommand_vitals s i (fun t c x => powerBody_vitals true t c x))

theorem execPowerDomainOff_vitals (i : Issue) (s : State) : vitalsOf (execPowerDomainOff i s) = some s.vitals :=
  congrArg some (State.runCommand_vitals s i (fun t c x => powerBody_vitals false t c x))

theorem execPowerStatusRead_vitals (i : Issue) (s : State) : vitalsOf (execPowerStatusRead i s) = some s.vitals :=
  congrArg some (State.runCommand_vitals s i (fun t c x => rfl))

/-! ### Twin -/

theorem execLanternSend_vitals (dt : ℕ) (s : State) : vitalsOf (execLanternSend dt s) = some s.vitals := by
  unfold execLanternSend
  simp only [apply_ite vitalsOf, vitalsOf_ans, State.pass_vitals, State.lantern_vitals, apply_ite State.vitals,
      State.bump_vitals, implies_true, State.updTwin_vitals, ite_self]

theorem execClaimWaitEnd_vitals (dt : ℕ) (p : Fin 2) (s : State) : vitalsOf (execClaimWaitEnd dt p s) = some s.vitals := by
  unfold execClaimWaitEnd
  simp only 
  (repeat' split) <;> simp only [vitalsOf_ans, State.pass_vitals, State.startSide_vitals]

theorem execSideEffectsStopped_vitals (dt : ℕ) (p : Fin 2) (s : State) : vitalsOf (execSideEffectsStopped dt p s) = some s.vitals
    := by
  unfold execSideEffectsStopped
  simp only [apply_ite vitalsOf, vitalsOf_ans, State.pass_vitals, State.stopSide_vitals, ite_self]

theorem execTwinLockLevelChange_vitals (dt : ℕ) (level : Bool) (s : State) : vitalsOf (execTwinLockLevelChange dt level s) = some
    s.vitals := by
  unfold execTwinLockLevelChange
  simp only [apply_ite vitalsOf, vitalsOf_ans, State.pass_vitals, implies_true, State.updTwin_vitals, State.raise_vitals,
      apply_ite State.vitals, State.yieldClaim_vitals, ite_self, foldl_vitals]

theorem execLockGainStart_vitals (dt : ℕ) (s : State) : vitalsOf (execLockGainStart dt s) = some s.vitals := by
  unfold execLockGainStart
  dsimp only
  (repeat' split) <;> first | rfl | simp only [State.pass_vitals, ans_vitals, State.updTwin_vitals, State.lockStart_vitals,
      apply_ite State.vitals, ite_self, apply_ite vitalsOf, vitalsOf_ans, State.pass_vitals, foldl_vitals, implies_true,
      pending_vit, vitals_mk, stepping_vit, fuse_vit, kek_vit, keys_vit, linkUp_vit, speed_vit, width_vit, align_vit, pair_vit,
      therm_vit]

theorem execArbGrantDeassert_vitals (dt : ℕ) (s : State) : vitalsOf (execArbGrantDeassert dt s) = some s.vitals := by
  unfold execArbGrantDeassert
  simp only [apply_ite vitalsOf, vitalsOf_ans, State.yieldClaim_vitals, State.raise_vitals, implies_true, State.updTwin_vitals,
      State.pass_vitals, ite_self]

theorem execArbGrantAssert_vitals (dt : ℕ) (s : State) : vitalsOf (execArbGrantAssert dt s) = some s.vitals := by
  unfold execArbGrantAssert
  simp only [pair_vit, implies_true, State.updTwin_vitals, State.pass_vitals, apply_ite vitalsOf, vitalsOf_ans,
      State.autoTake_vitals, ite_self]

theorem execTwinClaim_vitals (i : Issue) (s : State) : vitalsOf (execTwinClaim i s) = some s.vitals :=
  congrArg some (State.runCommand_vitals s i (fun t c x => twinClaimBody_vitals t c x))

theorem execTwinRelease_vitals (i : Issue) (s : State) : vitalsOf (execTwinRelease i s) = some s.vitals :=
  congrArg some (State.runCommand_vitals s i (fun t c x => twinReleaseBody_vitals t c x))

theorem execSyncSend_vitals (dt : ℕ) (s : State) : vitalsOf (execSyncSend dt s) = some s.vitals := by
  unfold execSyncSend
  simp only [apply_ite vitalsOf, vitalsOf_ans, implies_true, State.updTwin_vitals, State.pass_vitals, ite_self]

theorem execDivergeTimeout_vitals (dt : ℕ) (p : Fin 2) (s : State) : vitalsOf (execDivergeTimeout dt p s) = some s.vitals := by
  unfold execDivergeTimeout
  simp only 
  (repeat' split) <;> simp only [vitalsOf_ans, State.pass_vitals, State.raise_vitals, State.updClaim_vitals]

theorem execTwinDigestRead_vitals (i : Issue) (s : State) : vitalsOf (execTwinDigestRead i s) = some s.vitals :=
  congrArg some (State.runCommand_vitals s i (fun t c x => rfl))

theorem execSeqSampleSend_vitals (dt : ℕ) (port : Fin 48) (s : State) : vitalsOf (execSeqSampleSend dt port s) = some s.vitals :=
    by
  unfold execSeqSampleSend
  simp only [apply_ite vitalsOf, vitalsOf_ans, State.pass_vitals]
  (repeat' split) <;> simp only [vitalsOf_ans, State.pass_vitals, implies_true, State.updTwin_vitals, State.updPort_vitals]

theorem execSeqSampleReceived_vitals (dt : ℕ) (port : Byte) (len : BitVec 16) (fcs : BitVec 32) (seq : BitVec 40) (s : State) :
    vitalsOf (execSeqSampleReceived dt port len fcs seq s) = some s.vitals := by
  unfold execSeqSampleReceived
  simp only [apply_ite vitalsOf, vitalsOf_ans, State.updPort_vitals, State.pass_vitals, ite_self]

theorem execSeqSampleDecide_vitals (dt : ℕ) (port : Fin 48) (s : State) : vitalsOf (execSeqSampleDecide dt port s) = some
    s.vitals := by
  unfold execSeqSampleDecide
  simp only 
  (repeat' split) <;> simp only [vitalsOf_ans, State.pass_vitals, State.decideSample_vitals, State.updPort_vitals]

theorem execTwinFwdSet_vitals (i : Issue) (s : State) : vitalsOf (execTwinFwdSet i s) = some s.vitals :=
  congrArg some (State.runCommand_vitals s i (fun t c x => twinFwdBody_vitals t c x))

theorem execNwLoad_vitals (i : Issue) (s : State) : vitalsOf (execNwLoad i s) = some s.vitals :=
  congrArg some (State.runCommand_vitals s i (fun t c x => nwLoadBody_vitals t c x))

theorem execNightWatch_vitals (dt : ℕ) (p : Fin 2) (pathOk : Bool) (s : State) : vitalsOf (execNightWatch dt p pathOk s) = some
    s.vitals := by
  unfold execNightWatch
  simp only [therm_vit, State.pass_vitals, apply_ite vitalsOf, vitalsOf_ans, State.updClaim_vitals, apply_ite State.vitals,
      State.raise_vitals, ite_self, implies_true, foldl_vitals, State.bump_vitals]

/-! ### Telemetry -/

theorem execPerfCfg_vitals (i : Issue) (s : State) : vitalsOf (execPerfCfg i s) = some s.vitals :=
  congrArg some (State.runCommand_vitals s i (fun t c x => perfCfgBody_vitals t c x))

theorem execPerfSample_vitals (dt : ℕ) (slice : Fin 8) (ctr : Fin 8) (skid : Fin 17) (cat : Fin 4) (pp : Option (BitVec 256)) (s
    : State) : vitalsOf (execPerfSample dt slice ctr skid cat pp s) = some s.vitals := by
  unfold execPerfSample
  simp only [pending_vit, State.updPerf_vitals, State.pass_vitals, apply_ite vitalsOf, vitalsOf_ans, State.bump_vitals, apply_ite
      State.vitals, State.raiseSaturated_vitals, State.sendEvt_vitals, vitals_mk, stepping_vit, fuse_vit, kek_vit, keys_vit,
      linkUp_vit, speed_vit, width_vit, align_vit, pair_vit, therm_vit, ite_self]

theorem execCounterRead_vitals (i : Issue) (s : State) : vitalsOf (execCounterRead i s) = some s.vitals :=
  congrArg some (State.runCommand_vitals s i (fun t c x => counterReadBody_vitals t c x))

theorem execCounterReadClear_vitals (i : Issue) (s : State) : vitalsOf (execCounterReadClear i s) = some s.vitals :=
  congrArg some (State.runCommand_vitals s i (fun t c x => counterReadClearBody_vitals t c x))

theorem execCounterWrite_vitals (i : Issue) (s : State) : vitalsOf (execCounterWrite i s) = some s.vitals :=
  congrArg some (State.runCommand_vitals s i (fun t c x => counterWriteBody_vitals t c x))

theorem execCounterSetCfg_vitals (i : Issue) (s : State) : vitalsOf (execCounterSetCfg i s) = some s.vitals :=
  congrArg some (State.runCommand_vitals s i (fun t c x => counterSetCfgBody_vitals t c x))

theorem execAccumulatorFlush_vitals (dt : ℕ) (set : ℕ) (inst : ℕ) (item : ℕ) (outs : Fin 3 × Fin 3) (s : State) : vitalsOf
    (execAccumulatorFlush dt set inst item outs s) = some s.vitals := by
  unfold execAccumulatorFlush
  simp only [State.pass_vitals, ans_vitals, State.readStat_vitals, State.flushCtr_vitals, apply_ite State.vitals, ite_self,
      apply_ite vitalsOf, State.pass_vitals]

theorem execFlowCacheWriteback_vitals (dt : ℕ) (index : Fin 268435456) (evict : Bool) (s : State) : vitalsOf
    (execFlowCacheWriteback dt index evict s) = some s.vitals := by
  unfold execFlowCacheWriteback
  simp only 
  (repeat' split) <;> simp only [vitalsOf_ans, State.pass_vitals, State.flowWrite_vitals]

/-! ### MemCtl -/

theorem execHbmTrainingDone_vitals (dt : ℕ) (stack : Fin 4) (ok : Bool) (s : State) : vitalsOf (execHbmTrainingDone dt stack ok
    s) = some s.vitals := by
  unfold execHbmTrainingDone
  simp only [apply_ite vitalsOf, vitalsOf_ans, State.pass_vitals, State.autoOn_vitals, State.refreshRooms_vitals,
      State.startUnits_vitals, State.domainOn_vitals, implies_true, foldl_vitals, State.updStack_vitals, State.raise_vitals,
      ite_self]

theorem execDimmProbeDone_vitals (dt : ℕ) (c : Fin 8) (dimms : Fin 3) (ranks : Fin 3) (gib : Fin 129) (conforms : Bool) (readable
    : Bool) (dense : Bool) (s : State) : vitalsOf (execDimmProbeDone dt c dimms ranks gib conforms readable dense s) = some
    s.vitals := by
  unfold execDimmProbeDone
  simp only [apply_ite vitalsOf, vitalsOf_ans, State.pass_vitals, State.updXm_vitals, ite_self]

theorem execMemTrain_vitals (i : Issue) (s : State) : vitalsOf (execMemTrain i s) = some s.vitals :=
  congrArg some (State.runCommand_vitals s i (fun t c x => memTrainBody_vitals t c x))

theorem execMemTrainDone_vitals (dt : ℕ) (fn : Fin 2) (ring : Fin 64) (margin : ℕ) (s : State) : vitalsOf (execMemTrainDone dt fn
    ring margin s) = some s.vitals := by
  unfold execMemTrainDone
  simp only 
  (repeat' split) <;> simp only [vitalsOf_ans, State.pass_vitals, State.endWait_vitals, State.trainChannel_vitals, implies_true,
      foldl_vitals]

theorem execTemperatureReading_vitals (dt : ℕ) (sensor : Fin 20) (celsius : ℤ) (s : State) : vitalsOf (execTemperatureReading dt
    sensor celsius s) = some s.vitals := by
  unfold execTemperatureReading
  simp only [pending_vit, State.pass_vitals, apply_ite vitalsOf, vitalsOf_ans, State.updStack_vitals, vitals_mk, stepping_vit,
      fuse_vit, kek_vit, keys_vit, linkUp_vit, speed_vit, width_vit, align_vit, pair_vit, therm_vit, State.readStack_vitals,
      ite_self, State.readUnits_vitals, State.setTemp_vitals]

theorem execRefreshDue_vitals (dt : ℕ) (u : Fin 160) (s : State) : vitalsOf (execRefreshDue dt u s) = some s.vitals := by
  unfold execRefreshDue
  simp only [apply_ite vitalsOf, vitalsOf_ans, State.pass_vitals, State.updUnit_vitals, ite_self]

theorem execRefreshIssue_vitals (dt : ℕ) (u : Fin 160) (s : State) : vitalsOf (execRefreshIssue dt u s) = some s.vitals := by
  unfold execRefreshIssue
  simp only [apply_ite vitalsOf, vitalsOf_ans, State.tryCool_vitals, State.updUnit_vitals, State.pass_vitals, ite_self]

theorem execRefreshBurstEnd_vitals (dt : ℕ) (u : Fin 160) (s : State) : vitalsOf (execRefreshBurstEnd dt u s) = some s.vitals :=
    by
  unfold execRefreshBurstEnd
  simp only [apply_ite vitalsOf, vitalsOf_ans, State.pass_vitals, State.takeDeferred_vitals, State.tryCool_vitals,
      State.updUnit_vitals, ite_self]

theorem execRetrainingPause_vitals (dt : ℕ) (ch : Fin 72) (s : State) : vitalsOf (execRetrainingPause dt ch s) = some s.vitals :=
    by
  unfold execRetrainingPause
  simp only [pending_vit, State.pass_vitals, apply_ite vitalsOf, vitalsOf_ans, State.bump_vitals, vitals_mk, stepping_vit,
      fuse_vit, kek_vit, keys_vit, linkUp_vit, speed_vit, width_vit, align_vit, pair_vit, therm_vit, ite_self]

theorem execRetrainingPauseEnd_vitals (dt : ℕ) (ch : Fin 72) (lowMargin : Bool) (s : State) : vitalsOf (execRetrainingPauseEnd dt
    ch lowMargin s) = some s.vitals := by
  unfold execRetrainingPauseEnd
  simp only [apply_ite vitalsOf, vitalsOf_ans, State.pass_vitals, apply_ite State.vitals, State.raise_vitals,
      State.endRetrain_vitals, ite_self]

theorem execPowerDownEntry_vitals (dt : ℕ) (u : Fin 160) (s : State) : vitalsOf (execPowerDownEntry dt u s) = some s.vitals := by
  unfold execPowerDownEntry
  simp only [apply_ite vitalsOf, vitalsOf_ans, State.updUnit_vitals, State.pass_vitals, ite_self]

theorem execMemScrubRead_vitals (dt : ℕ) (u : Fin 160) (addr : ℕ) (structure_ : ℕ) (outcome : Fin 3) (s : State) : vitalsOf
    (execMemScrubRead dt u addr structure_ outcome s) = some s.vitals := by
  unfold execMemScrubRead
  dsimp only
  (repeat' split) <;> first | rfl | simp only [State.pass_vitals, ans_vitals, State.noteScrub_vitals, State.touch_vitals,
      State.countCe_vitals, State.scrubUe_vitals, apply_ite State.vitals, ite_self, apply_ite vitalsOf, vitalsOf_ans,
      State.pass_vitals, foldl_vitals, implies_true, pending_vit, vitals_mk, stepping_vit, fuse_vit, kek_vit, keys_vit,
      linkUp_vit, speed_vit, width_vit, align_vit, pair_vit, therm_vit]

/-! ### Abort -/

theorem execCommandRingStopped_vitals (dt : ℕ) (fn : Fin 2) (ring : Fin 64) (s : State) : vitalsOf (execCommandRingStopped dt fn
    ring s) = some s.vitals := by
  unfold execCommandRingStopped
  simp only [vitalsOf_ans, State.ringStopped_vitals, State.pass_vitals]

theorem execRingEnable_vitals (dt : ℕ) (fn : Fin 2) (r : Fin 208) (value : Word32) (s : State) : vitalsOf (execRingEnable dt fn r
    value s) = some s.vitals := by
  unfold execRingEnable
  simp only [vitalsOf_ans, apply_ite State.vitals, State.updRing_vitals, State.drainEvts_vitals, ite_self, implies_true,
      State.mw0_vitals, State.pass_vitals]

theorem execRingDisable_vitals (dt : ℕ) (fn : Fin 2) (r : Fin 208) (value : Word32) (s : State) : vitalsOf (execRingDisable dt fn
    r value s) = some s.vitals := by
  unfold execRingDisable
  simp only [vitalsOf_ans, apply_ite State.vitals, State.updRing_vitals, State.ringAbort_vitals, State.ringOff_vitals, ite_self,
      implies_true, State.mw0_vitals, State.pass_vitals]

theorem execAbort_vitals (i : Issue) (s : State) : vitalsOf (execAbort i s) = some s.vitals :=
  congrArg some (State.runCommand_vitals s i (fun t c x => abortBody_vitals t c x))

theorem execAbortComplete_vitals (dt : ℕ) (fn : Fin 2) (func : ℕ) (index : ℕ) (s : State) : vitalsOf (execAbortComplete dt fn
    func index s) = some s.vitals := by
  unfold execAbortComplete
  simp only [apply_ite vitalsOf, vitalsOf_ans, State.abortEnd_vitals, State.pass_vitals, ite_self]

theorem execHifAbortGo_vitals (dt : ℕ) (fn : Fin 2) (value : Word32) (s : State) :
    vitalsOf (execHifAbortGo dt fn value s) = some s.vitals := by
  refine congrArg some ((State.mw0_vitals _ _ _ _ fun t => ?_).trans (State.pass_vitals ..))
  dsimp only
  split
  · exact State.badAccess_vitals ..
  · split
    · rfl
    · split
      · exact State.updFunc_vitals ..
      · have h := State.abortAct_vitals t fn (bits value.toNat 0 4) (bits value.toNat 8 8)
        split <;> rename_i he <;> rw [he] at h
        · exact (State.raiseAbortDone_vitals ..).trans ((State.updFunc_vitals ..).trans h)
        · exact (State.updFunc_vitals ..).trans h

theorem execFunctionLevelReset_vitals (dt : ℕ) (fn : Fin 2) (s : State) : vitalsOf (execFunctionLevelReset dt fn s) = some
    s.vitals := by
  unfold execFunctionLevelReset
  simp only [vitalsOf_ans, State.resetFunc_vitals, State.pass_vitals]

theorem execD3hotEntry_vitals (dt : ℕ) (fn : Fin 2) (s : State) : vitalsOf (execD3hotEntry dt fn s) = some s.vitals := by
  unfold execD3hotEntry
  simp only [vitalsOf_ans, State.resetFunc_vitals, State.pass_vitals]

/-! ### Modes -/

theorem execPartAssign_vitals (i : Issue) (s : State) : vitalsOf (execPartAssign i s) = some s.vitals :=
  congrArg some (State.runCommand_vitals s i (fun t c x => partAssignBody_vitals t c x))

/-! ### Chip -/

theorem execClockCheck_vitals (dt : ℕ) (sys : Bool) (pcie : Bool) (ln : Bool) (fb : Bool) (s : State) : vitalsOf (execClockCheck
    dt sys pcie ln fb s) = some s.vitals := by
  unfold execClockCheck
  simp only [pending_vit, State.pass_vitals, stepping_vit, apply_ite vitalsOf, vitalsOf_ans, State.orReg_vitals, vitals_mk,
      fuse_vit, kek_vit, keys_vit, linkUp_vit, speed_vit, width_vit, align_vit, pair_vit, therm_vit, ite_self]

theorem execSidebandReady_vitals (dt : ℕ) (s : State) : vitalsOf (execSidebandReady dt s) = some s.vitals := by
  unfold execSidebandReady
  simp only [pending_vit, State.pass_vitals, stepping_vit, apply_ite vitalsOf, vitalsOf_ans, vitals_mk, fuse_vit, kek_vit,
      keys_vit, linkUp_vit, speed_vit, width_vit, align_vit, pair_vit, therm_vit, ite_self]

theorem execSmbSetReadAddress_vitals (dt : ℕ) (addr : Word32) (s : State) : vitalsOf (execSmbSetReadAddress dt addr s) = some
    s.vitals := by
  unfold execSmbSetReadAddress
  simp only [pending_vit, State.pass_vitals, stepping_vit, apply_ite vitalsOf, vitalsOf_ans, vitals_mk, fuse_vit, kek_vit,
      keys_vit, linkUp_vit, speed_vit, width_vit, align_vit, pair_vit, therm_vit, ite_self]

theorem execSmbReadResult_vitals (dt : ℕ) (s : State) : vitalsOf (execSmbReadResult dt s) = some s.vitals := by
  unfold execSmbReadResult
  simp only [pending_vit, State.drawn_vitals, State.pass_vitals, stepping_vit, apply_ite vitalsOf, vitalsOf_ans, vitals_mk,
      fuse_vit, kek_vit, keys_vit, linkUp_vit, speed_vit, width_vit, align_vit, pair_vit, therm_vit, ite_self]

/-! ### StepTime -/

theorem execStepActivation_vitals (dt : ℕ) (s : State) : vitalsOf (execStepActivation dt s) = some s.vitals := by
  unfold execStepActivation
  simp only [pending_vit, State.pass_vitals, align_vit]
  (repeat' split) <;> simp only [vitalsOf_ans, State.pass_vitals, State.stepOwner_vitals, State.applyStep_vitals, vitals_mk,
      stepping_vit, fuse_vit, kek_vit, keys_vit, linkUp_vit, speed_vit, width_vit, pair_vit, therm_vit]

end Sys2Proof.Machine
end

