-- ==== Sys2Proof/Laws/KeepsExec.lean ====
section
/-! SUPPORT. The commands that change the vitals: each leaves the queue as it is and keeps the vitals legal. -/

namespace Sys2Proof.Machine

/-- Fuses stay as they are, begin to burn, or end their burn (R393). -/
def FuseMoves (a b : Nat) : Prop := b = a ∨ a = 0 ∧ b = 1 ∨ a = 1 ∧ (b = 2 ∨ b = 3)

/-- `t` has the queue of `s`, its fuses follow those of `s`, and it is legal where `s` is. -/
def Kept (s t : State) : Prop :=
  t.pending = s.pending ∧ FuseMoves s.sec.fuseState t.sec.fuseState ∧ (s.vitals.Legal → t.vitals.Legal)

theorem Keeps.kept {s t : State} (h : Keeps s t) : Kept s t := ⟨h.1, .inl h.2.1, h.2.2⟩

/-- A change of the vitals behind one that leaves queue and fuses. -/
theorem Keeps.then {s t u : State} (h : Keeps s t) (k : Kept t u) : Kept s u :=
  ⟨k.1.trans h.1, h.2.1 ▸ k.2.1, fun l => k.2.2 (h.2.2 l)⟩

theorem Kept.eq {s t u : State} (h : Kept s t) (k : u.vitals = t.vitals) : Kept s u :=
  ⟨(congrArg Vitals.pending k).trans h.1, by
    have e : u.sec.fuseState = t.sec.fuseState := congrArg Vitals.fuse k
    rw [e]; exact h.2.1, fun l => k ▸ h.2.2 l⟩

/-- The command answers a next state that has the queue of `s`, its fuses follow those of `s`, and it is legal where `s` is. -/
def Sound (s : State) (o : Host.Outcome State Fault Refusal) : Prop := ∃ t, o = .next t ∧ Kept s t

theorem Sound.of_keeps {s t : State} (h : Keeps s t) : Sound s (ans t) := ⟨t, rfl, h.kept⟩

theorem Sound.of_vitals {s : State} {o : Host.Outcome State Fault Refusal} (h : vitalsOf o = some s.vitals) : Sound s o := by
  cases o with
  | next t => exact ⟨t, rfl, (Keeps.of_eq (Option.some.inj h)).kept⟩
  | fault f => cases h
  | refused r => cases h

theorem State.pass_keeps (s : State) (n : Nat) : Keeps s (s.pass n) := .of_eq (State.pass_vitals ..)

theorem execSetMode_sound (i : Issue) (s : State) : Sound s (execSetMode i s) :=
  .of_keeps (State.runCommand_keeps s i ⟨fun _ _ _ => rfl, fun t c x _ => setModeBody_keeps t c x⟩)

theorem execKeyInstall_sound (i : Issue) (s : State) : Sound s (execKeyInstall i s) :=
  .of_keeps (State.runCommand_keeps s i ⟨fun _ _ _ => rfl, fun t c x h => keyInstallBody_keeps t c x (h rfl)⟩)

theorem execKeyClear_sound (i : Issue) (s : State) : Sound s (execKeyClear i s) :=
  .of_keeps (State.runCommand_keeps s i ⟨fun _ _ _ => rfl, fun t c x _ => keyClearBody_keeps t c x⟩)

theorem execKekBurn_sound (dt : Nat) (s : State) : Sound s (execKekBurn dt s) := by
  have hp := State.pass_keeps s dt
  unfold execKekBurn
  generalize s.pass dt = u at hp ⊢
  dsimp only
  split
  · split
    · rename_i h
      refine ⟨_, rfl, hp.1, .inr (.inl ⟨hp.2.1 ▸ h, rfl⟩), fun l => ?_⟩
      have k := hp.2.2 l
      have h0 : u.vitals.fuse = 0 := h
      exact ⟨k.1, Nat.le_of_ble_eq_true rfl, fun _ => k.2.2.1 (by rw [h0]; decide), k.2.2.2⟩
    · exact .of_keeps (hp.trans (.of_eq rfl))
  · exact .of_keeps hp

theorem execFuseBurnDone_sound (dt : Nat) (verified : Bool) (s : State) : Sound s (execFuseBurnDone dt verified s) := by
  have hp := State.pass_keeps s dt
  unfold execFuseBurnDone
  generalize s.pass dt = u at hp ⊢
  dsimp only
  split
  · rename_i h
    have h1 : u.vitals.fuse = 1 := h
    refine ⟨_, rfl, ?_, .inr (.inr ⟨hp.2.1 ▸ h, ?_⟩), fun l => ?_⟩
    · exact (congrArg Vitals.pending (State.raise_vitals _ _ _ _ _)).trans hp.1
    · refine Eq.subst (motive := fun z => z = 2 ∨ z = 3) (congrArg Vitals.fuse (State.raise_vitals _ _ _ _ _)).symm ?_
      cases verified
      · exact .inr rfl
      · exact .inl rfl
    · have k := hp.2.2 l
      rw [State.raise_vitals]
      cases verified
      · exact ⟨k.1, Nat.le_refl 3, fun _ => ⟨rfl, (k.2.2.1 (by rw [h1]; decide)).2⟩, k.2.2.2⟩
      · exact ⟨k.1, Nat.le_succ 2, fun hn => absurd rfl hn, k.2.2.2⟩
  · exact .of_keeps hp

theorem execPcieLinkDown_sound (dt : Nat) (s : State) : Sound s (execPcieLinkDown dt s) := by
  have hp := State.pass_keeps s dt
  unfold execPcieLinkDown
  generalize s.pass dt = u at hp ⊢
  exact ⟨_, rfl, hp.1, .inl hp.2.1, fun l => have k := hp.2.2 l
    ⟨k.1, k.2.1, k.2.2.1, ⟨rfl, rfl⟩, k.2.2.2.2⟩⟩

theorem execPcieLinkTrained_sound (dt speed width : Nat) (s : State) : Sound s (execPcieLinkTrained dt speed width s) := by
  have hp := State.pass_keeps s dt
  unfold execPcieLinkTrained
  generalize s.pass dt = u at hp ⊢
  dsimp only
  split
  · rename_i h
    refine .of_keeps ((hp.trans (t := _) ?_).eq (foldl_vitals _ (fun t fn => foldl_vitals _ (fun t n =>
      (State.settle_vitals ..).trans (State.drainComps_vitals ..)) _ _) _ _))
    refine Keeps.eq (t := { u with host := { u.host with linkUp := true, speed := speed, width := width } }) ?_
      (foldl_vitals _ (fun t fn => foldl_vitals _ (fun t n => State.drainEvts_vitals ..) _ _) _ _)
    exact ⟨rfl, rfl, fun k => ⟨k.1, k.2.1, k.2.2.1, h.2, k.2.2.2.2⟩⟩
  · exact .of_keeps hp

theorem execHoldoverExpiry_sound (dt : Nat) (s : State) : Sound s (execHoldoverExpiry dt s) := by
  unfold execHoldoverExpiry
  dsimp only
  split
  · exact .of_keeps ((State.pass_keeps s dt).trans (State.enterAlign_keeps _ _ (by decide)))
  · exact .of_keeps (State.pass_keeps s dt)

theorem execPpsInEdge_sound (dt : Nat) (falling : Bool) (s : State) : Sound s (execPpsInEdge dt falling s) := by
  unfold execPpsInEdge
  dsimp only
  split
  · exact .of_keeps (State.pass_keeps s dt)
  · split
    · exact .of_keeps ((State.pass_keeps s dt).trans (State.capturePps_keeps ..))
    · exact .of_keeps ((State.pass_keeps s dt).eq (State.bump_vitals ..))

theorem execPpsWindowEnd_sound (dt : Nat) (s : State) : Sound s (execPpsWindowEnd dt s) := by
  have hp := State.pass_keeps s dt
  unfold execPpsWindowEnd
  generalize s.pass dt = u at hp ⊢
  extract_lets b miss w src v
  split
  · exact .of_keeps hp
  · have hv : Keeps s v := hp.trans (.of_eq rfl)
    split
    · exact .of_keeps (hv.trans (State.enterAlign_keeps _ _ (by decide)))
    · exact .of_keeps hv

theorem execLanternReceived_sound (dt : Nat) (hb : Bool) (word : BitVec 128) (s : State) :
    Sound s (execLanternReceived dt hb word s) := by
  unfold execLanternReceived
  dsimp only
  split
  · exact .of_keeps (State.pass_keeps s dt)
  · split
    · exact .of_keeps (((State.pass_keeps s dt).eq (State.goodLantern_vitals ..)).trans (State.lanternActs_keeps ..))
    · exact .of_keeps (((State.pass_keeps s dt).eq (State.goodLantern_vitals ..)).trans (State.configFails_keeps _))

theorem execPathLost_sound (dt : Nat) (hb : Bool) (s : State) : Sound s (execPathLost dt hb s) := by
  unfold execPathLost
  extract_lets a p b
  have ha : Keeps s a := State.pass_keeps s dt
  clear_value a
  have hb' : Keeps s b := (ha.eq (State.updPath_vitals ..)).eq (State.raise_vitals ..)
  clear_value b
  split
  · exact .of_keeps ha
  · split
    · exact .of_keeps (hb'.trans (State.declareFailed_keeps _))
    · exact .of_keeps hb'

theorem execTwinPairReform_sound (dt : Nat) (s : State) : Sound s (execTwinPairReform dt s) := by
  unfold execTwinPairReform
  dsimp only
  split
  · exact .of_keeps ((State.pass_keeps s dt).trans (State.enterForming_keeps _))
  · exact .of_keeps (State.pass_keeps s dt)

theorem execSyncReceived_sound (dt : Nat) (msg : List Byte) (s : State) : Sound s (execSyncReceived dt msg s) := by
  unfold execSyncReceived
  extract_lets a m t4 b c own d e f
  have ha : Keeps s a := State.pass_keeps s dt
  clear_value a
  have hb : Keeps s b := ha.eq (State.updTwin_vitals _ _ fun _ => rfl)
  clear_value b
  have hc : Keeps s c := by
    refine hb.trans ?_
    unfold c
    split
    · exact (State.twinChange_keeps _ _ (State.updTwin_keeps _ _ fun _ => Nat.le_of_ble_eq_true rfl)).eq (State.raise_vitals ..)
    · exact .refl _
  clear_value c own
  have hd : Keeps s d := by
    refine hc.trans ?_
    unfold d
    split
    · exact .of_eq ((State.raise_vitals ..).trans (State.updTwin_vitals _ _ fun _ => rfl))
    · exact .refl _
  clear_value d
  have he : Keeps s e := hd.eq ((State.seeDigest_vitals ..).trans (State.seeRan_vitals ..))
  clear_value e
  have hf : Keeps s f := by
    refine he.trans ?_
    unfold f
    split
    · exact .of_eq (State.seeDigest_vitals ..)
    · exact .refl _
  clear_value f
  split
  · exact .of_keeps ha
  · split
    · exact .of_keeps ha
    · exact .of_keeps (hf.eq (State.syncTimeActs_vitals ..))

theorem execRateReductionRelease_sound (dt : Nat) (q : Fin 1048576) (s : State) :
    Sound s (execRateReductionRelease dt q s) := by
  unfold execRateReductionRelease
  extract_lets a u live b
  have ha : Keeps s a := State.pass_keeps s dt
  clear_value a
  have hb : Keeps s b := by
    refine ha.trans ?_
    unfold b
    split
    · exact .refl _
    · exact .of_eq (State.syncV_vitals ..)
  clear_value b
  split
  · exact .of_keeps ha
  · exact .of_keeps ((hb.eq (State.updQueue_vitals ..)).trans (State.resumeWaits_keeps _ _ _ capacitySpecs_keep))

theorem State.sharedWrite_keeps (s : State) (fn off : Nat) (k : State → State) (h : ∀ t, Keeps t (k t)) :
    Keeps s (s.sharedWrite fn off k) := by
  unfold State.sharedWrite State.mw0
  split
  · exact .refl s
  · split
    · exact .of_eq (State.badAccess_vitals ..)
    · dsimp only
      split
      · exact .refl s
      · exact h s

/-- R386: what the write of MODE_APPLY leaves. -/
theorem execModeApply_keeps (dt : Nat) (fn : Fin 2) (value : Word32) (s : State) :
    ∃ t, execModeApply dt fn value s = .next t ∧ Keeps s t := by
  refine ⟨_, rfl, (State.pass_keeps s dt).trans (State.sharedWrite_keeps _ _ _ _ fun t => ?_)⟩
  split
  · exact .refl t
  · split
    · exact .of_eq rfl
    · exact State.modeApply_keeps t

theorem execModeApply_sound (dt : Nat) (fn : Fin 2) (value : Word32) (s : State) : Sound s (execModeApply dt fn value s) :=
  have ⟨t, h, k⟩ := execModeApply_keeps dt fn value s
  ⟨t, h, k.kept⟩

theorem execModeStartingDone_sound (dt : Nat) (m : Mode) (s : State) : Sound s (execModeStartingDone dt m s) := by
  unfold execModeStartingDone
  dsimp only
  split
  · exact .of_keeps ((State.pass_keeps s dt).trans ((State.modeOn_keeps ..).trans (State.modeNext_keeps _)))
  · exact .of_keeps (State.pass_keeps s dt)

theorem execModeQuiescingDone_sound (dt : Nat) (m : Mode) (s : State) : Sound s (execModeQuiescingDone dt m s) := by
  unfold execModeQuiescingDone
  dsimp only
  split
  · exact .of_keeps ((State.pass_keeps s dt).trans ((State.modeOff_keeps ..).trans (State.modeNext_keeps _)))
  · exact .of_keeps (State.pass_keeps s dt)

theorem execPartitionTransitionBegin_sound (dt : Nat) (s : State) : Sound s (execPartitionTransitionBegin dt s) := by
  have hp := State.pass_keeps s dt
  unfold execPartitionTransitionBegin
  generalize s.pass dt = u at hp ⊢
  dsimp only
  split
  · split
    · have hw (x : Modes) : Keeps s ({ u with modes := x }).showOwner :=
        hp.trans (.of_eq ((State.showOwner_vitals _).trans rfl))
      split
      · exact .of_keeps ((hw _).trans (State.modeUp_keeps ..))
      · exact .of_keeps ((hw _).trans (State.modeDown_keeps ..))
    · exact .of_keeps hp
  · exact .of_keeps hp

theorem execPorstNAssert_sound (dt : Nat) (s : State) : Sound s (execPorstNAssert dt s) :=
  .of_keeps (((State.pass_keeps s dt).trans (.of_eq rfl)).trans (State.cleared_keeps _))

theorem execPorstNRelease_sound (dt : Nat) (s : State) : Sound s (execPorstNRelease dt s) := by
  have hp := State.pass_keeps s dt
  unfold execPorstNRelease
  generalize s.pass dt = u at hp ⊢
  extract_lets a t
  have ht : Keeps s t := hp.trans (State.cleared_keeps _)
  clear_value t
  split
  · exact .of_keeps hp
  · exact .of_keeps ((ht.trans (.of_eq rfl)).eq (State.startUp_vitals _))

theorem execSysrstNAssert_sound (dt : Nat) (s : State) : Sound s (execSysrstNAssert dt s) := by
  have hp := State.pass_keeps s dt
  unfold execSysrstNAssert
  generalize s.pass dt = u at hp ⊢
  extract_lets b was src a
  have ha : Keeps s a := hp.trans (.of_eq rfl)
  clear_value a was
  split
  · exact .of_keeps ha
  · exact .of_keeps ((ha.trans (State.allStop_keeps _)).eq (State.orReg_vitals ..))

theorem execSysrstNRelease_sound (dt : Nat) (s : State) : Sound s (execSysrstNRelease dt s) := by
  have hp := State.pass_keeps s dt
  unfold execSysrstNRelease
  generalize s.pass dt = u at hp ⊢
  extract_lets b was src a t
  have ha : Keeps s a := hp.trans (.of_eq rfl)
  clear_value a
  have ht : Keeps s t := ha.trans (State.sysCleared_keeps _)
  clear_value t
  split
  · exact .of_keeps ha
  · exact .of_keeps ((ht.trans (.of_eq rfl)).eq (State.startUp_vitals _))

theorem execThrottleRelease_sound (dt : Nat) (s : State) : Sound s (execThrottleRelease dt s) := by
  unfold execThrottleRelease
  dsimp only
  split
  · exact .of_keeps ((((State.pass_keeps s dt).eq (State.syncIngress_vitals _)).trans
      (State.setThermal_keeps _ _ fun _ => Nat.zero_le _)).eq (State.raiseSt_vitals ..))
  · exact .of_keeps (State.pass_keeps s dt)

theorem execThermalReading_sound (dt : Nat) (f t : Vector (Option Int) 16) (s : State) : Sound s (execThermalReading dt f t s) := by
  have hp := State.pass_keeps s dt
  unfold execThermalReading
  generalize s.pass dt = u at hp ⊢
  extract_lets w a b c j any blind d e g h
  have ha : Keeps s a := hp.eq (State.setThermal_vitals _ _ rfl)
  clear_value a
  have hb : Keeps s b := ha.eq (foldl_vitals _ (fun t x => State.readSensor_vitals ..) _ _)
  clear_value b
  have hc : Keeps s c := hb.eq (State.setThermal_vitals _ _ rfl)
  clear_value c j any blind
  have hd : Keeps s d := hc.eq (State.setThermal_vitals _ _ rfl)
  clear_value d
  have he : Keeps s e := by
    unfold e
    split
    · exact hd.eq (State.warnTemp_vitals ..)
    · exact hd
  clear_value e
  have hg : Keeps s g := by
    unfold g
    split
    · exact he.trans (State.throttle_keeps ..)
    · exact he
  clear_value g
  have hh : Keeps s h := by
    unfold h
    split
    · exact hg.eq (State.setThermal_vitals _ _ rfl)
    · exact hg
  clear_value h
  split
  · exact .of_keeps hp
  · split
    · exact .of_keeps ((hh.eq (State.raise_vitals ..)).trans (State.shutdown_keeps _))
    · exact .of_keeps hh

/-! ### Register writes -/

theorem State.writeRow_keeps (s : State) (fn : Fin 2) (a : Nat) (v : Word32) (t : State) (h : s.writeRow fn a v = some t) :
    Keeps s t := by
  have hm : Keeps s (afterRow (execModeApply 0 fn v s) s) := by
    obtain ⟨t, ht, hk⟩ := execModeApply_keeps 0 fn v s
    rw [ht]
    exact hk
  unfold State.writeRow at h
  split at h
  · cases h; exact .of_eq (afterRow_vitals (execVersionOffer_vitals ..))
  split at h
  · cases h; exact .of_eq (afterRow_vitals (execHifAbortGo_vitals ..))
  split at h
  · cases h; exact hm
  split at h
  · cases h; exact .of_eq (afterRow_vitals (execTimeLatch_vitals ..))
  split at h
  · cases h; exact .of_eq (afterRow_vitals (execTimeInitGo_vitals ..))
  split at h
  · split at h
    · cases h
      split
      · exact .of_eq (afterRow_vitals (execRingEnable_vitals ..))
      · exact .of_eq (afterRow_vitals (execRingDisable_vitals ..))
    · cases h
  split at h
  · split at h
    · cases h; exact .of_eq (afterRow_vitals (execPrbsPatternSet_vitals ..))
    · cases h
  split at h
  · split at h
    · cases h
      split
      · exact .of_eq (afterRow_vitals (execGroupEnable_vitals ..))
      · exact .of_eq (afterRow_vitals (execGroupDisable_vitals ..))
    · cases h
  split at h
  · split at h
    · split at h
      · cases h; exact .of_eq (afterRow_vitals (execReneg_vitals ..))
      · cases h; exact .refl s
    · cases h
  · cases h

theorem State.writeReg_keeps (s : State) (fn : Fin 2) (a : Nat) (v : Word32) : Keeps s (s.writeReg fn a v) := by
  unfold State.writeReg
  split
  · exact State.writeRow_keeps _ _ _ _ _ ‹_›
  · (repeat' split) <;> first
      | exact .refl s
      | exact .of_eq (State.writeHif_vitals ..)
      | exact .of_eq (State.storeReg_vitals ..)
      | exact .of_eq (State.cfgReject_vitals ..)
      | exact .of_eq (State.writeFabCfg_vitals ..)
      | exact .of_eq (State.writeMacCfg_vitals ..)

theorem State.writeMw0_keeps (s : State) (fn : Fin 2) (off : Nat) (v : Word32) : Keeps s (s.writeMw0 fn off v) := by
  unfold State.writeMw0
  split
  · exact State.writeReg_keeps ..
  · exact .of_eq (State.badAccess_vitals ..)

theorem execRegisterWrite_sound (dt : Nat) (fn : Fin 2) (off : Nat) (value : Word32) (hi : Option Word32) (s : State) :
    Sound s (execRegisterWrite dt fn off value hi s) := by
  have hp := State.pass_keeps s dt
  unfold execRegisterWrite
  generalize s.pass dt = u at hp ⊢
  dsimp only
  generalize (if hi.isSome = true then 8 else 4) = size
  split
  · exact .of_keeps hp
  · split
    · exact .of_keeps (hp.eq (State.badAccess_vitals ..))
    · have hw := hp.trans (State.writeMw0_keeps u fn off value)
      split
      · exact .of_keeps hw
      · exact .of_keeps (hw.trans (State.writeMw0_keeps ..))

theorem State.sbWrite_kept (s : State) (a : Nat) (v : Word32) : Kept s (s.sbWrite a v) := by
  unfold State.sbWrite
  split
  · split
    · exact (Keeps.of_eq rfl).kept
    · exact (Keeps.refl s).kept
  · split
    · split
      · obtain ⟨t, h, k⟩ := execKekBurn_sound 0 s
        rw [h]
        exact k
      · exact (Keeps.refl s).kept
    · split
      · exact (Keeps.refl s).kept
      · split
        · exact (Keeps.of_eq ((State.relatch_vitals _).trans (State.storeReg_vitals ..))).kept
        · exact (Keeps.of_eq (State.storeReg_vitals ..)).kept

theorem execSmbRegisterWrite_sound (dt : Nat) (addr value : Word32) (s : State) : Sound s (execSmbRegisterWrite dt addr value s) := by
  have hp := State.pass_keeps s dt
  unfold execSmbRegisterWrite
  generalize s.pass dt = u at hp ⊢
  extract_lets w a st b
  have hb : Kept s b := by
    unfold b
    split
    · exact hp.then (State.sbWrite_kept ..)
    · exact hp.kept
  clear_value b
  split
  · exact .of_keeps hp
  · exact ⟨_, rfl, hb.eq rfl⟩

end Sys2Proof.Machine
end

