-- ==== Sys2Proof/Laws/All.lean ====
section
/-! SUPPORT. Everything under Laws. -/
end

