-- ==== Sys2Proof/WellFormed.lean ====
section
/-! DEFINITION. Which operands a command may have: those that the interface it arrives on can carry. What exec does with other
operands claims nothing of the hardware. -/

namespace Sys2Proof

/-- A bound on what the PCS, FEC and lookups report beside a frame: eight lanes of a port at most, 12 TCAM banks of 16,384 rows,
table codes of R384. -/
def RxErr.wellFormed (e : RxErr) : Bool :=
  decide (e.symErrs.length ≤ 8) && decide (e.poison < 2 ^ 11) && decide (e.corr < 2 ^ 8) && e.tcamBad.all fun b => decide (b.1 < 12) && decide (b.2 < 16384)

/-- Layer codes of R115 and the width of its index; the widths of the fields that a frame carries (R88, R94, R100, R103). -/
def XptFrame.wellFormed (f : XptFrame) : Bool :=
  decide (1 ≤ f.layer) && decide (f.layer ≤ 7) && decide (f.index < 8192) && decide (f.ptr < 65536) && decide (f.status < 8)
    && [0, 3].contains f.gmpJc.length && [0, 3].contains f.ampJc.length && f.ampJc.all (fun c => decide (c < 4))
    && f.pt.all (fun p => decide (p < 256)) && f.mfi.all (fun m => decide (m < 4096)) && f.blocks.all fun b => decide (b < 2 ^ 66)

/-- A payload that a descriptor can name: at most 1 MiB (R372). -/
def Issue.wellFormed (i : Issue) : Bool := i.payload.all fun b => decide (b.length ≤ 1048576)

/-- Operands that the command's interface can carry: offsets inside their window and aligned (R5, R6, R362, R370), the written bit
that makes a write this command (R369, R412), values inside their fields. -/
def Instr.wellFormed : Instr → Bool
  | .nop i | .abort i | .fenceClear i | .keyInstall i | .keyClear i | .authPolicySet i | .fuseRead i | .setMode i
  | .partAssign i | .macAddrSet i | .macAddrRead i | .xptOhSet i | .xptOhRead i | .pmRead i | .parseGraphWrite i
  | .parseGraphActivate i | .tableWrite i | .tableDelete i | .tableRead i | .epochCommit i | .epochDiscard i
  | .tcamBankFormat i | .mcastGroupWrite i | .mcastGroupRead i | .mcastMembersWrite i | .mcastEsetWrite i
  | .innPoolSet i | .innQueueSet i | .innAudit i | .ledgerClassSet i | .ledgerPortSet i | .ledgerQueueSet i
  | .ledgerQueueRead i | .schedNodeSet i | .schedQueueSet i | .policerSet i | .gateListSet i | .fabReachWrite i
  | .twinClaim i | .twinRelease i | .twinFwdSet i | .twinDigestRead i | .nwLoad i | .memTrain i | .timeAdjust i
  | .tsRead i | .counterRead i | .counterReadClear i | .counterWrite i | .counterSetCfg i | .perfCfg i
  | .powerDomainOn i | .powerDomainOff i | .powerStatusRead i => i.wellFormed
  | .registerWrite _ _ off _ hi => decide (off < 0x800000) && off % (if hi.isSome then 8 else 4) == 0
  | .mw0BadAccess _ _ off size _ => decide (off < 0x800000) && !(size == 4 && off % 4 == 0) && !(size == 8 && off % 8 == 0)
  | .mw2BadWrite _ _ off size => decide (off < 0x100000) && !(size == 8 && off % 4096 == 0 && decide (off < 0xD0000))
  | .ringEnable _ _ _ value => value.getLsbD 0
  | .ringDisable _ _ _ value => !value.getLsbD 0
  | .commandDoorbell _ _ _ _ entries => decide (entries.length ≤ 65536)
  | .puntDoorbell _ _ _ _ entries => decide (entries.length ≤ 65536)
  | .injectDoorbell _ _ _ _ entries => decide (entries.length ≤ 65536)
  | .hifAbortGo _ _ value => value.getLsbD 31
  | .abortComplete _ _ func index => decide (index < [64, 32, 32, 16, 1, 1, 6, 8, 12].getD func 0)
  | .memTrainDone _ _ _ margin => decide (margin < 256)
  | .frameReceived _ _ data err => decide (data.length ≤ 16383) && err.wellFormed
  | .dataCellReceived _ _ cell err => [0, 64, 128, 192, 256].contains cell.length && decide (err.symErrs.length ≤ 4)
  | .injectFrameRead _ _ _ data => data.all fun b => decide (b.length ≤ 16415)
  | .memScrubRead _ _ _ structure_ _ => decide (1 ≤ structure_ ∧ structure_ ≤ 15)
  | .frameAlignCheck _ _ hits => (hits.map Prod.fst).Pairwise (· < ·) && hits.all fun h => decide (h.2 < 256)
  | .transportFrameReceived _ f => f.wellFormed
  | .transportFrameSend _ _ layer index => decide (1 ≤ layer ∧ layer ≤ 7 ∧ index < 8192)
  | .lanternReceived _ hb word => !hb || decide (word.toNat < 2 ^ 112)
  | .syncReceived _ msg => msg.length == 104
  | .accumulatorFlush _ set inst item _ => decide (set < 256 ∧ inst < 2 ^ 28 ∧ item < 256)
  | .idleOrCreditCellReceived _ _ kind units => if kind.val = 1 then decide (units < 0x10000) else units == 0
  | .pcieLinkTrained _ speed width => [1, 2, 3].contains speed && [4, 8, 16].contains width
  | .msixTableWrite _ _ off _ => off.val % 4 == 0
  | .versionOffer _ _ _ | .functionLevelReset _ _ | .d3hotEntry _ _ | .busMasterDisable _ _
  | .commandRingStopped _ _ _ | .completionDoorbell _ _ _ _ | .eventDoorbell _ _ _ _
  | .interruptModerationExpiry _ _ _ | .progressReport _ _ _ | .kekBurn _ | .fuseBurnDone _ _ | .modeApply _ _ _
  | .modeStartingDone _ _ | .modeQuiescingDone _ _ | .partitionTransitionBegin _ | .tcamRowMove _ _
  | .epochCommitResume _ _ _ | .epochStall _ _ _ | .versionReclaim _ _ | .tcamScrub _ _ _ _ | .innAuditDone _ _ _
  | .rateReductionRelease _ _ | .gateListStart _ _ | .gateEntryBoundary _ _ | .domainStartingDone _ _
  | .domainQuiescingDone _ _ | .domainDrainTimeout _ _ | .groupEnable _ _ _ | .groupDisable _ _ _
  | .groupStartingDone _ _ | .groupQuiescingDone _ _ | .laneTxSettled _ _ | .signalQualified _ _ | .laneAdapted _ _
  | .pcsAligned _ _ | .lossOfSignal _ _ | .lossOfLock _ _ | .pcsAlignmentLost _ _ | .highSer _ _ | .lockTimeout _ _
  | .retryInterval _ _ | .prbsPatternSet _ _ _ _ | .prbsCheckerLock _ _ | .prbsLockLost _ _ _ | .pauseResend _ _
  | .pauseReceived _ _ _ | .pfcReceived _ _ _ _ | .pauseExpiry _ _ _ | .ledgerExtendedInterim _ _
  | .stagingToLanding _ _ | .d2dFlitCrcFail _ _ | .switchCellTime _ | .caravanFirstStage _ | .fabricCellTransmit _ _
  | .reassemblyTimeout _ _ _ | .capCellReceived _ _ _ | .capCellSend _ _ | .reneg _ _ _ | .creditSyncSend _ _
  | .creditSyncReceived _ _ _ _ | .fabCreditStall _ _ | .keepaliveSend _ _ | .receiveTimeout _ _ | .idleEnter _ _
  | .idleEnterReceived _ _ | .idleExit _ _ | .idleExitTimeout _ _ | .ledgerAdmission _ _ | .caravanSecondStage _
  | .cellarSpill _ _ | .pullBack _ _ _ | .releaseOpportunity _ _ _ | .egressEdit _ _ _ | .macTransmit _ _
  | .downFlush _ _ | .ageDiscard _ _ | .puntReservation _ _ _ | .hbmTrainingDone _ _ _
  | .dimmProbeDone _ _ _ _ _ _ _ _ | .retrainingPause _ _ | .retrainingPauseEnd _ _ _ | .refreshDue _ _
  | .refreshIssue _ _ | .temperatureReading _ _ _ | .refreshBurstEnd _ _ | .powerDownEntry _ _ | .followerCheck _ _
  | .stepActivation _ | .slewEnd _ | .ppsInEdge _ _ | .ppsCorrectionDecision _ | .ppsWindowEnd _ | .holdoverExpiry _
  | .ppsOutPulse _ | .ppsOutPulseEnd _ | .timeLatch _ _ _ | .timeInitGo _ _ _ | .pmSecond _ | .pmBinStart _
  | .pmBinClosed _ _ _ | .lofDeclare _ _ | .lofClear _ _ | .lanternSend _ | .pathLost _ _ | .twinPairReform _
  | .claimWaitEnd _ _ | .twinLockLevelChange _ _ | .lockGainStart _ | .arbGrantDeassert _ | .arbGrantAssert _
  | .syncSend _ | .divergeTimeout _ _ | .seqSampleSend _ _ | .seqSampleDecide _ _ | .dedupWindowAge _ _ _ _
  | .nightWatch _ _ _ | .perfSample _ _ _ _ _ _ | .flowCacheWriteback _ _ _ | .seqSampleReceived _ _ _ _ _ | .clockCheck _ _ _ _ _
  | .thermalReading _ _ _ | .throttleRelease _ | .porstNAssert _ | .porstNRelease _ | .sysrstNAssert _
  | .sysrstNRelease _ | .smbRegisterWrite _ _ _ | .smbSetReadAddress _ _ | .smbReadResult _
  | .remoteFaultReceived _ _ _ | .busMasterEnable _ _ | .configurationRequest _ _ | .pcieLinkDown _
  | .sideEffectsStopped _ _ | .followerErrorCleared _ | .sidebandReady _ => true

end Sys2Proof
end

