-- ==== Sys2Proof/Tests/Slice0.lean ====
section
/-! SUPPORT. Tests of the model: small checks of single steps, and for each statement with hypotheses a state and operands that meet
them. -/

namespace Sys2Proof.Tests

set_option Elab.async false

open Sys2Proof Sys2Proof.Machine

/-- A host that drives PF0 over a trained link with version `v`. -/
def hosted (v : Nat) : State :=
  { State.reset with host := { fns := [(0, { chosen := v, busMaster := true })], linkUp := true, speed := 3, width := 16 } }

/-- The bits of a descriptor of opcode `op` with `len` payload bytes of value `x`, inline when they fit, and responses of up to
`resp` bytes. -/
def rawOf (op len x resp : Nat) : Nat :=
  op + (if len ≤ 24 then 2 ^ 18 + x <<< 320 else 0x1000 * 2 ^ 64) + len * 2 ^ 128 + (if resp = 0 then 0 else 0x2000 * 2 ^ 192)
    + resp * 2 ^ 256

/-- A descriptor without authentication. -/
def descOf (op len x resp : Nat) : Desc := { raw := BitVec.ofNat 512 (rawOf op len x resp) }

/-- Command ring 0 of a function holds `d` at its head. -/
def ringBy (fn : Fin 2) (s : State) (d : Desc) : State :=
  s.updRing fn 0 fun g => { g with st := .running, fetched := [d], hostIndex := 1 }

/-- Command ring 0 of PF0 does. -/
def ringWith (s : State) (d : Desc) : State := ringBy 0 s d

/-- The row's operands for that descriptor. -/
def issueBy (fn : Fin 2) (len x : Nat) : Issue := { fn := fn, payload := some (leBytes len x) }
def issueOf (len x : Nat) : Issue := issueBy 0 len x

/-- Steps 1 to 4 and 6 of R374 let the descriptor at the head of ring 0 through. -/
def letThrough (sp : OpSpec) (s : State) (d : Desc) (len x : Nat) (t : State) : Bool :=
  (s.ring 0 0).fetched == [d] && d.opcode == sp.code && (s.pass 0).canBegin 0 0 && (s.ring 0 0).seqCheck d.seq == .accept
    && !((s.ring 0 0).st == .fenced && d.ordered && !neverSkipped d.opcode) && decide (d.count ≤ 1) && (sp.reads || d.respAddr == 0)
    && d.payload (some (leBytes len x)) == some x && sp.split (s.taken (issueOf len x) d []) 1 d.payloadLen x == some [x]
    && decide (sp.respLen t (s.cmdOf (issueOf len x) d) x ≤ d.respLen)

/-- It is let through as it stands: the command is not critical. -/
def plainOk (sp : OpSpec) (s : State) (d : Desc) (len x : Nat) : Bool :=
  letThrough sp s d len x (s.taken (issueOf len x) d []) && d.formatOk && !d.auth
    && !sp.critical (s.taken (issueOf len x) d []) (s.partOf 0) && versionOk (s.func 0).chosen 0 false false

/-- An accepted command without authentication. -/
def plain (sp : OpSpec) (s : State) (d : Desc) (len x : Nat) (h : plainOk sp s d len x = true) : Accepted sp :=
  { i := issueOf len x, s := s, d := d, rest := [], x := x, t := s.taken (issueOf len x) d [], au := false, slot := none
    ok := by
      simp only [plainOk, letThrough, Bool.and_eq_true, beq_iff_eq, Bool.not_eq_true', decide_eq_true_eq, Bool.or_eq_true] at h
      obtain ⟨⟨⟨⟨⟨⟨⟨⟨⟨⟨⟨⟨⟨h1, h2⟩, h3⟩, h4⟩, h5⟩, h6⟩, h7⟩, h8⟩, h9⟩, h10⟩, h11⟩, h12⟩, h13⟩, h14⟩ := h
      exact ⟨h1, h2, h3, h4, show ((s.ring 0 0).st == .fenced && d.ordered && !neverSkipped d.opcode) = false by simpa using h5, h11, h6, by simpa using h7, h8, h9, by
        rw [show ((issueOf len x).fn : Nat) = 0 from rfl, h13, h12]; exact h14, by
        rw [show ((issueOf len x).fn : Nat) = 0 from rfl]
        simp [State.authenticate, h12, h13], by simp [issueOf, issueBy], h10⟩ }

/-- `s` with a key in slot 0, and the KEK of its install key burnt. -/
def keyed (s : State) : State :=
  { s with sec := { s.sec with fuseState := 2, kek := List.replicate 32 1, slots := [(0, { key := some (List.replicate 32 2) })] } }

/-- The extension for slot 0 and COUNTER 1 with tag `n`. -/
def extOf (n : Nat) : BitVec 512 := BitVec.ofNat 512 (2 ^ 64 + n * 2 ^ 128)

/-- A descriptor of `rawOf` with AUTH set, and the tag of R399 under the key `k`. -/
def tagged (s : State) (k : List Byte) (op len x resp : Nat) : Desc :=
  let raw := BitVec.ofNat 512 (rawOf op len x resp + 2 ^ 16)
  { raw := raw, ext := some (extOf (tagNat (cmac k (s.tagMessage { raw := raw, ext := some (extOf 0) } x)))) }

theorem extOf_toNat {n : Nat} (h : n < 2 ^ 128) : (extOf n).toNat = 2 ^ 64 + n * 2 ^ 128 := by
  unfold extOf
  rw [BitVec.toNat_ofNat]
  omega

theorem bits_extOf_hi {n : Nat} (h : n < 2 ^ 128) : bits (extOf n).toNat 128 128 = n ∧ bits (extOf n).toNat 256 256 = 0 := by
  rw [extOf_toNat h]
  unfold bits
  rw [Nat.shiftRight_eq_div_pow, Nat.shiftRight_eq_div_pow]
  omega

theorem bits_extOf_lo {n : Nat} (h : n < 2 ^ 128) :
    bits (extOf n).toNat 0 3 = 0 ∧ bits (extOf n).toNat 3 61 = 0 ∧ bits (extOf n).toNat 64 64 = 1 := by
  rw [extOf_toNat h]
  unfold bits
  rw [Nat.shiftRight_eq_div_pow, Nat.shiftRight_eq_div_pow, Nat.shiftRight_eq_div_pow]
  omega

theorem leBytes_take (m n a b : Nat) (h : a % 256 ^ m = b % 256 ^ m) : (leBytes n a).take m = (leBytes n b).take m := by
  induction m generalizing n a b with
  | zero => rfl
  | succ m ih =>
    cases n with
    | zero => rfl
    | succ n =>
      have h0 : a % 256 = b % 256 := by
        have := congrArg (· % 256) h
        simpa [Nat.pow_succ, Nat.mod_mul_left_mod] using this
      have h1 : a / 256 % 256 ^ m = b / 256 % 256 ^ m := by
        have := congrArg (· / 256) h
        simpa [Nat.pow_succ', Nat.mod_mul_right_div_self] using this
      have hb : BitVec.ofNat 8 a = BitVec.ofNat 8 b := BitVec.eq_of_toNat_eq (by simpa [BitVec.toNat_ofNat] using h0)
      simp only [leBytes, List.take_succ_cons, hb, ih n _ _ h1]

/-- The message depends on the extension through its first sixteen bytes alone. -/
theorem tagMessage_congr (s : State) (raw e f : BitVec 512) (x : Nat)
    (h : (leBytes 64 e.toNat).take 16 = (leBytes 64 f.toNat).take 16) :
    s.tagMessage { raw := raw, ext := some e } x = s.tagMessage { raw := raw, ext := some f } x := by
  unfold State.tagMessage
  simp only [Option.getD_some]
  rw [h]
  rfl

/-- The tag is no part of the message that it covers. -/
theorem tagMessage_ext (s : State) (raw : BitVec 512) (n x : Nat) (h : n < 2 ^ 128) :
    s.tagMessage { raw := raw, ext := some (extOf n) } x = s.tagMessage { raw := raw, ext := some (extOf 0) } x := by
  refine tagMessage_congr _ _ _ _ _ (leBytes_take _ _ _ _ ?_)
  rw [extOf_toNat h, extOf_toNat (by decide)]
  omega

/-- What the state before a keyed command, and its descriptor's own bits, must show. -/
abbrev KeyedOk (fn : Fin 2) (sp : OpSpec) (s : State) (d : Desc) (len x : Nat) : Prop :=
  ((s.ring fn 0).lastSeq = none ∧ (s.ring fn 0).running = none ∧ (s.ring fn 64).held = [] ∧ s.canWrite fn = true ∧
    s.chip.d2dDown = false ∧ s.partOn = false ∧ versionOk (s.func fn).chosen fn true true = true ∧ (sp.aOnly && fn.val == 1) = false ∧ (s.slot 0).window = [] ∧ (s.slot 0).last = 0) ∧
  d.auth = true ∧ d.formatOk = true ∧ d.count ≤ 1 ∧ (sp.reads || d.respAddr == 0) = true ∧
    d.payload (some (leBytes len x)) = some x ∧ d.opcode = sp.code ∧ d.payloadLen = len

/-- The state from which an authenticated command executes: slot 0 has taken COUNTER 1. -/
def keyedState (fn : Fin 2) (s : State) (d : Desc) (len x : Nat) : State :=
  (((ringBy fn s d).taken (issueBy fn len x) d []).countAuth 0 0).updSlot 0 fun p =>
    { p with last := 1, window := ({ counter := 1, tag := d.tag : WinEntry } :: p.window).take 64 }

theorem formatOk_ext (raw : BitVec 512) (n : Nat) (hn : n < 2 ^ 128) (h : ({ raw := raw } : Desc).formatOk = true) :
    ({ raw := raw, ext := some (extOf n) } : Desc).formatOk = true := by
  have h1 : ({ raw := raw, ext := some (extOf n) } : Desc).extF 3 61 = 0 := (bits_extOf_lo hn).2.1
  have h2 : ({ raw := raw, ext := some (extOf n) } : Desc).extF 256 256 = 0 := (bits_extOf_hi hn).2
  unfold Desc.formatOk at h ⊢
  rw [h1, h2]
  simp only [Bool.and_eq_true] at h ⊢
  exact ⟨h.1, by simp⟩

/-- An authenticated command with key slot 0 and COUNTER 1 is accepted. -/
theorem accepted_by (fn : Fin 2) (sp : OpSpec) (s : State) (k : List Byte) (raw : BitVec 512) (len x : Nat)
    (h : KeyedOk fn sp s { raw := raw } len x)
    (hk : (if sp.underIk then (if s.sec.fuseState = 2 then some s.installKey else none) else (s.slot 0).key) = some k)
    (hsp : ∀ t, sp.split t 1 len x = some [x])
    (hr : ∀ t c, sp.respLen t c x ≤ ({ raw := raw } : Desc).respLen) (hc : ∀ t p, sp.critical t p = true) :
    ∃ (a : Accepted sp) (n : Nat), a.x = x ∧ a.i = issueBy fn len x ∧ a.d.keySlot = 0 ∧ a.part = 0 ∧
      a.t = keyedState fn s { raw := raw, ext := some (extOf n) } len x := by
  obtain ⟨⟨seq, idle, held, write, d2d, whole, chosen, device, window, last⟩, auth, format, single, reply, payload, op, hlen⟩ := h
  let n := tagNat (cmac k (s.tagMessage { raw := raw, ext := some (extOf 0) } x))
  have hn : n < 2 ^ 128 := tagNat_cmac_lt ..
  let d : Desc := { raw := raw, ext := some (extOf n) }
  have hring : (ringBy fn s d).ring fn 0 = { s.ring fn 0 with st := .running, fetched := [d], hostIndex := 1 } := by
    simp [ringBy]
  refine ⟨{ i := issueBy fn len x, s := ringBy fn s d, d := d, rest := [], x := x, t := keyedState fn s d len x, au := true
            slot := some (0, 1, d.tag), ok := ?_ }, n, rfl, rfl, (bits_extOf_lo hn).1, ?_, rfl⟩
  rotate_left
  · have hp : (ringBy fn s d).partOn = false := whole
    simp [Accepted.part, State.partOf, hp]
  have hfn : ((issueBy fn len x).fn : Nat) = fn := rfl
  have hrg : ((issueBy fn len x).ring : Nat) = 0 := rfl
  have hheld : (ringBy fn s d).ring fn 64 = s.ring fn 64 := State.ring_updRing_ne _ _ (.inr (by decide))
  have hbm : ((ringBy fn s d).func fn).busMaster = (s.func fn).busMaster := by simp [ringBy, State.updRing]
  have hch : ((ringBy fn s d).func fn).chosen = (s.func fn).chosen := State.chosen_updRing ..
  have hcan : ((ringBy fn s d).pass 0).canBegin fn 0 = true := by
    unfold State.canBegin State.canWrite
    simp only [State.ring_pass, State.func_pass, hring, hheld, compRing, hbm]
    have hw := write
    unfold State.canWrite at hw
    have hl : ((ringBy fn s d).pass 0).host.linkUp = s.host.linkUp := rfl
    have hd : ((ringBy fn s d).pass 0).chip.d2dDown = s.chip.d2dDown := rfl
    simp only [hl, hd]
    simp [idle, held, d2d, hw]
  have htag : d.tag = n := (bits_extOf_hi hn).1
  have hctr : d.counter = 1 := (bits_extOf_lo hn).2.2
  have hslot : d.keySlot = 0 := (bits_extOf_lo hn).1
  refine ⟨by rw [hfn, hrg, hring], op, ?_, ?_, ?_, formatOk_ext _ _ hn format, single, reply, payload, by rw [show d.payloadLen = len from hlen]; exact hsp _, ?_, ?_, ?_,
    hr _ _⟩
  · rw [hfn, hrg]; exact hcan
  · rw [hfn, hrg, hring]; simp [Ring.seqCheck, seq]
  · rw [hfn, hrg, hring]; simp
  · rw [hfn, hc, hch, show d.auth = true from auth]; exact chosen
  · rw [hfn, hrg, hc]
    have hp : ((ringBy fn s d).taken (issueBy fn len x) d []).partOn = false := whole
    have hsec : ((ringBy fn s d).taken (issueBy fn len x) d []).sec = s.sec := rfl
    have hmsg : ((ringBy fn s d).taken (issueBy fn len x) d []).tagMessage d x = s.tagMessage d x := rfl
    have hik : ((ringBy fn s d).taken (issueBy fn len x) d []).installKey = s.installKey := rfl
    have hsl : ((ringBy fn s d).taken (issueBy fn len x) d []).slot 0 = s.slot 0 := rfl
    have hau : d.auth = true := auth
    have hmac : tagNat (cmac k (s.tagMessage d x)) = n := by
      rw [tagMessage_ext s raw n x hn]
    unfold State.authenticate
    simp only [hau, hslot, hctr, htag, hmsg, hsec, hik, hsl, State.ownSlot, hp, Bool.not_true, Bool.false_and, Bool.false_eq_true,
      if_false, Bool.not_false, Bool.true_or, Bool.or_false, hk, hmac, ne_eq, not_true_eq_false, window, List.find?_nil, last,
      Nat.le_zero_eq, one_ne_zero, keyedState]
  · exact device

/-- The same on PF0. -/
theorem accepted_keyed (sp : OpSpec) (s : State) (k : List Byte) (raw : BitVec 512) (len x : Nat)
    (h : KeyedOk 0 sp s { raw := raw } len x)
    (hk : (if sp.underIk then (if s.sec.fuseState = 2 then some s.installKey else none) else (s.slot 0).key) = some k)
    (hsp : ∀ t, sp.split t 1 len x = some [x])
    (hr : ∀ t c, sp.respLen t c x ≤ ({ raw := raw } : Desc).respLen) (hc : ∀ t p, sp.critical t p = true) :
    ∃ (a : Accepted sp) (n : Nat), a.x = x ∧ a.i = issueOf len x ∧ a.d.keySlot = 0 ∧ a.part = 0 ∧
      a.t = keyedState 0 s { raw := raw, ext := some (extOf n) } len x := accepted_by 0 sp s k raw len x h hk hsp hr hc

end Sys2Proof.Tests

namespace Sys2Proof.Tests

set_option Elab.async false

open Sys2Proof Sys2Proof.Machine

/-- Opcode `op` with `len` payload bytes of value `x` on PF0's ring 0. -/
def sent (op len x resp : Nat) : State := ringWith (hosted 1) (descOf op len x resp)

theorem witness_step_front : ∃ (c : Instr) (s : State) (rest : List Instr), s.pending = c :: rest :=
  ⟨.kekBurn 0, { State.reset with pending := [.kekBurn 0, .kekBurn 1] }, [.kekBurn 1], rfl⟩
theorem witness_step_idle : State.reset.pending = [] := rfl

theorem witness_legal : State.reset.vitals.Legal := by
  refine ⟨by decide, by decide, fun _ => ⟨rfl, fun _ => rfl⟩, ⟨rfl, rfl⟩, by decide, by decide, by decide⟩

theorem witness_fuses : ∃ s : State, 2 ≤ s.sec.fuseState ∧ step s = .next (s.pass 1) :=
  ⟨{ State.reset with sec := { fuseState := 3 } }, by decide, rfl⟩

theorem witness_row : ∃ r ∈ ringRows, ∃ a : Accepted r.2, a.d.opcode = 0xB02 :=
  ⟨(.powerStatusRead, powerReadSpec), by simp [ringRows], plain _ (sent 0xB02 0 0 64) (descOf 0xB02 0 0 64) 0 0 (by decide +kernel),
    by decide +kernel⟩
theorem witness_row_idle : ∃ r ∈ ringRows, ∃ i : Issue, (State.reset.ring i.fn i.ring).fetched = [] :=
  ⟨(.nop, nopSpec), by simp [ringRows], issueOf 0 0, rfl⟩

/-- A NOP of SEQ `q` on PF0's ring 0, whose last accepted SEQ is 5 and which has accepted `n` commands. -/
def resent (q n : Nat) : State :=
  (ringWith (hosted 1) { raw := BitVec.ofNat 512 (1 + 2 ^ 18 + q * 2 ^ 32) }).updRing 0 0 fun g => { g with lastSeq := some 5, accepted := n }
theorem witness_seq : ∀ q ∈ [6, 5, 9], ∃ d, Draws nopSpec (issueOf 0 0) (resent q 2) d [] ∧ d.seq = q := by
  intro q hq
  simp only [List.mem_cons, List.not_mem_nil, or_false] at hq
  rcases hq with rfl | rfl | rfl <;>
    exact ⟨_, ⟨by rfl, by decide +kernel, by decide +kernel⟩, by decide +kernel⟩

/-- Opcode `op` at the head of PF0's FENCED ring 0, ordered where `o` is 1. -/
def fencedWith (op o : Nat) : State :=
  (ringWith (hosted 1) { raw := BitVec.ofNat 512 (op + o * 2 ^ 17 + 2 ^ 18) }).updRing 0 0 fun g => { g with st := .fenced }
theorem witness_skipped : ∃ d, Draws nopSpec (issueOf 0 0) (fencedWith 1 1) d [] ∧ d.ordered = true ∧
    ((fencedWith 1 1).ring 0 0).seqCheck d.seq = .accept ∧ ((fencedWith 1 1).ring 0 0).st = .fenced :=
  ⟨_, ⟨by rfl, by decide +kernel, by decide +kernel⟩, by decide +kernel, by decide +kernel, rfl⟩
theorem witness_notSkipped : ∃ d, Draws abortSpec (issueOf 0 0) (fencedWith 2 1) d [] ∧ d.opcode = 2 ∧
    ((fencedWith 2 1).ring 0 0).seqCheck d.seq = .accept ∧ ((fencedWith 2 1).ring 0 0).st = .fenced :=
  ⟨_, ⟨by rfl, by decide +kernel, by decide +kernel⟩, by decide +kernel, by decide +kernel, rfl⟩

theorem witness_begins : Begins nopSpec (issueOf 0 0) (sent 1 0 0 0) (descOf 1 0 0 0) [] ∧ nopSpec.inForm 1 (descOf 1 0 0 0) = true ∧
    (descOf 1 0 0 0).payload (issueOf 0 0).payload = some 0 :=
  ⟨⟨⟨by decide +kernel, by decide +kernel, by decide +kernel⟩, by decide +kernel, by decide +kernel⟩, by decide +kernel, by decide +kernel⟩
/-- A critical command without AUTH is refused by step 5, and one on a function of version 0 by step 4. -/
theorem witness_refused : Begins setModeSpec (issueOf 8 0) (ringWith (hosted 2) (descOf 0x100 8 0 0)) (descOf 0x100 8 0 0) [] ∧
    versionOk 2 0 (setModeSpec.critical (hosted 2) 0) (descOf 0x100 8 0 0).auth = true ∧ (descOf 0x100 8 0 0).auth = false ∧
    versionOk 0 0 false false = false :=
  ⟨⟨⟨by decide +kernel, by decide +kernel, by decide +kernel⟩, by decide +kernel, by decide +kernel⟩, by decide +kernel,
    by decide +kernel, rfl⟩

/-- A critical command without AUTH is refused; the accepted commands of the tests above are accepted with their tag. -/
theorem witness_unsigned : ∃ (s t : State) (d : Desc) (au : Bool), s.authenticate 0 0 d 0 true false = .refuse t stAuthFail au :=
  ⟨State.reset, _, descOf 0x100 8 0 0, false, by unfold State.authenticate; rw [if_neg (by decide +kernel), if_pos (by decide +kernel)]⟩
theorem witness_unchecked : ∃ d : Desc, State.reset.authenticate 0 0 d 0 false false = .pass State.reset false none :=
  ⟨descOf 1 0 0 0, by unfold State.authenticate; rw [if_pos (by decide +kernel)]⟩
theorem witness_signed : ∃ (s t : State) (fn n : Nat) (d : Desc) (x : Nat) (au : Bool) (slot : Option (Nat × Nat × Nat)),
    s.authenticate fn n d x true true = .pass t au slot := by
  obtain ⟨a, n, -⟩ := accepted_keyed keyInstallSpec (keyed (hosted 2)) (keyed (hosted 2)).installKey
    (BitVec.ofNat 512 (rawOf 0x10 48 0 0 + 2 ^ 16)) 48 0 (by decide +kernel) rfl (fun _ => rfl) (fun _ _ => Nat.zero_le _)
    (fun _ _ => rfl)
  exact ⟨_, _, _, _, _, _, _, _, a.ok.auth⟩

/-- Two COUNTER_READs of one payload in one descriptor. -/
def twoReads (x : Nat) : Desc :=
  { raw := BitVec.ofNat 512 (0xA00 + 2 ^ 18 + 2 * 2 ^ 48 + 16 * 2 ^ 128 + 0x2000 * 2 ^ 192 + 64 * 2 ^ 256 + (x + x * 2 ^ 64) <<< 320) }
theorem witness_batch : ∀ x ∈ [0x1000030, 0xFFFF], ∃ d s t, d = twoReads x ∧ s = ringWith (hosted 3) d ∧ t = s.taken (issueOf 16 0) d [] ∧
    Begins counterReadSpec (issueOf 16 0) s d [] ∧ counterReadSpec.inForm 3 d = true ∧ 2 ≤ d.count ∧
    d.payload none = some (x + x * 2 ^ 64) ∧ counterReadSpec.split t d.count d.payloadLen (x + x * 2 ^ 64) = some [x, x] ∧
    t.authenticate 0 0 d (x + x * 2 ^ 64) false false = .pass t false none ∧
    counterReadSpec.totalResp t (s.cmdOf (issueOf 16 0) d) [x, x] ≤ d.respLen ∧
    (counterReadSpec.allDone (s.cmdOf (issueOf 16 0) d) t [x, x]).isSome = (x == 0x1000030) := by
  intro x hx
  simp only [List.mem_cons, List.not_mem_nil, or_false] at hx
  rcases hx with rfl | rfl <;>
    exact ⟨_, _, _, rfl, rfl, rfl, ⟨⟨by decide +kernel, by decide +kernel, by decide +kernel⟩, by decide +kernel, by decide +kernel⟩,
      by decide +kernel, by decide +kernel, by decide +kernel, by decide +kernel,
      by unfold State.authenticate; rw [if_pos (by decide +kernel)], by decide +kernel, by decide +kernel⟩

theorem witness_framed : ∃ a : Accepted powerReadSpec, a.au = false ∨ 0 ≠ a.d.keySlot :=
  ⟨plain _ (sent 0xB02 0 0 64) (descOf 0xB02 0 0 64) 0 0 (by decide +kernel), .inl rfl⟩

theorem witness_fuseRead : ∃ a : Accepted fuseReadSpec, a.part = 0 := by
  obtain ⟨a, n, hx, hi, hk, hp, ht⟩ := accepted_keyed fuseReadSpec (keyed (hosted 2)) (List.replicate 32 2)
    (BitVec.ofNat 512 (rawOf 0x13 0 0 32 + 2 ^ 16)) 0 0 (by decide +kernel) rfl (fun _ => rfl) (fun _ _ =>
    show (32 : Nat) ≤ ({ raw := BitVec.ofNat 512 (rawOf 0x13 0 0 32 + 2 ^ 16) } : Desc).respLen by decide +kernel)
    (fun _ _ => rfl)
  exact ⟨a, hp⟩

theorem witness_powerRead : ∃ a : Accepted powerReadSpec, a.part = 0 :=
  ⟨plain _ (sent 0xB02 0 0 64) (descOf 0xB02 0 0 64) 0 0 (by decide +kernel), rfl⟩

theorem witness_count : (({ acc := 0x7FFFFF, backing := 2 ^ 64 - 2 } : Ctr).add true 1).2 = true ∧ ctr32 2 0 = true ∧ ctr32 0x30 0 = false ∧
    ctrKey 0x30 0 1 ≠ ctrKey 0x30 0 0 := by decide +kernel

theorem witness_tables : ∃ m n : NMap Nat, m.wf 0 = true ∧ n.wf 0 = true ∧ m ≠ [] ∧ ∀ k, m.get 0 k = n.get 0 k :=
  ⟨[(3, 5)], [(3, 5)], by decide, by decide, by decide, fun _ => rfl⟩

theorem witness_policer : ∃ p : Policer, p.mode = 4 ∧ (p.decide 0 1).2 = 0 ∧ (p.decide 1 1).2 = 1 ∧ (p.decide 3 1).2 = 2 :=
  ⟨{ mode := 4, tc := 2048, te := 2048 }, by decide⟩

/-- Two promised queues of port 0 with packets, and one of smaller VF that has none. -/
theorem witness_promised : (([(1, { vf := 7 }), (2, { vf := 5 }), (3, { vf := 5 })] : List (Nat × Queue)).map Prod.fst).Pairwise (· < ·) ∧
    (smallestVf [(1, { vf := 7 }), (2, { vf := 5 }), (3, { vf := 5 })]).map Prod.fst = some 2 := by decide +kernel

theorem witness_time : State.reset.time.freqPpb = 0 ∧ State.reset.time.slew = none := ⟨rfl, rfl⟩

/-- Group 24 with two CAP cells of a version-3 word behind it: the third brings it UP. -/
def thirdCap (versions : Nat) : State × BitVec 64 :=
  let w := versions + 1 * 2 ^ 8 + 0x1000 * 2 ^ 32
  (State.reset.updLink 24 fun l => { l with st := .cap, capRun := 2, capWord := w }, BitVec.ofNat 64 w)
def afterCap (versions : Nat) : Option (LinkSt × Nat × Nat) :=
  match exec (.capCellReceived 0 24 (thirdCap versions).2) (thirdCap versions).1 with
  | .next t => some ((t.link 24).st, (t.link 24).version, (t.link 24).cause)
  | _ => none
theorem witness_twinLink : afterCap 0x0E = some (.up, 3, 0) ∧ afterCap 0x06 = some (.up, 2, 0) ∧ afterCap 0x02 = some (.noCommon, 0, 5) ∧
    afterCap 0x10 = some (.noCommon, 0, 1) := by decide +kernel

theorem witness_modeApply : let u := hosted 1
    u.hostUp = true ∧ u.serves 0 = true ∧ (1 : Word32).getLsbD 0 = true ∧ u.applied = false ∧ u.chip.d2dDown = false ∧
      u.modes.plan = [] := by decide +kernel
theorem witness_modeApply_waits : let u := { hosted 1 with modes := { plan := [(.cellar, true)] } }
    u.hostUp = true ∧ u.serves 0 = true ∧ (1 : Word32).getLsbD 0 = true ∧ u.applied = false ∧ u.chip.d2dDown = false ∧
      u.modes.plan ≠ [] := by decide +kernel
theorem witness_modeApply_discarded : (hosted 1).hostUp = true ∧ (hosted 1).serves 0 = true ∧ (0xFFFFFFFE : Word32).getLsbD 0 = false := by
  decide +kernel
theorem witness_setMode : ∃ a : Accepted setModeSpec, a.i.fn = 0 ∧ a.t.modes.plan = [] ∧ bits a.x 32 32 = 0 := by
  obtain ⟨a, n, hx, hi, hk, hp, ht⟩ := accepted_keyed setModeSpec (keyed (hosted 2)) (List.replicate 32 2)
    (BitVec.ofNat 512 (rawOf 0x100 8 1 0 + 2 ^ 16)) 8 1 (by decide +kernel) rfl (fun _ => rfl) (fun _ _ => Nat.zero_le _)
    (fun _ _ => rfl)
  exact ⟨a, by rw [hi]; rfl, by rw [ht]; rfl, by rw [hx]; rfl⟩
theorem witness_setMode_waits : ∃ a : Accepted setModeSpec, a.i.fn = 0 ∧ a.t.modes.plan ≠ [] := by
  obtain ⟨a, n, hx, hi, hk, hp, ht⟩ := accepted_keyed setModeSpec (keyed { hosted 2 with modes := { plan := [(.cellar, true)] } })
    (List.replicate 32 2) (BitVec.ofNat 512 (rawOf 0x100 8 1 0 + 2 ^ 16)) 8 1 (by decide +kernel) (by decide +kernel) (fun _ => rfl)
    (fun _ _ => Nat.zero_le _) (fun _ _ => rfl)
  exact ⟨a, by rw [hi]; rfl, by rw [ht]; exact List.cons_ne_nil _ _⟩
theorem witness_partAssign : ∃ a : Accepted partAssignSpec, bits a.x 6 58 = 0 ∧ a.t.modes.plan = [] ∧ ∀ g < 6, (a.t.group g).st = .off := by
  obtain ⟨a, n, hx, hi, hk, hp, ht⟩ := accepted_keyed partAssignSpec (keyed (hosted 2)) (List.replicate 32 2)
    (BitVec.ofNat 512 (rawOf 0x101 8 0x3F 0 + 2 ^ 16)) 8 0x3F (by decide +kernel) rfl (fun _ => rfl) (fun _ _ => Nat.zero_le _)
    (fun _ _ => rfl)
  exact ⟨a, by rw [hx]; rfl, by rw [ht]; rfl, by rw [ht]; intro g _; rfl⟩
theorem witness_partAssign_refused : ∃ a : Accepted partAssignSpec, bits a.x 6 58 = 0 ∧ a.t.modes.plan = [] ∧ ∃ g < 6, (a.t.group g).st ≠ .off := by
  obtain ⟨a, n, hx, hi, hk, hp, ht⟩ := accepted_keyed partAssignSpec (keyed ((hosted 2).updGroup 5 fun d => { d with st := .on })) (List.replicate 32 2)
    (BitVec.ofNat 512 (rawOf 0x101 8 0x3F 0 + 2 ^ 16)) 8 0x3F (by decide +kernel) (by decide +kernel) (fun _ => rfl) (fun _ _ => Nat.zero_le _)
    (fun _ _ => rfl)
  exact ⟨a, by rw [hx]; rfl, by rw [ht]; rfl, 5, by decide, by rw [ht]; exact OnOff.noConfusion⟩
theorem witness_modeStartingDone : let u := { (State.reset.updMode .cellar fun d => { d with st := .starting }) with modes :=
      { ((State.reset.updMode .cellar fun d => { d with st := .starting }).modes) with plan := [(.cellar, true)] } }
    (u.mode .cellar).st = .starting ∧ u.modes.plan.head? = some (.cellar, true) ∧ u.modeReady .cellar = true := by decide +kernel
theorem witness_modeQuiescingDone : let u := { (State.reset.updMode .cellar fun d => { d with st := .quiescing }) with modes :=
      { ((State.reset.updMode .cellar fun d => { d with st := .quiescing }).modes) with plan := [(.cellar, false)] } }
    (u.mode .cellar).st = .quiescing ∧ u.modes.plan.head? = some (.cellar, false) ∧ u.modeDrained .cellar = true := by decide +kernel
theorem witness_partitionTransitionBegin : let u := { State.reset with modes := { plan := [(.partition, true)], partWait := true } }
    u.modes.plan.head? = some (.partition, true) ∧ u.modes.partWait = true ∧ u.epochsSettled 0 = true ∧ u.epochsSettled 1 = true := by
  decide +kernel
theorem witness_setMode_PF1 : ∃ a : Accepted setModeSpec, a.i.fn = 1 := by
  obtain ⟨a, n, hx, hi, hk, hp, ht⟩ := accepted_by 1 setModeSpec (keyed { hosted 2 with host :=
      { fns := [(1, { chosen := 2, busMaster := true })], linkUp := true, speed := 3, width := 16 } }) (List.replicate 32 2)
    (BitVec.ofNat 512 (rawOf 0x100 8 1 0 + 2 ^ 16)) 8 1 (by decide +kernel) rfl (fun _ => rfl) (fun _ _ => Nat.zero_le _)
    (fun _ _ => rfl)
  exact ⟨a, by rw [hi]; rfl⟩

/-- One lane, or every lane of a port, in a state. -/
def laneIn (n : Nat) (st : LaneSt) : State := State.reset.updLane n fun l => { l with st := st }
def portIn (p : Nat) (st : LaneSt) : State := State.reset.updLanes p fun l => { l with st := st }
theorem witness_laneTxSettled : ((laneIn 151 .txOn).lane 151).st = .txOn := by decide +kernel
theorem witness_signalQualified : let u := (laneIn 0 .rxSignal).pass cycMs
    (u.lane 0).st = .rxSignal ∧ (u.lane 0).since + cycMs ≤ u.cyc := by decide +kernel
theorem witness_laneAdapted : ((laneIn 47 .rxAdapt).lane 47).st = .rxAdapt := by decide +kernel
theorem witness_pcsAligned : let u := portIn 73 .rxLock
    u.lanesAll 73 .rxLock = true ∧ u.isFramerLine 73 = false := by decide +kernel
theorem witness_pcsAligned_line : let u := (State.reset.updPort 47 fun q => { q with typ := 1 }).updLanes 47 fun l => { l with st := .rxLock }
    u.lanesAll 47 .rxLock = true ∧ u.isFramerLine 47 = false := by decide +kernel
theorem witness_lossOfSignal_adapting : let u := laneIn 48 .rxAdapt
    u.laneIdle 48 = false ∧ (u.lane 48).st = .rxAdapt := by decide +kernel
theorem witness_loss_up : let u := laneIn 151 .pcsUp
    u.laneIdle 151 = false ∧ (u.lane 151).st = .pcsUp := by decide +kernel
theorem witness_portDown : (portIn 73 .pcsUp).pcsUp 73 = true := by decide +kernel
theorem witness_lockTimeout : let u := (State.reset.updPort 73 fun q => { q with attempt := some 0 }).pass (500 * cycMs)
    (u.port 73).attempt = some 0 ∧ 0 + u.lockTimeoutCyc ≤ u.cyc := by decide +kernel
theorem witness_retryInterval : let u := (State.reset.updPort 0 fun q => { q with failedAt := some 0 }).pass (1000 * cycMs)
    (u.port 0).failedAt = some 0 ∧ 0 + u.retryCyc ≤ u.cyc ∧ u.pcsUp 0 = false := by decide +kernel
theorem witness_prbsPatternSet : let u := hosted 1
    u.hostUp = true ∧ u.serves 0 = true ∧ u.ownsGroup 0 (47 / 8) = true ∧ u.chip.d2dDown = false ∧
      ((u.storeReg (0x00200008 + 0x40 * 47) 0x11).lane 47).st = .off := by decide +kernel
theorem witness_prbsPatternSet_on : let u := (hosted 1).updLane 47 fun l => { l with st := .pcsUp }
    let t := u.storeReg (0x00200008 + 0x40 * 47) 0x11
    u.hostUp = true ∧ u.serves 0 = true ∧ u.ownsGroup 0 (47 / 8) = true ∧ u.chip.d2dDown = false ∧ (t.lane 47).st ≠ .off ∧
      t.prbsOn 47 = true := by decide +kernel
theorem witness_prbsCheckerLock : let u := (laneIn 0 .prbs).setReg 0x00200008 0x10
    (u.lane 0).st = .prbs ∧ prbsActs (u.regF (0x00200008 + 0x40 * (0 : Fin 48)) 4 4) (u.lane 0).rate ≠ 0 := by decide +kernel
theorem witness_prbsLockLost : ((State.reset.updLane 0 fun l => { l with prbsLock := true }).lane 0).prbsLock = true := by decide +kernel

theorem witness_macAddrSet : ∃ a : Accepted macAddrSetSpec, bits a.x 0 8 = 47 ∧ bits a.x 13 51 = 0 ∧ bits a.x 112 16 = 0 ∧ bit a.x 64 = false :=
  ⟨plain _ (ringWith (hosted 1) (descOf 0x200 16 0x1F2F 0)) (descOf 0x200 16 0x1F2F 0) 16 0x1F2F (by decide +kernel), by decide +kernel⟩
theorem witness_macAddrSet_refused : ∃ a : Accepted macAddrSetSpec, bits a.x 0 8 = 48 :=
  ⟨plain _ (ringWith (hosted 1) (descOf 0x200 16 0x30 0)) (descOf 0x200 16 0x30 0) 16 0x30 (by decide +kernel), by decide +kernel⟩
theorem witness_macAddrRead : ∃ a : Accepted macAddrReadSpec, bits a.x 0 8 = 47 ∧ bits a.x 8 56 = 0 ∧ a.t.partOn = false :=
  ⟨plain _ (ringWith (hosted 1) (descOf 0x201 8 47 128)) (descOf 0x201 8 47 128) 8 47 (by decide +kernel), by decide +kernel⟩
/-- Line port 47 carries traffic as a 1-lane port. -/
def upPort : State :=
  (State.reset.updPort 47 fun q => { q with typ := 1 }).updLanes 47 fun l => { l with st := .pcsUp, typ := 1 }
theorem witness_frameReceived_down : State.reset.portUp 47 = false := by decide +kernel
theorem witness_frameReceived : upPort.portUp 47 = true ∧ upPort.chip.d2dDown = false := by decide +kernel
theorem witness_frameReceived_bad : let v := (upPort.countLine 47 {}).takeSeq 47 18 0
    v.rxFlags 47 (List.replicate 18 0) {} ≠ 0 := by decide +kernel
theorem witness_pauseExpiry : let u := (State.reset.updPort 47 fun t => { t with pauses := [(8, 0, 1)] }).pass 1
    (u.port 47).pauses.find? (((none : Option (Fin 8)).map (·.val)).getD 8) = some (0, 1) ∧ 1 ≤ u.cyc := by decide +kernel
theorem witness_ledgerExtendedInterim : let u := (State.reset.updPort 47 fun t => { t with downAt := some (0, 0) }).pass (10 * cycMs)
    (u.port 47).honorFrom = [] ∧ (u.port 47).downAt = some (0, 0) ∧ (u.port 47).interimAt.get 0 9 + 10 * cycMs ≤ u.cyc := by
  decide +kernel
theorem witness_pauseResend : let u := ({ ((upPort.setReg 0x004005E0 0x40000).setReg 0x004005E4 1).updPort 47 (fun t => { t with xoffSent := some 0 }) with
      switch := { staging := [(3, [{ data := [0], pp := { inPort := 47 } }])] } } : State).pass 1342157
    let f := u.macFlow 47
    (u.port 47).xoffSent = some 0 ∧ u.pauseTx 47 ≠ 0 ∧ 0 + u.quantaCyc 47 0xFFFF / 2 ≤ u.cyc ∧
    (if bits f 12 12 < bits f 0 12 then bits f 12 12 else bits f 0 12 - 1) * 1024 < u.occupancy 47 := by decide +kernel

theorem witness_frameAlign_dead : State.reset.framerLive (levelGroup (239 : Fin 240)) = false := by decide +kernel
/-- Lane 0 of group 0 carries an OTUCn signal; its level's record is `a`. -/
def framed (a : Align) : State :=
  (((({ State.reset with modes := { State.reset.modes with word := 0x10004 } } : State).updMode .transport fun d => { d with st := .on }).updGroup 0 fun g => { g with st := .on }).setReg
    0x00500000 2).updLevel 0 fun _ => a
theorem witness_frameAlign : let u := framed { inFrame := true, locked := 5, misses := 4 }
    u.framerLive (levelGroup (0 : Fin 240)) = true ∧ u.levelExists (0 : Fin 240) = true ∧ (u.level (0 : Fin 240)).inFrame = true ∧
      (u.level (0 : Fin 240)).misses = 4 := by decide +kernel
/-- The same with a host that sends a command. -/
def framedSent (op len x resp : Nat) : State := ringWith { framed {} with host := (hosted 1).host } (descOf op len x resp)
theorem witness_xptOhSet : ∃ a : Accepted xptOhSetSpec, a.t.entityOk (bits a.x 0 32) true = true ∧ bits a.x 32 32 = 0 :=
  ⟨plain _ (framedSent 0x210 72 (mkEnt 0 1 0) 0) (descOf 0x210 72 (mkEnt 0 1 0) 0) 72 (mkEnt 0 1 0) (by decide +kernel), by decide +kernel⟩
theorem witness_xptOhRead : ∃ a : Accepted xptOhReadSpec, a.t.entityOk (bits a.x 0 32) true = true ∧ bits a.x 32 32 = 0 :=
  ⟨plain _ (framedSent 0x211 8 (mkEnt 0 1 0) 64) (descOf 0x211 8 (mkEnt 0 1 0) 64) 8 (mkEnt 0 1 0) (by decide +kernel), by decide +kernel⟩
theorem witness_pmRead : ∃ a : Accepted pmReadSpec, a.t.entityOk (bits a.x 0 32) false = true ∧ bits a.x 48 8 = 96 :=
  ⟨plain _ (framedSent 0x212 8 (mkEnt 0 1 0 + 96 * 2 ^ 48) 6144) (descOf 0x212 8 (mkEnt 0 1 0 + 96 * 2 ^ 48) 6144) 8 (mkEnt 0 1 0 + 96 * 2 ^ 48)
    (by decide +kernel), by decide +kernel⟩
theorem witness_pmBinClosed : let e : XEnt := { hist24 := [{ start := 0, day := true, endS := 1 }] }
    let u : State := { State.reset with time := { State.reset.time with master := 20 * qSec * 65536 } }.updEnt (mkEnt 0 1 0) fun _ => e
    State.reset.dueBins (0 : Fin 6) true = [] ∧ u.dueBins (0 : Fin 6) true = [0] := by decide +kernel

/-- One frame for PF0's punt ring 31 is stored. -/
def puntFrame : Punt := { pkt := { data := List.replicate 64 0 }, reason := 1 }
def puntStored (f : Ring → Ring) : State :=
  { (hosted 1).updRing 0 175 f with byway := { store := [(0, 31, puntFrame)] } }
theorem witness_puntReservation_notClaimed : let u := (puntStored id).updMode .twin fun _ => { st := .on }
    takePunt (0 : Fin 2) (31 : Fin 32) u.byway.store = some (puntFrame, []) ∧ u.holds puntFrame.pkt.part = false := by decide +kernel
theorem witness_puntReservation : let u := puntStored fun g => { g with st := .running, posted := [0x1000] }
    let g := u.ring 0 175
    takePunt (0 : Fin 2) (31 : Fin 32) u.byway.store = some (puntFrame, []) ∧ u.holds puntFrame.pkt.part = true ∧ g.st = .running ∧
      g.fetchStop = false ∧ u.canWrite 0 = true ∧ ceilDiv (64 + puntFrame.pkt.data.length) (bufSize g) ≤ g.posted.length := by decide +kernel
theorem witness_puntReservation_short : let u := puntStored fun g => { g with st := .running }
    let g := u.ring 0 175
    takePunt (0 : Fin 2) (31 : Fin 32) u.byway.store = some (puntFrame, []) ∧ u.holds puntFrame.pkt.part = true ∧
      g.posted.length < ceilDiv (64 + puntFrame.pkt.data.length) (bufSize g) := by decide +kernel
theorem witness_puntReservation_none : takePunt (1 : Fin 2) (0 : Fin 32) State.reset.byway.store = none := by decide +kernel
theorem witness_injectFrameRead : let u := (hosted 1).updRing 0 207 fun g => { g with st := .running, injects := [0] }
    (u.ring 0 207).injects = [0] ∧ (u.ring 0 207).st = .running ∧ (u.ring 0 207).fetchStop = false ∧ u.canWrite 0 = true ∧
      u.chip.d2dDown = false := by decide +kernel
theorem witness_stagingToLanding : let u := State.reset.updStaging (3 : Fin 4) fun _ => [{ data := List.replicate 64 0 }]
    u.stagingOf (3 : Fin 4) = [{ data := List.replicate 64 0 }] ∧ u.chip.d2dDown = false ∧ u.inBytes (3 : Fin 4) + 64 ≤ 65536 := by
  decide +kernel
theorem witness_stagingToLanding_full : ∃ u : State, u.stagingOf (3 : Fin 4) = [{}] ∧ u.chip.d2dDown = false ∧
    65536 < u.inBytes (3 : Fin 4) + 0 :=
  ⟨{ State.reset with switch := { staging := [(3, [{}])], inputs := [(3, List.replicate 1025 { data := List.replicate 64 0 })] } },
    by decide +kernel⟩
theorem witness_d2dFlitCrcFail : State.reset.chip.d2dDown = false := rfl

theorem witness_fabReachWrite : ∃ a : Accepted fabReachSpec, a.x = 0xFFFFFF00000FFF :=
  ⟨plain _ (sent 0x700 8 0xFFFFFF00000FFF 0) (descOf 0x700 8 0xFFFFFF00000FFF 0) 8 0xFFFFFF00000FFF (by decide +kernel), by decide +kernel⟩
/-- Link 25 in state `st`. -/
def linkIn (st : LinkSt) : State := State.reset.updLink 25 fun l => { l with st := st }
theorem witness_capCellReceived : ∀ st ∈ [LinkSt.down, .cap, .noCommon, .up], ((linkIn st).link 25).st = st := by decide +kernel
theorem witness_fabCreditStall : let u := State.reset.updLink 25 fun l => { l with shortSince := some 0 }
    ((State.reset.noteCredit 25).link 25).shortSince = none ∧ (u.link 25).shortSince = some 0 := by decide +kernel

theorem witness_fabricCellTransmit : let u := (linkIn .up).updLink 25 fun l => { l with version := 3, sending := some ({}, [0]) }
    (((linkIn .down).noteCredit 25).link 25).st = .down ∧ ((u.noteCredit 25).link 25).st = .up ∧ ((u.noteCredit 25).link 25).txIdle = false ∧
      (u.noteCredit 25).chip.d2dDown = false ∧ ((u.noteCredit 25).link 25).sending = some ({}, [0]) ∧
      (((linkIn .up).noteCredit 25).link 25).sending = none := by decide +kernel
theorem witness_reassemblyTimeout : let u := (linkIn .up).updLink 25 fun l => { l with ctxs := l.ctxs.ins 4095 { hdr := 0 } }
    ((linkIn .up).link 25).ctxs.find? 4095 = none ∧ (u.link 25).ctxs.find? 4095 = some { hdr := 0 } := by decide +kernel

theorem witness_tableWrite_refused : ∃ a : Accepted tableWriteSpec, (a.t.tableCheck (a.s.cmdOf a.i a.d) a.x true false).1 ≠ stOk :=
  ⟨plain _ (sent 0x400 24 0x107 0) (descOf 0x400 24 0x107 0) 24 0x107 (by decide +kernel), by decide +kernel⟩
theorem witness_tableWrite_indexed : ∃ a : Accepted tableWriteSpec, let c := a.s.cmdOf a.i a.d
    let key := tblKey (bits a.x 0 8) (a.t.tableCheck c a.x true false).2
    (a.t.tableCheck c a.x true false).1 = stOk ∧ ((a.t.versions key).getLast?.all fun v => v.birth != (a.t.stageEpoch c).1) = true ∧
      bits a.x 0 8 = 7 :=
  ⟨plain _ (sent 0x400 24 7 0) (descOf 0x400 24 7 0) 24 7 (by decide +kernel), by decide +kernel⟩
/-- A route of family 4 and length 0 in VRF 0; a TCAM row of bank 0. -/
def routeX : Nat := 3 + 0x4000 * 2 ^ 128
theorem witness_tableWrite_route : ∃ a : Accepted tableWriteSpec, let c := a.s.cmdOf a.i a.d
    let key := tblKey 3 (a.t.tableCheck c a.x true false).2
    (a.t.tableCheck c a.x true false).1 = stOk ∧ ((a.t.versions key).getLast?.all fun v => v.birth != (a.t.stageEpoch c).1) = true ∧
      bits a.x 0 8 = 3 :=
  ⟨plain _ (sent 0x400 40 routeX 0) (descOf 0x400 40 routeX 0) 40 routeX (by decide +kernel), by decide +kernel⟩
theorem witness_tableWrite_exact : ∃ a : Accepted tableWriteSpec, let c := a.s.cmdOf a.i a.d
    let key := tblKey 4 (a.t.tableCheck c a.x true false).2
    (a.t.tableCheck c a.x true false).1 = stOk ∧ ((a.t.versions key).getLast?.all fun v => v.birth != (a.t.stageEpoch c).1) = true ∧
      bits a.x 0 8 = 4 :=
  ⟨plain _ (sent 0x400 48 4 0) (descOf 0x400 48 4 0) 48 4 (by decide +kernel), by decide +kernel⟩
theorem witness_tableWrite_tcam : ∃ a : Accepted tableWriteSpec, let c := a.s.cmdOf a.i a.d
    let key := tblKey 1 (a.t.tableCheck c a.x true false).2
    (a.t.tableCheck c a.x true false).1 = stOk ∧ ((a.t.versions key).getLast?.all fun v => v.birth != (a.t.stageEpoch c).1) = true ∧
      bits a.x 0 8 = 1 :=
  ⟨plain _ (sent 0x400 56 1 0) (descOf 0x400 56 1 0) 56 1 (by decide +kernel), by decide +kernel⟩
theorem witness_tableDelete : Nonempty (Accepted tableDeleteSpec) :=
  ⟨plain _ (sent 0x401 24 7 0) (descOf 0x401 24 7 0) 24 7 (by decide +kernel)⟩
theorem witness_tableRead : ∃ a : Accepted tableReadSpec, (a.t.tableCheck (a.s.cmdOf a.i a.d) a.x false true).1 = stOk :=
  ⟨plain _ (sent 0x402 24 0x10007 16) (descOf 0x402 24 0x10007 16) 24 0x10007 (by decide +kernel), by decide +kernel⟩
theorem witness_tcamBankFormat : ∃ a : Accepted tcamBankFormatSpec, bits a.x 0 4 = 11 ∧ bits a.x 4 4 = 0 ∧ bits a.x 10 54 = 0 ∧ a.t.partOn = false :=
  ⟨plain _ (sent 0x405 8 0x30B 0) (descOf 0x405 8 0x30B 0) 8 0x30B (by decide +kernel), by decide +kernel⟩
theorem witness_parseGraphWrite : ∃ a : Accepted parseGraphWriteSpec, bits a.x 1 3 = 0 ∧ bits a.x 8 8 = 0 ∧ bits a.x 48 16 = 0 ∧
    bits a.x 16 16 + bits a.x 32 16 = graphEntries (bits a.x 4 4) ∧
    a.x / 2 ^ (8 * (8 + bits a.x 32 16 * graphBytes (bits a.x 4 4))) = 0 ∧ a.t.partOn = false :=
  ⟨plain _ (sent 0x300 16 0x20FFE0021 0) (descOf 0x300 16 0x20FFE0021 0) 16 0x20FFE0021 (by decide +kernel), by decide +kernel⟩
theorem witness_parseGraphActivate : ∃ a : Accepted parseGraphActivateSpec, bits a.x 1 63 = 0 ∧ a.t.partOn = false :=
  ⟨plain _ (sent 0x301 8 1 0) (descOf 0x301 8 1 0) 8 1 (by decide +kernel), by decide +kernel⟩
/-- Rows 0 and 1 of bank 0 stand next to each other, and a row between them waits for a slot. -/
def rowX : Nat := 1 + (2 * 2 ^ 16 + 5 * 2 ^ 32) * 2 ^ 128
def rowRun : Running := { desc := descOf 0x400 56 rowX 0, seq := 0, wait := .tcamMove 0 1 0, payloadLen := 56, payload := rowX }
def rowsFull : State :=
  let s := (hosted 1).updRing 0 0 fun g => { g with st := .running, running := some rowRun }
  { s with lookup := { s.lookup with
      bankRows := [(0, [(0, tcamKey 0 0, 0), (1, tcamKey 0 1, 0)])]
      tabs := [(tcamKey 0 0, [{ birth := 0, data := 9 * 2 ^ 32 }]), (tcamKey 0 1, [{ birth := 0, data := 0 }])] } }
theorem witness_tcamRowMove : ∃ (l l' : List (Nat × Nat × Running)) (xs : List Nat), let u := rowsFull.pass 0
    u.waiting = l ++ (0, 0, rowRun) :: l' ∧ (∀ w ∈ l, ∀ e o, w.2.2.wait ≠ .tcamMove (0 : Fin 12) e o) ∧ rowRun.wait = .tcamMove (0 : Fin 12) 1 0 ∧
    tableWriteSpec.split u rowRun.desc.entries rowRun.payloadLen rowRun.payload = some xs ∧ xs[rowRun.doneEntries]? = some rowX ∧
    u.tcamPlacement (0 : Fin 12) (tcamKey (0 : Fin 12) (bits (rowX / 2 ^ 128) 16 14)) (recPriority (rowX / 2 ^ 128)) 1 = .move 1 2 :=
  ⟨[], [], [rowX], by decide +kernel, fun _ h => absurd h List.not_mem_nil, rfl, by decide +kernel, rfl, by decide +kernel⟩

/-- PF0's head command is EPOCH_COMMIT or EPOCH_DISCARD and one entry of the next-hop group table is staged. -/
def stagedOne (op : Nat) : State :=
  let s := sent op 0 0 0
  { s with lookup := { s.lookup with tabs := [(tblKey 7 0, [{ birth := 1 }])] } }
theorem witness_epochCommit_nothing : ∃ a : Accepted epochCommitSpec, let p := a.part
    let t := a.t.updEpochs p fun e => { e with nextOrder := max e.nextOrder (e.nextOrder + 1) }
    a.t.waitOf a.i.fn a.i.ring = none ∧ t.commits p = [] ∧ t.writing p = [] ∧ a.t.changes p (a.t.pendingEp p) = 0 ∧ a.t.writing p = [] :=
  ⟨plain _ (sent 0x403 0 0 0) (descOf 0x403 0 0 0) 0 0 (by decide +kernel), by decide +kernel⟩
theorem witness_epochCommit : ∃ a : Accepted epochCommitSpec, let p := a.part
    let t := a.t.updEpochs p fun e => { e with nextOrder := max e.nextOrder (e.nextOrder + 1) }
    a.t.waitOf a.i.fn a.i.ring = none ∧ t.commits p = [] ∧ t.writing p = [] ∧ 0 < a.t.changes p (a.t.pendingEp p) ∧
      (a.t.epochs p).live (a.t.pendingEp p) ≤ t.liveLimit :=
  ⟨plain _ (stagedOne 0x403) (descOf 0x403 0 0 0) 0 0 (by decide +kernel), by decide +kernel⟩
theorem witness_epochCommit_waits : ∃ a : Accepted epochCommitSpec, let p := a.part
    let t := a.t.updEpochs p fun e => { e with nextOrder := max e.nextOrder (e.nextOrder + 1) }
    a.t.waitOf a.i.fn a.i.ring = none ∧ t.commits p = [] ∧ t.writing p = [] ∧ 0 < a.t.changes p (a.t.pendingEp p) ∧
      t.liveLimit < (a.t.epochs p).live (a.t.pendingEp p) :=
  ⟨plain _ { stagedOne 0x403 with lookup := { (stagedOne 0x403).lookup with
      tabs := [(tblKey 7 0, [{ birth := 2048 }])], epA := { cur := 2047, refs := [(0, 1)] } } } (descOf 0x403 0 0 0) 0 0 (by decide +kernel),
    by decide +kernel⟩
/-- A commit waits on PF0's ring 0 since cycle 0. -/
def commitWaits (b : Bool) : State :=
  ((hosted 1).updRing 0 0 fun g => { g with st := .running, running := some { desc := descOf 0x403 0 0 0, seq := 0, wait := .commit (some 1) 0 (some 0) b } })
theorem witness_epochCommitResume : ((commitWaits true).waitOf 0 0) = some (.commit (some 1) 0 (some 0) true) := by decide +kernel
theorem witness_epochStall : let u := (commitWaits false).pass (100 * cycMs)
    (u.ring 0 0).running = some { desc := descOf 0x403 0 0 0, seq := 0, wait := .commit (some 1) 0 (some 0) false } ∧
      0 + 100 * cycMs ≤ u.cyc := by decide +kernel
theorem witness_epochDiscard : ∃ a : Accepted epochDiscardSpec, a.t.waitOf a.i.fn a.i.ring = none ∧
    ∀ w ∈ a.t.writing a.part, (a.t.epochs a.part).nextOrder ≤ w.2 :=
  ⟨plain _ (stagedOne 0x404) (descOf 0x404 0 0 0) 0 0 (by decide +kernel), by decide +kernel⟩
theorem witness_epochDiscard_waits : ∃ a : Accepted epochDiscardSpec, a.t.waitOf a.i.fn a.i.ring = none ∧
    ∃ w ∈ a.t.writing a.part, w.2 < (a.t.epochs a.part).nextOrder :=
  ⟨plain _ (((stagedOne 0x404).updRing 0 1 fun g =>
      { g with running := some { desc := descOf 0x400 0 0 0, seq := 0, wait := .tcamMove 0 1 4 } }).updEpochs 0 fun e => { e with nextOrder := 5 })
    (descOf 0x404 0 0 0) 0 0 (by decide +kernel), by decide +kernel⟩
theorem witness_versionReclaim : let u := { State.reset with lookup := { State.reset.lookup with epA := { cur := 1 } } }
    (u.epochs 0).reclaimed < (u.epochs 0).oldest ∧ (State.reset.epochs 0).oldest ≤ (State.reset.epochs 0).reclaimed := by decide +kernel

theorem witness_mcastGroupWrite : ∃ a : Accepted mcastGroupSpec, a.t.partOn = false ∧ grpCount (bits a.x 64 128) ≤ 16384 :=
  ⟨plain _ (sent 0x500 24 0xFFFFF 0) (descOf 0x500 24 0xFFFFF 0) 24 0xFFFFF (by decide +kernel), by decide +kernel⟩
theorem witness_mcastGroupRead : ∃ a : Accepted mcastReadSpec, a.t.partOn = false ∧ bits a.x 20 44 = 0 :=
  ⟨plain _ (sent 0x501 8 0xFFFFF 16) (descOf 0x501 8 0xFFFFF 16) 8 0xFFFFF (by decide +kernel), by decide +kernel⟩
theorem witness_mcastMembersWrite : ∃ a : Accepted mcastMembersSpec, a.t.partOn = false ∧ bits a.x 23 9 = 0 ∧ bits a.x 45 19 = 0 ∧
    bits a.x 0 23 + bits a.x 32 13 = 8388608 ∧ ∀ e ∈ memberList a.x, bits e.2 0 8 < 48 :=
  ⟨plain _ (sent 0x502 16 (0x2F * 2 ^ 64 + 0x1007FFFFF) 0) (descOf 0x502 16 (0x2F * 2 ^ 64 + 0x1007FFFFF) 0) 16 (0x2F * 2 ^ 64 + 0x1007FFFFF) (by decide +kernel), by decide +kernel⟩
theorem witness_mcastEsetWrite : ∃ a : Accepted mcastEsetSpec, a.t.partOn = false ∧ bits a.x 0 16 = 0xFFFF :=
  ⟨plain _ (sent 0x503 520 0xFFFF 0) (descOf 0x503 520 0xFFFF 0) 520 0xFFFF (by decide +kernel), by decide +kernel⟩
theorem witness_caravanFirstStage : ({ State.reset with caravan := { first := [3] } } : State).caravan.first = [3] := rfl
theorem witness_caravanFirstStage_head : let u : State := { State.reset with
      caravan := { first := [3] }, switch := { inputs := [(3, [{ first := true, data := [0] }])] } }
    (u.inputOf 3).find? (·.first) = some { first := true, data := [0] } := by decide +kernel
/-- A multicast packet of group 5 waits for the second stage; the group's entry has one member at 0 in pool 0. -/
def mcPkt : Pkt := { pp := { kind := kindMulticast, dest := 5 }, data := List.replicate 64 0 }
def secondOne (valid pool : Nat) : State :=
  { State.reset with inn := { State.reset.inn with roomsTotal := 1 }, caravan := { second := [(7, mcPkt)], groups := [(5, valid + 2 ^ 41 + pool * 2 ^ 56)] } }
theorem witness_caravanSecondStage_invalid : let u := (secondOne 0 0).pass 0
    let v : State := { u with caravan := { u.caravan with second := [] } }
    u.caravan.second = [(7, mcPkt)] ∧ grpValid (v.groupEntry 5) = false := by decide +kernel
theorem witness_caravanSecondStage_noRoom : let u := (secondOne 1 15).pass 0
    let v : State := { u with caravan := { u.caravan with second := [] } }
    let e := v.groupEntry 5
    u.caravan.second = [(7, mcPkt)] ∧ grpValid e = true ∧ grpCount e ≠ 0 ∧
      (v.allocChain (grpPool e) (roomsOf mcPkt.data.length)).2 = none := by decide +kernel
theorem witness_caravanSecondStage_copies : let u := (secondOne 1 0).pass 0
    let v : State := { u with caravan := { u.caravan with second := [] } }
    let e := v.groupEntry 5
    u.caravan.second = [(7, mcPkt)] ∧ grpValid e = true ∧ grpCount e ≠ 0 ∧
      (v.allocChain (grpPool e) (roomsOf mcPkt.data.length)).2.isSome = true := by decide +kernel
theorem witness_ledgerAdmission_copy : takeCopy (7 : Fin 8) [(7, 0, 5, mcPkt)] = some ((0, 5, mcPkt), []) := by decide +kernel
theorem witness_ledgerAdmission_packet : let u := State.reset.updOutput (24 + (7 : Fin 8)) fun _ => [mcPkt]
    takeCopy (7 : Fin 8) u.caravan.copies = none ∧ u.outputOf (24 + (7 : Fin 8)) = [mcPkt] := by decide +kernel

theorem witness_innPoolSet : ∃ a : Accepted innPoolSetSpec, a.t.partOn = false ∧ bits a.x 5 3 = 0 ∧ bits a.x 37 3 = 0 ∧ bits a.x 56 8 = 0 ∧
    16 ≤ bits a.x 40 16 :=
  ⟨plain _ (sent 0x600 8 0x10000000001F 0) (descOf 0x600 8 0x10000000001F 0) 8 0x10000000001F (by decide +kernel), by decide +kernel⟩
theorem witness_innPoolSet_refused : ∃ a : Accepted innPoolSetSpec, bits a.x 5 3 ≠ 0 :=
  ⟨plain _ (sent 0x600 8 0x20 0) (descOf 0x600 8 0x20 0) 8 0x20 (by decide +kernel), by decide +kernel⟩
theorem witness_innQueueSet : ∃ a : Accepted innQueueSetSpec, a.t.partOn = false ∧ bits a.x 0 20 = 0xFFFFF :=
  ⟨plain _ (sent 0x601 16 0xFFFFF 0) (descOf 0x601 16 0xFFFFF 0) 16 0xFFFFF (by decide +kernel), by decide +kernel⟩
theorem witness_innAudit : Nonempty (Accepted innAuditSpec) :=
  ⟨plain _ (sent 0x602 0 0 0) (descOf 0x602 0 0 0) 0 0 (by decide +kernel)⟩
theorem witness_innAuditDone : let u := (hosted 1).updRing 0 63 fun g =>
      { g with running := some { desc := descOf 0x602 0 0 0, seq := 0, wait := .audit } }
    u.waitOf 0 63 = some .audit := by decide +kernel
/-- Queue 1,048,575 holds 32 rooms, spills beyond one page, and has pages `c`; the spill area is `rows` pages of channel XMA. -/
def spilling (c : List (Nat × Nat)) (rooms rows : Nat) : State :=
  ({ State.reset with
      tm := { queues := [(1048575, { spillEn := true, spillPages := 1, pullAhead := 1, cpages := c,
                                     pkts := List.replicate 8 { pkt := { pp := { length := 1000 }, data := List.replicate 1000 0 } } })] }
      inn := { State.reset.inn with roomsTotal := rooms, spillRows := if rows = 0 then [] else [(0, rows)] }
      mem := { State.reset.mem with xm := [(0, { st := 3, gib := 64 })] } }).updMode .cellar fun d => { d with st := .on }
theorem witness_cellarSpill_noPage : let u := spilling [] 1 0
    let k := u.queue 1048575
    u.isOn .cellar = true ∧ k.spillEn = true ∧ k.spillPages * 4096 < k.depth ∧ 16 ≤ k.tailRooms ∧ 16 * k.spillPages + 16 ≤ k.allRooms ∧
      u.findPage (u.queuePart 1048575) 1048575 = none := by decide +kernel
theorem witness_cellarSpill : let u := spilling [] 1 1
    let k := u.queue 1048575
    let part := u.queuePart 1048575
    u.isOn .cellar = true ∧ k.spillEn = true ∧ k.spillPages * 4096 < k.depth ∧ 16 ≤ k.tailRooms ∧ 16 * k.spillPages + 16 ≤ k.allRooms ∧
      u.findPage part 1048575 = some 0 ∧ u.trafficFits part 0 32768 = true ∧ u.pullBefore part none = false ∧
      u.spillsNow part 1048575 = true := by
  refine ⟨by decide +kernel, by decide +kernel, by decide +kernel, by decide +kernel, by decide +kernel, ?_, by decide +kernel,
    by decide +kernel, by decide +kernel⟩
  unfold State.findPage
  rw [show (spilling [] 1 1).pageOrder ((spilling [] 1 1).queuePart 1048575) 1048575 = [0] by decide +kernel]
  simp only [List.findSome?_cons, List.findSome?_nil, show (spilling [] 1 1).inn.spillRows.get 0 0 = 1 by decide +kernel]
  rw [Nat.min_eq_left (Nat.le_add_left 1 _)]
  simp only [firstUnused, Nat.mod_one, show (spilling [] 1 1).pageUsed ((0 + 0) * 8 + 0) = false by decide +kernel]
  rfl
theorem witness_pullBack_stalled : let u := spilling [(0, 32)] 0 1
    let k := u.queue 1048575
    k.cpages = [(0, 32)] ∧ k.hRooms < 16 * k.pullAheadActs ∧ u.pullShort (u.pullNeeds k 32) ≠ [] ∧ k.pullStalled = false := by
  decide +kernel
theorem witness_pullBack_stalledStill : let u := (spilling [(0, 32)] 0 1).updQueue 1048575 fun q => { q with pullStalled := true }
    let k := u.queue 1048575
    k.cpages = [(0, 32)] ∧ k.hRooms < 16 * k.pullAheadActs ∧ u.pullShort (u.pullNeeds k 32) ≠ [] ∧ k.pullStalled = true := by
  decide +kernel
theorem witness_pullBack_later : let u := { spilling [(0, 32)] 1 1 with inn :=
      { (spilling [(0, 32)] 1 1).inn with traffic := [(0, 0, 1, 1875000)] } }
    let k := u.queue 1048575
    k.cpages = [(0, 32)] ∧ k.hRooms < 16 * k.pullAheadActs ∧ u.pullShort (u.pullNeeds k 32) = [] ∧
      u.trafficFits (u.queuePart 1048575) 1 32768 = false := by decide +kernel
theorem witness_pullBack : let u := spilling [(0, 32)] 1 1
    let k := u.queue 1048575
    let part := u.queuePart 1048575
    k.cpages = [(0, 32)] ∧ k.hRooms < 16 * k.pullAheadActs ∧ u.pullShort (u.pullNeeds k 32) = [] ∧ u.trafficFits part 1 32768 = true ∧
      u.pullBefore part (some k) = false := by decide +kernel
theorem witness_pullBack_nothing : (State.reset.queue 0).cpages = [] := by decide +kernel

theorem witness_memTrain : ∃ a : Accepted memTrainSpec, bits a.x 0 8 = 0x80 ∧ (a.t.mode .cellar).st = .off :=
  ⟨plain _ (sent 0x800 8 0x80 0) (descOf 0x800 8 0x80 0) 8 0x80 (by decide +kernel), by decide +kernel⟩
theorem witness_memTrainDone : let u := (hosted 1).updRing 0 63 fun g =>
      { g with running := some { desc := descOf 0x800 8 0x80 0, seq := 0, wait := .memTrain 0x80 } }
    u.waitOf 0 63 = some (.memTrain 0x80) := by decide +kernel

theorem witness_ledgerClassSet : ∃ a : Accepted ledgerClassSpec, a.x = 2000 * 2 ^ 32 :=
  ⟨plain _ (sent 0x610 8 (2000 * 2 ^ 32) 0) (descOf 0x610 8 (2000 * 2 ^ 32) 0) 8 (2000 * 2 ^ 32) (by decide +kernel), by decide +kernel⟩
theorem witness_ledgerPortSet : ∃ a : Accepted ledgerPortSpec, a.x = 0xC02F :=
  ⟨plain _ (sent 0x611 8 0xC02F 0) (descOf 0x611 8 0xC02F 0) 8 0xC02F (by decide +kernel), by decide +kernel⟩
theorem witness_ledgerQueueSet : ∃ a : Accepted ledgerQueueSpec, a.x = 0xFFFFF ∧ a.t.ledgerQueueOk a.x = true :=
  ⟨plain _ (sent 0x612 16 0xFFFFF 0) (descOf 0x612 16 0xFFFFF 0) 16 0xFFFFF (by decide +kernel), by decide +kernel⟩
theorem witness_ledgerQueueRead : ∃ a : Accepted ledgerReadSpec, a.x = 0xFFFFF :=
  ⟨plain _ (sent 0x613 8 0xFFFFF 24) (descOf 0x613 8 0xFFFFF 24) 8 0xFFFFF (by decide +kernel), by decide +kernel⟩
theorem test_rateReductionRelease_due : let u := State.reset.updQueue 1048575 fun q => { q with held := [(5, 0)] }
    ((u.queue 1048575).held.any fun h => decide (h.2 ≤ u.follower)) = true := by decide +kernel

theorem witness_schedNodeSet : ∃ a : Accepted schedNodeSpec, bits a.x 4 17 = 131071 ∧ bits a.x 24 17 = 16383 ∧ nodeSetOk a.x = true :=
  ⟨plain _ (sent 0x620 24 (3 + 131071 * 16 + 16383 * 2 ^ 24) 0) (descOf 0x620 24 (3 + 131071 * 16 + 16383 * 2 ^ 24) 0) 24
    (3 + 131071 * 16 + 16383 * 2 ^ 24) (by decide +kernel), by decide +kernel⟩
theorem witness_schedQueueSet : ∃ a : Accepted schedQueueSpec, bits a.x 0 20 = 1048575 ∧ schedQueueOk a.x = true :=
  ⟨plain _ (sent 0x621 24 0xFFFFF 0) (descOf 0x621 24 0xFFFFF 0) 24 0xFFFFF (by decide +kernel), by decide +kernel⟩
theorem witness_policerSet : ∃ a : Accepted policerSetSpec, bits a.x 0 21 = 2097151 ∧ policerOk a.x = true :=
  ⟨plain _ (sent 0x622 24 0x21FFFFF 0) (descOf 0x622 24 0x21FFFFF 0) 24 0x21FFFFF (by decide +kernel), by decide +kernel⟩
theorem witness_gateListSet : ∃ a : Accepted gateSetSpec, a.x = 0 ∧ (a.t.gate 0).pending = none :=
  ⟨plain _ (sent 0x623 32 0 0) (descOf 0x623 32 0 0) 32 0 (by decide +kernel), by decide +kernel⟩
theorem witness_gateListStart_none : (State.reset.gate 47).pending = none := by decide +kernel
/-- Port 47 has a pending list, the change `c`. -/
def gateWaits (c : GateChange) : State := State.reset.updGate 47 fun g => { g with pending := some c }
theorem witness_gateListStart_off : let c : GateChange := { new := none, raising := false, passed := 0, bound := 0 }
    let u := gateWaits c
    (u.gate 47).pending = some c ∧ ¬ u.follower < c.start.getD ((u.gate 47).switchAt c) ∧
      (u.gate 47).newStart c (c.start.getD ((u.gate 47).switchAt c)) ≤ u.follower := by decide +kernel
theorem witness_gateListStart_new : let l : GateList := { cycle := 1000, guard := 0, baseNs := 500, entries := [(255, 1000)] }
    let c : GateChange := { new := some l, raising := false, passed := 0, bound := 0 }
    let u := gateWaits c
    (u.gate 47).pending = some c ∧ ¬ u.follower < c.start.getD ((u.gate 47).switchAt c) ∧
      u.follower < (u.gate 47).newStart c (c.start.getD ((u.gate 47).switchAt c)) := by decide +kernel

theorem witness_egressEdit_empty : (State.reset.egress 47).released = [] ∧ (State.reset.egress 47).edited = [] := by decide +kernel
/-- Port 47 has released a frame, and has edited one. -/
def leaving : State :=
  let r : Rel := { pkt := { pp := { length := 64 }, data := List.replicate 64 0 }, queue := 1048575 }
  State.reset.updEgress 47 fun g => { g with released := [r], edited := [{ r with edited := List.replicate 60 0 }] }
theorem witness_egressEdit : ∃ e, (leaving.egress 47).released = [e] := ⟨_, rfl⟩
theorem witness_macTransmit : ∃ e, (leaving.egress 47).edited = [e] := ⟨_, rfl⟩

theorem witness_counterRead : ∃ a : Accepted counterReadSpec, a.t.ctrCheck a.part a.x .read = stOk ∧ ceSet a.x = 0x30 :=
  ⟨plain _ (sent 0xA00 8 0x1000030 16) (descOf 0xA00 8 0x1000030 16) 8 0x1000030 (by decide +kernel), by decide +kernel⟩
theorem witness_counterReadClear : ∃ a : Accepted counterReadClearSpec, a.t.ctrCheck a.part a.x .clear = stOk ∧ ceSet a.x = 0x41 :=
  ⟨plain _ (sent 0xA01 8 0x8000041 72) (descOf 0xA01 8 0x8000041 72) 8 0x8000041 (by decide +kernel), by decide +kernel⟩
theorem witness_counterWrite : ∃ a : Accepted counterWriteSpec, a.t.ctrCheck a.part a.x .write = stOk ∧ bits a.x 64 64 = 5 :=
  ⟨plain _ (sent 0xA02 16 (0x1000001 + 5 * 2 ^ 64) 0) (descOf 0xA02 16 (0x1000001 + 5 * 2 ^ 64) 0) 16 (0x1000001 + 5 * 2 ^ 64) (by decide +kernel),
    by decide +kernel⟩
theorem witness_counterSetCfg : ∃ a : Accepted counterSetCfgSpec, a.x = 0x101 :=
  ⟨plain _ (sent 0xA03 8 0x101 0) (descOf 0xA03 8 0x101 0) 8 0x101 (by decide +kernel), by decide +kernel⟩
theorem witness_perfCfg : ∃ a : Accepted perfCfgSpec, perfCfgOk a.x = true ∧ bits a.x 32 48 = 4096 :=
  ⟨plain _ (sent 0xA10 16 (0x3077700 + 4096 * 2 ^ 32) 0) (descOf 0xA10 16 (0x3077700 + 4096 * 2 ^ 32) 0) 16 (0x3077700 + 4096 * 2 ^ 32) (by decide +kernel),
    by decide +kernel⟩
theorem witness_accumulatorFlush : ∃ e n, ctrKind 0x30 7 = some (e, n) ∧ 4 < n ∧ 7 % 2 ^ 24 < e.count ∧ unbacked 0x30 7 4 = false := by
  exact ⟨_, _, rfl, by decide +kernel⟩
theorem test_accumulatorFlush_full : let u : State := (State.reset.setCtr 1 0 0 { backing := max64, acc := 1 })
    let u := { u with tele := { u.tele with saturate := u.tele.saturate.put false 2 true } }
    u.satMode 1 (u.ctrPart 1 0) = true ∧ max64 < (u.ctr 1 0 0).backing + (u.ctr 1 0 0).acc := by decide +kernel

theorem witness_writeReg_none : State.reset.writeRow 0 0x03800000 0 = none ∧ blockOf 0x03800000 = 0x38 := by decide +kernel
theorem witness_writeReg_group : State.reset.writeRow 0 0x00200000 0 = none ∧ State.reset.ownsReg 0 0x00200000 = true ∧
    (State.reset.chip.d2dDown && fDieBlock 0x00200000) = false ∧ blockOf 0x00200000 = 2 ∧ guardedGroup 0x00200000 = some 0 := by
  decide +kernel
theorem witness_writeReg_barred : let s := State.reset.updMode .twin fun d => { d with st := .on }
    s.writeRow 0 0x02C00000 0 = none ∧ s.ownsReg 0 0x02C00000 = true ∧ blockOf 0x02C00000 = 0x2C ∧ guardedGroup 0x02C00000 = none ∧
      s.writeBarred 0x02C00000 = true := by decide +kernel

theorem witness_storeReg : ∃ r, regRow 0x03400008 = some r ∧ r.w1c = 3 := ⟨_, rfl, rfl⟩

theorem witness_timeAdjust : ∃ a : Accepted timeAdjustSpec, a.x = 2 ∧ a.part = 0 :=
  ⟨plain _ (sent 0x900 24 2 0) (descOf 0x900 24 2 0) 24 2 (by decide +kernel), by decide +kernel⟩
theorem witness_tsRead : ∃ a : Accepted tsReadSpec, a.x = 0x2003 :=
  ⟨plain _ (sent 0x901 8 0x2003 512) (descOf 0x901 8 0x2003 512) 8 0x2003 (by decide +kernel), by decide +kernel⟩
theorem witness_timeLatch : (hosted 1).hostUp = true := by decide +kernel
theorem witness_stepActivation : let u := State.reset.decideStep 0 (-5) none none
    State.reset.time.steps = [] ∧ ∃ o, u.time.steps = [o] := ⟨by decide +kernel, _, rfl⟩
theorem witness_ppsCorrection : let u : State := { State.reset with time := { State.reset.time with corr := some (-3, 0) } }
    State.reset.time.corr = none ∧ u.time.corr = some (-3, 0) := by decide +kernel

theorem witness_lockGainStart : (State.reset.updTwin fun t => { t with lockGain := some 0 }).twin.lockGain = some 0 := by decide +kernel
theorem witness_twinClaim : ∃ a : Accepted twinClaimSpec, a.x = 0xFF := by
  obtain ⟨a, n, hx, hi, hs, hp, ht⟩ := accepted_keyed twinClaimSpec (keyed (hosted 2)) (List.replicate 32 2)
    (BitVec.ofNat 512 (rawOf 0x710 8 0xFF 0 + 2 ^ 16)) 8 0xFF (by decide +kernel) rfl (fun _ => rfl) (fun _ _ => Nat.zero_le _)
    (fun _ _ => rfl)
  exact ⟨a, hx⟩
theorem witness_twinRelease : Nonempty (Accepted twinReleaseSpec) := by
  obtain ⟨a, n, hx, hi, hs, hp, ht⟩ := accepted_keyed twinReleaseSpec (keyed (hosted 2)) (List.replicate 32 2)
    (BitVec.ofNat 512 (rawOf 0x711 0 0 0 + 2 ^ 16)) 0 0 (by decide +kernel) rfl (fun _ => rfl) (fun _ _ => Nat.zero_le _)
    (fun _ _ => rfl)
  exact ⟨a⟩

theorem witness_divergeTimeout : let u := State.reset.updClaim 1 fun c => { c with diffSince := some 0 }
    (State.reset.claim 1).diffSince = none ∧ (u.claim 1).diffSince = some 0 := by decide +kernel
theorem witness_twinFwdSet : ∃ a : Accepted twinFwdSpec, bits a.x 0 48 = 2 ^ 47 ∧ bits a.x 48 16 = 0 :=
  ⟨plain _ (sent 0x712 8 (2 ^ 47) 0) (descOf 0x712 8 (2 ^ 47) 0) 8 (2 ^ 47) (by decide +kernel), by decide +kernel⟩
theorem witness_twinDigestRead : Nonempty (Accepted twinDigestSpec) :=
  ⟨plain _ (sent 0x713 0 0 64) (descOf 0x713 0 0 64) 0 0 (by decide +kernel)⟩
theorem witness_nwLoad : ∃ a : Accepted nwLoadSpec, a.x = 0 :=
  ⟨plain _ (sent 0x714 8 0 0) (descOf 0x714 8 0 0) 8 0 (by decide +kernel), by decide +kernel⟩
/-- TWIN is ON and PAIRED; partition A leads, and port 0 has the history `h`. -/
def pairedWith (p : Port) (num : Nat) : State :=
  (((State.reset.updMode .twin fun d => { d with st := .on }).updTwin fun t => { t with pair := 2, a := { t.a with num := num } }).updPort 0 fun _ => p)
theorem witness_seqSampleSend : let u := (pairedWith { seqHist := [(64, 1, 2, 0)] } 1).pass 3000000
    (State.reset.paired = false) ∧ u.paired = true ∧ u.leads (u.portPart 0) = true ∧ u.portExists 0 = true ∧
      (u.port 0).sampleAt + cycMs ≤ u.cyc ∧ (u.port 0).sample u.cyc = none := by decide +kernel
theorem witness_seqSampleDecide : ((pairedWith { samples := [(64, 1, 2, 0)] } 0).port 0).samples = [(64, 1, 2, 0)] := by decide +kernel
theorem witness_seqSampleSend_due : let u := (pairedWith { seqHist := [(64, 1, 2, 2999999)] } 1).pass 3000000
    (u.port 0).sample u.cyc = some (64, 1, 2, 2999999) := by decide +kernel
theorem witness_dedupWindowAge : let u : State := { State.reset with twin := { State.reset.twin with windows := [(windowKey 255 255 1, ⟨0, 0, 0⟩)] } }
    State.reset.twin.windows.find? (windowKey 255 255 1) = none ∧ u.twin.windows.find? (windowKey 255 255 1) = some ⟨0, 0, 0⟩ := by decide +kernel

theorem witness_pcieLinkTrained : State.reset.chip.porst = true ∧ State.reset.chip.sysrst = true ∧ State.reset.chip.thermal.st ≠ 2 ∧
    ((3 : Nat) = 1 ∨ (3 : Nat) = 2 ∨ (3 : Nat) = 3) ∧ ((16 : Nat) = 4 ∨ (16 : Nat) = 8 ∨ (16 : Nat) = 16) := by decide
theorem witness_pcieLinkTrained_unsupported : ¬ ((3 : Nat) = 1 ∨ (3 : Nat) = 2 ∨ (3 : Nat) = 3) ∨
    ¬ ((2 : Nat) = 4 ∨ (2 : Nat) = 8 ∨ (2 : Nat) = 16) := by decide
theorem witness_busMasterEnable (r : Nat) : (State.reset.ring 0 r).held = [] ∧ (State.reset.ring 0 r).heldEvts = [] ∧
    (State.reset.ring 0 r).discard = none ∧ (State.reset.ring 0 r).fetched = [] := ⟨rfl, rfl, rfl, rfl⟩
theorem witness_msixTableWrite :
    let s := (hosted 1).updFunc 0 fun p => { p with msix := [(255, { pending := true })] }
    (4092 : Nat) % 16 = 12 ∧ (0 : Word32).getLsbD 0 = false ∧ ((s.func 0).msix.get {} (4092 / 16)).pending = true ∧
      s.hostUp = true ∧ s.canWrite 0 = true := by decide +kernel
theorem witness_versionOffer : (hosted 1).hostUp = true ∧ ((hosted 1).func 0).idle = true := by decide +kernel
theorem witness_versionOffer_enabled : ((ringWith (hosted 1) (descOf 1 0 0 0)).func 0).idle = false := by decide +kernel
theorem witness_badAccess : (hosted 1).hostUp = true ∧ (hosted 1).serves 0 = true := by decide +kernel

/-- Ring record `r` of PF0 RUNNING with 64 entries. -/
def ringOn (r : Nat) (f : Ring → Ring) : State := (hosted 1).updRing 0 r fun g => f { g with st := .running }

theorem witness_commandDoorbell : let s := ringOn 63 id
    let g := s.ring 0 63
    s.doorbellLive 0 = true ∧ (g.st = .running ∨ g.st = .fenced) ∧ (64#64).toNat < 2 ^ 32 ∧ g.producerOk (64#64).toNat = true ∧
      g.fetchStop = false ∧ g.newly (64#64).toNat ≤ (List.replicate 64 (1#512)).length := by decide +kernel
theorem witness_commandDoorbell_bad : let s := ringOn 63 id
    let g := s.ring 0 63
    s.doorbellLive 0 = true ∧ (g.st = .running ∨ g.st = .fenced) ∧ (2 ^ 32 ≤ (65#64).toNat ∨ g.producerOk (65#64).toNat = false) := by
  decide +kernel
theorem witness_commandDoorbell_disabled : (State.reset.ring 0 0).st = .disabled ∨ (State.reset.ring 0 0).st = .stopping := by decide
theorem witness_completionDoorbell : let s := ringOn 64 fun g => { g with devIndex := 1 }
    let g := s.ring 0 (compRing 0)
    s.doorbellLive 0 = true ∧ g.st ≠ .disabled ∧ (1#64).toNat < 2 ^ 32 ∧ g.consumerOk (1#64).toNat = true := by decide +kernel
theorem witness_eventDoorbell : let s := ringOn 143 fun g => { g with devIndex := 1 }
    let g := s.ring 0 (evtRing 15)
    s.doorbellLive 0 = true ∧ g.st ≠ .disabled ∧ (1#64).toNat < 2 ^ 32 ∧ g.consumerOk (1#64).toNat = true := by decide +kernel
theorem witness_puntDoorbell : let s := ringOn 175 id
    let g := s.ring 0 (144 + 31)
    s.doorbellLive 0 = true ∧ g.st ≠ .disabled ∧ (1#64).toNat < 2 ^ 32 ∧ g.producerOk (1#64).toNat = true ∧ g.fetchStop = false ∧
      g.newly (1#64).toNat ≤ [0x1000#128].length := by decide +kernel
theorem witness_injectDoorbell : let s := ringOn 207 id
    let g := s.ring 0 (176 + 31)
    s.doorbellLive 0 = true ∧ g.st ≠ .disabled ∧ (1#64).toNat < 2 ^ 32 ∧ g.producerOk (1#64).toNat = true ∧ g.fetchStop = false ∧
      g.newly (1#64).toNat ≤ [0x1000#256].length := by decide +kernel

theorem witness_ringEnable : (hosted 1).hostUp = true ∧ (hosted 1).serves 0 = true ∧ ((hosted 1).ring 0 64).st = .disabled ∧
    (0x61 : Word32).getLsbD 0 = true ∧ ¬ (128 ≤ 64 ∧ 64 < 144) := by decide +kernel
theorem witness_ringDisable_event : let s := ringOn 128 id
    s.hostUp = true ∧ s.serves 0 = true ∧ (s.ring 0 128).st ≠ .disabled ∧ (0x60 : Word32).getLsbD 0 = false ∧ 128 ≤ 128 := by
  decide +kernel
theorem witness_ringDisable_command : let s := ringOn 63 id
    s.hostUp = true ∧ s.serves 0 = true ∧ (s.ring 0 63).st = .running ∧ (0x60 : Word32).getLsbD 0 = false ∧ 63 < 64 := by decide +kernel
theorem witness_ringDisable_completion : let s := (ringOn 127 id).updRing 0 63 fun g => { g with st := .running }
    s.hostUp = true ∧ s.serves 0 = true ∧ (s.ring 0 127).st ≠ .disabled ∧ (0x60 : Word32).getLsbD 0 = false ∧ 64 ≤ 127 ∧ 127 < 128 ∧
      (s.ring 0 (127 - 64)).st ≠ .disabled := by decide +kernel
theorem witness_commandRingStopped : let s := ringOn 0 fun g => { g with st := .stopping }
    (s.ring 0 0).st = .stopping ∧ (s.ring 0 0).running = none ∧ (s.ring 0 0).fetched = [] ∧ (s.ring 0 0).partialDesc = none ∧
      (s.ring 0 (compRing 0)).held = [] := by decide +kernel
theorem witness_interruptModerationExpiry : let s := ringOn 64 fun g => { g with unsignalled := some 0, modUs := 255 }
    (s.ring 0 64).unsignalled = some 0 ∧ 0 + (s.ring 0 64).modUs * cycUs ≤ s.cyc + 255 * 800 := by decide +kernel
theorem witness_progressReport : ∃ (s : State) (run : Running), (s.ring 0 0).running = some run ∧ s.reports run.wait = true :=
  ⟨ringOn 0 fun g => { g with running := some { desc := descOf 0x100 8 0 0, seq := 0, wait := .capacity } }, _, rfl, rfl⟩

theorem witness_keyInstall : ∃ a : Accepted keyInstallSpec, bits a.x 3 61 = 0 ∧ bits a.x 0 3 = a.d.keySlot := by
  obtain ⟨a, n, hx, hi, hk, hp, ht⟩ := accepted_keyed keyInstallSpec (keyed (hosted 2)) (keyed (hosted 2)).installKey
    (BitVec.ofNat 512 (rawOf 0x10 48 0 0 + 2 ^ 16)) 48 0 (by decide +kernel) rfl (fun _ => rfl) (fun _ _ => Nat.zero_le _)
    (fun _ _ => rfl)
  exact ⟨a, by rw [hx]; rfl, by rw [hx, hk]; rfl⟩
theorem witness_keyInstall_otherSlot : ∃ a : Accepted keyInstallSpec, bits a.x 0 3 ≠ a.d.keySlot := by
  obtain ⟨a, n, hx, hi, hk, hp, ht⟩ := accepted_keyed keyInstallSpec (keyed (hosted 2)) (keyed (hosted 2)).installKey
    (BitVec.ofNat 512 (rawOf 0x10 48 7 0 + 2 ^ 16)) 48 7 (by decide +kernel) rfl (fun _ => rfl) (fun _ _ => Nat.zero_le _)
    (fun _ _ => rfl)
  exact ⟨a, by rw [hx, hk]; decide⟩
theorem witness_keyClear : ∃ a : Accepted keyClearSpec, bits a.x 3 61 = 0 ∧ bits a.x 0 3 = a.d.keySlot := by
  obtain ⟨a, n, hx, hi, hk, hp, ht⟩ := accepted_keyed keyClearSpec (keyed (hosted 2)) (keyed (hosted 2)).installKey
    (BitVec.ofNat 512 (rawOf 0x11 8 0 0 + 2 ^ 16)) 8 0 (by decide +kernel) rfl (fun _ => rfl) (fun _ _ => Nat.zero_le _)
    (fun _ _ => rfl)
  exact ⟨a, by rw [hx]; rfl, by rw [hx, hk]; rfl⟩
theorem witness_authPolicy : ∃ a : Accepted authPolicySpec, bits a.x 1 63 = 0 := by
  obtain ⟨a, n, hx, hi, hk, hp, ht⟩ := accepted_keyed authPolicySpec (keyed (hosted 2)) (List.replicate 32 2)
    (BitVec.ofNat 512 (rawOf 0x12 8 1 0 + 2 ^ 16)) 8 1 (by decide +kernel) rfl (fun _ => rfl) (fun _ _ => Nat.zero_le _)
    (fun _ _ => rfl)
  exact ⟨a, by rw [hx]; rfl⟩
theorem witness_fenceClear_running : ∃ a : Accepted fenceClearSpec, bits a.x 16 48 = 0 ∧ (a.t.ring a.i.fn a.i.ring).st ≠ .fenced :=
  ⟨plain _ (ringWith (hosted 1) (descOf 3 8 0xFFFF 0)) (descOf 3 8 0xFFFF 0) 8 0xFFFF (by decide +kernel), by decide +kernel⟩
theorem witness_fenceClear_seen : ∃ a : Accepted fenceClearSpec, bits a.x 16 48 = 0 ∧ (a.t.ring a.i.fn a.i.ring).st = .fenced ∧
    bits a.x 0 16 = (a.t.ring a.i.fn a.i.ring).fenceSeq :=
  ⟨plain _ ((ringWith (hosted 1) (descOf 3 8 5 0)).updRing 0 0 fun g => { g with st := .fenced, fenceSeq := 5 }) (descOf 3 8 5 0) 8 5
    (by decide +kernel), by decide +kernel⟩
theorem witness_fenceClear_unseen : ∃ a : Accepted fenceClearSpec, bits a.x 16 48 = 0 ∧ (a.t.ring a.i.fn a.i.ring).st = .fenced ∧
    bits a.x 0 16 ≠ (a.t.ring a.i.fn a.i.ring).fenceSeq :=
  ⟨plain _ ((ringWith (hosted 1) (descOf 3 8 5 0)).updRing 0 0 fun g => { g with st := .fenced, fenceSeq := 6 }) (descOf 3 8 5 0) 8 5
    (by decide +kernel), by decide +kernel⟩

theorem witness_nop : Nonempty (Accepted nopSpec) :=
  ⟨plain _ (ringWith (hosted 1) (descOf 1 0 0 0)) (descOf 1 0 0 0) 0 0 (by decide +kernel)⟩
theorem witness_abort_refused : ∃ a : Accepted abortSpec, bits a.x 4 4 ≠ 0 ∨ bits a.x 16 48 ≠ 0 ∨ 9 ≤ bits a.x 0 4 ∨
    64 ≤ bits a.x 8 8 ∨ (bits a.x 0 4 = 0 ∧ bits a.x 8 8 = a.i.ring) :=
  ⟨plain _ (ringWith (hosted 1) (descOf 2 8 0 0)) (descOf 2 8 0 0) 8 0 (by decide +kernel), by decide +kernel⟩
theorem witness_abort_eventRing : ∃ a : Accepted abortSpec, bits a.x 4 4 = 0 ∧ bits a.x 16 48 = 0 ∧ a.t.partOn = false ∧
    bits a.x 0 4 = 3 ∧ bits a.x 8 8 = 15 :=
  ⟨plain _ (ringWith (hosted 1) (descOf 2 8 0xF03 0)) (descOf 2 8 0xF03 0) 8 0xF03 (by decide +kernel), by decide +kernel⟩
theorem witness_abort_puntRing : ∃ a : Accepted abortSpec, bits a.x 4 4 = 0 ∧ bits a.x 16 48 = 0 ∧ a.t.partOn = false ∧
    bits a.x 0 4 = 1 ∧ bits a.x 8 8 = 31 :=
  ⟨plain _ (ringWith (hosted 1) (descOf 2 8 0x1F01 0)) (descOf 2 8 0x1F01 0) 8 0x1F01 (by decide +kernel), by decide +kernel⟩
theorem witness_abort_commandRing : ∃ a : Accepted abortSpec, bits a.x 0 8 = 0 ∧ bits a.x 16 48 = 0 ∧ a.t.partOn = false ∧
    bits a.x 8 8 = 63 ∧ bits a.x 8 8 ≠ a.i.ring :=
  ⟨plain _ (ringWith (hosted 1) (descOf 2 8 0x3F00 0)) (descOf 2 8 0x3F00 0) 8 0x3F00 (by decide +kernel), by decide +kernel⟩
theorem witness_abortComplete : let u := (hosted 1).updFunc 0 fun p => { p with abortBusy := some (0, 63) }
    (u.func 0).abortBusy = some (0, 63) ∧ (u.ring 0 63).st ≠ .stopping := by decide +kernel
theorem witness_hifAbort : let u := hosted 1
    u.hostUp = true ∧ u.serves 0 = true ∧ (u.func 0).abortBusy = none ∧ (0x80000F03 : Word32).getLsbD 31 = true ∧ u.partOn = false ∧
      bits (0x80000F03 : Word32).toNat 0 4 = 3 ∧ bits (0x80000F03 : Word32).toNat 8 8 = 15 := by decide +kernel
theorem witness_hifAbort_busy : let u := (hosted 1).updFunc 0 fun p => { p with abortBusy := some (0, 63) }
    u.hostUp = true ∧ u.serves 0 = true ∧ (u.func 0).abortBusy ≠ none := by decide +kernel
theorem witness_kekBurn : ({ State.reset with chip := { State.reset.chip with sbReady := true } } : State).chip.sbReady = true := rfl
theorem witness_fuseBurnDone : ({ State.reset with sec := { fuseState := 1 } } : State).sec.fuseState = 1 := rfl

theorem witness_groupWrites : let u := hosted 1
    u.hostUp = true ∧ u.serves 0 = true ∧ u.applied = false ∧ u.ownsGroup 0 5 = true ∧ u.chip.d2dDown = false := by decide +kernel
theorem witness_groupWrites_applied : let u := { hosted 1 with modes := { applied := true } }
    u.hostUp = true ∧ u.serves 0 = true ∧ u.applied = true := by decide +kernel
theorem witness_groupStartingDone : let u := State.reset.updGroup 5 fun d => { d with st := .starting }
    (u.group 5).st = .starting ∧ u.groupLit 5 = true := by decide +kernel
theorem witness_groupQuiescingDone : ((State.reset.updGroup 0 fun d => { d with st := .quiescing }).group 0).st = .quiescing := by
  decide +kernel
theorem witness_domainStartingDone : ((State.reset.updDomain 235 fun d => { d with st := .starting }).domain 235).st = .starting ∧
    domKind 235 ≠ .hbm := by decide +kernel
theorem witness_domainQuiescingDone : let u := State.reset.updDomain 208 fun d => { d with st := .quiescing }
    (u.domain 208).st = .quiescing ∧ u.domainHolds 208 = false := by decide +kernel
theorem witness_domainDrainTimeout : let u := (State.reset.updDomain 152 fun d => { d with st := .quiescing }).pass (domainBound 152)
    (u.domain 152).st = .quiescing ∧ (u.domain 152).since + domainBound 152 ≤ u.cyc := by decide +kernel
theorem witness_notYet : (State.reset.group 0).st ≠ .starting ∧ (State.reset.group 0).st ≠ .quiescing ∧
    (State.reset.domain 0).st ≠ .starting ∧ (State.reset.domain 0).st ≠ .quiescing := by decide +kernel

theorem witness_porstNRelease : ({ State.reset with chip := { State.reset.chip with porst := false } } : State).chip.porst = false := rfl
theorem witness_sysrstNAssert : State.reset.chip.sysrst = true ∧ State.reset.chip.porst = true ∧ State.reset.chip.thermal.st ≠ 2 := by
  decide +kernel
theorem witness_sysrstNRelease : let u : State := { State.reset with chip := { State.reset.chip with sysrst := false } }
    u.chip.sysrst = false ∧ u.chip.porst = true ∧ u.chip.thermal.st ≠ 2 := by decide +kernel
theorem witness_sysrst_shutdown : (State.reset.setThermal fun x => { x with st := 2 }).chip.thermal.st = 2 := rfl
theorem witness_clockCheck : let u := State.reset.pass 8000
    u.chip.clkAt + 10 * cycUs ≤ u.cyc ∧ u.chip.porst = true := by decide +kernel
/-- Both dies' sensors read `t`. -/
def allRead (t : Int) : Vector (Option Int) 16 := Vector.replicate 16 (some t)
theorem witness_thermalReading_cool : let u := State.reset.pass 80000
    let v := ((allRead 94).toList ++ (allRead 94).toList).zipIdx.foldl (fun s (r, k) => s.readSensor k r)
      (u.setThermal fun x => { x with readAt := u.cyc })
    let w := v.setThermal fun x =>
      { x with tempF := highest (x.valid 0 (allRead 94).toList) x.tempF, tempT := highest (x.valid 1 (allRead 94).toList) x.tempT }
    let j := max w.chip.thermal.tempF w.chip.thermal.tempT
    u.chip.thermal.st ≠ 2 ∧ u.chip.porst = true ∧ u.chip.thermal.readAt + 100 * cycUs ≤ u.cyc ∧
    w.chip.thermal.valid 0 (allRead 94).toList ≠ [] ∧ w.chip.thermal.blind 0 = false ∧ w.chip.thermal.blind 1 = false ∧ j = 94 ∧
      w.warnC = 95 := by decide +kernel
theorem witness_thermalReading_shutdown : let u := State.reset.pass 80000
    let v := ((allRead 115).toList ++ (allRead 115).toList).zipIdx.foldl (fun s (r, k) => s.readSensor k r)
      (u.setThermal fun x => { x with readAt := u.cyc })
    let w := v.setThermal fun x =>
      { x with tempF := highest (x.valid 0 (allRead 115).toList) x.tempF, tempT := highest (x.valid 1 (allRead 115).toList) x.tempT }
    u.chip.thermal.st ≠ 2 ∧ u.chip.porst = true ∧ u.chip.thermal.readAt + 100 * cycUs ≤ u.cyc ∧
    w.chip.thermal.valid 0 (allRead 115).toList ≠ [] ∧ w.chip.thermal.blind 0 = false ∧ w.chip.thermal.blind 1 = false ∧
      max w.chip.thermal.tempF w.chip.thermal.tempT = 115 := by decide +kernel
theorem witness_thermalReading_blind : let u := ((State.reset.pass 80000).setThermal fun x =>
      { x with excluded := (List.range 32).map fun k => (k, true) })
    u.chip.thermal.st = 0 ∧ u.chip.porst = true ∧ u.chip.thermal.readAt + 100 * cycUs ≤ u.cyc ∧
      ∀ k < 32, u.chip.thermal.excluded.get false k = true := by decide +kernel
theorem witness_throttleRelease : let u := (State.reset.pass 8000000).setThermal fun x => { x with st := 1 }
    u.chip.thermal.st = 1 ∧ u.chip.thermal.stuck = false ∧ u.chip.thermal.hotAt + 10 * cycMs ≤ u.cyc := by decide +kernel
theorem witness_sidebandReady : State.reset.chip.porst = true := rfl
theorem witness_sideband : ({ State.reset with chip := { State.reset.chip with sbReady := true } } : State).chip.sbReady = true ∧
    State.reset.chip.sbReady = false := ⟨rfl, rfl⟩

/-- A power command on PF0's ring 0. -/
def powered (op x resp : Nat) : State := ringWith (hosted 1) (descOf op (if resp = 0 then 8 else 0) x resp)
theorem witness_powerOn_refused : ∃ a : Accepted powerOnSpec, bits a.x 0 2 = 0 ∧ bits a.x 8 8 = 151 :=
  ⟨plain _ (powered 0xB00 (151 * 256) 0) (descOf 0xB00 8 (151 * 256) 0) 8 (151 * 256) (by decide +kernel), by decide +kernel⟩
theorem witness_powerOn_domain : ∃ a : Accepted powerOnSpec, powerOk a.x = true ∧ a.t.partOn = false ∧ bits a.x 0 2 = 0 :=
  ⟨plain _ (powered 0xB00 (235 * 256) 0) (descOf 0xB00 8 (235 * 256) 0) 8 (235 * 256) (by decide +kernel), by decide +kernel⟩
theorem witness_powerOn_group : ∃ a : Accepted powerOnSpec, powerOk a.x = true ∧ a.t.partOn = false ∧ bits a.x 0 2 = 1 :=
  ⟨plain _ (powered 0xB00 (5 * 256 + 1) 0) (descOf 0xB00 8 (5 * 256 + 1) 0) 8 (5 * 256 + 1) (by decide +kernel), by decide +kernel⟩
theorem witness_powerOff : ∀ k ∈ [(0, 152), (1, 0)], ∃ a : Accepted powerOffSpec,
    powerOk a.x = true ∧ a.t.partOn = false ∧ bits a.x 0 2 = k.1 ∧ bits a.x 8 8 = k.2 := by
  intro k hk
  have h : KeyedOk 0 powerOffSpec (keyed (hosted 2)) { raw := BitVec.ofNat 512 (rawOf 0xB01 8 (k.1 + k.2 * 256) 0 + 2 ^ 16) } 8
      (k.1 + k.2 * 256) := by
    simp only [List.mem_cons, List.not_mem_nil, or_false] at hk
    rcases hk with rfl | rfl <;> decide +kernel
  obtain ⟨a, n, hx, hi, hs, hp, ht⟩ := accepted_keyed powerOffSpec (keyed (hosted 2)) (List.replicate 32 2)
    (BitVec.ofNat 512 (rawOf 0xB01 8 (k.1 + k.2 * 256) 0 + 2 ^ 16)) 8 (k.1 + k.2 * 256) h rfl (fun t => by
      simp only [List.mem_cons, List.not_mem_nil, or_false] at hk
      rcases hk with rfl | rfl <;> rfl) (fun _ _ => Nat.zero_le _)
    (fun _ _ => rfl)
  refine ⟨a, ?_, by rw [ht]; rfl, ?_, ?_⟩ <;> rw [hx] <;>
  · simp only [List.mem_cons, List.not_mem_nil, or_false] at hk
    rcases hk with rfl | rfl <;> decide
theorem witness_powerStatusRead : Nonempty (Accepted powerReadSpec) :=
  ⟨plain _ (powered 0xB02 0 64) (descOf 0xB02 0 0 64) 0 0 (by decide +kernel)⟩

/-! ### Conditions that the clauses of a statement divide among themselves -/

theorem witness_modeApply_alreadyApplied : ({ hosted 1 with modes := { applied := true } } : State).applied = true ∧
    ({ hosted 1 with modes := { applied := true } } : State).hostUp = true ∧ ({ hosted 1 with modes := { applied := true } } : State).serves 0 = true := by
  decide +kernel
/-- PARTITION is ON, so PF1 has its own registers. -/
def parted : State := (hosted 1).updMode .partition fun d => { d with st := .on }
theorem witness_modeApply_PF1 : parted.hostUp = true ∧ parted.serves 1 = true := by decide +kernel
theorem witness_setMode_reserved : ∃ a : Accepted setModeSpec, a.i.fn = 0 ∧ a.t.modes.plan = [] ∧ bits a.x 32 32 ≠ 0 := by
  obtain ⟨a, n, hx, hi, hk, hp, ht⟩ := accepted_keyed setModeSpec (keyed (hosted 2)) (List.replicate 32 2)
    (BitVec.ofNat 512 (rawOf 0x100 8 (2 ^ 63) 0 + 2 ^ 16)) 8 (2 ^ 63) (by decide +kernel) rfl (fun _ => rfl) (fun _ _ => Nat.zero_le _)
    (fun _ _ => rfl)
  exact ⟨a, by rw [hi]; rfl, by rw [ht]; rfl, by rw [hx]; decide⟩
theorem witness_partAssign_reserved : ∃ a : Accepted partAssignSpec, bits a.x 6 58 ≠ 0 := by
  obtain ⟨a, n, hx, hi, hk, hp, ht⟩ := accepted_keyed partAssignSpec (keyed (hosted 2)) (List.replicate 32 2)
    (BitVec.ofNat 512 (rawOf 0x101 8 0x40 0 + 2 ^ 16)) 8 0x40 (by decide +kernel) rfl (fun _ => rfl) (fun _ _ => Nat.zero_le _)
    (fun _ _ => rfl)
  exact ⟨a, by rw [hx]; decide⟩
theorem witness_partAssign_waits : ∃ a : Accepted partAssignSpec, bits a.x 6 58 = 0 ∧ a.t.modes.plan ≠ [] := by
  obtain ⟨a, n, hx, hi, hk, hp, ht⟩ := accepted_keyed partAssignSpec (keyed { hosted 2 with modes := { plan := [(.cellar, true)] } })
    (List.replicate 32 2) (BitVec.ofNat 512 (rawOf 0x101 8 0x3F 0 + 2 ^ 16)) 8 0x3F (by decide +kernel) (by decide +kernel) (fun _ => rfl)
    (fun _ _ => Nat.zero_le _) (fun _ _ => rfl)
  exact ⟨a, by rw [hx]; rfl, by rw [ht]; exact List.cons_ne_nil _ _⟩

theorem witness_pcsAligned_notYet : State.reset.lanesAll 73 .rxLock = false := by decide +kernel
theorem witness_laneIdle : let u := (laneIn 151 .pcsUp).updLink 25 fun l => { l with rxIdle := true }
    u.laneIdle 151 = true ∧ 48 ≤ 151 ∧ (u.link 25).rxIdle = true := by decide +kernel

/-- The clients of lane group 0 carry frames. -/
def clientPort (l : List (List Byte × Bool)) : State :=
  (((framed {}).updClient 0 fun c => { c with rxFrames := l }).setClient 0 true)
theorem witness_frameReceived_client : let u := clientPort [([0], true)]
    u.portUp 0 = true ∧ u.chip.d2dDown = false ∧ u.xptGroup 0 = true ∧ (u.client 0).rxFrames = [([0], true)] ∧
      ((clientPort []).client 0).rxFrames = [] ∧ (clientPort []).portUp 0 = true := by decide +kernel
/-- Port 47 has a loopback setting. -/
def loopedPort (k : Nat) : State := upPort.updLane 47 fun l => { l with drive := { l.drive with loopback := k } }
theorem witness_frameReceived_loop : let u := (loopedPort 1).updPort 47 fun t => { t with looped := [[0]] }
    u.portUp 47 = true ∧ u.xptGroup 5 = false ∧ u.loopback 47 = 1 ∧ (u.port 47).looped = [[0]] ∧ ((loopedPort 1).port 47).looped = [] ∧
      (loopedPort 2).loopback 47 = 2 ∧ (loopedPort 2).portUp 47 = true ∧ upPort.loopback 47 = 0 := by decide +kernel
theorem witness_gotFrame : let v := (upPort.countLine 47 {}).takeSeq 47 64 0
    v.rxFlags 47 (List.replicate 64 0) { pcs := true } ≠ 0 ∧ ({ jabber := true } : RxErr).jabber = true ∧
      v.rxFlags 47 (withFcs []) {} = 0 ∧ 18 ≤ (withFcs []).length ∧ (withFcs []).length ≤ 16383 := by decide +kernel
theorem witness_pauseReceived : upPort.portUp 47 = true ∧ upPort.chip.d2dDown = false ∧ upPort.loopback 47 ≠ 1 := by decide +kernel

theorem witness_frameAlign_cases :
    let u := framed { inFrame := true, locked := 5, misses := 3 }
    let hm : NMap Nat := NMap.ins [] 5 255
    (u.level 0).inFrame = true ∧ hm.find? (u.level 0).locked = some 255 ∧ ([] : NMap Nat).find? (u.level 0).locked = none ∧
      (u.level 0).misses < 4 ∧ ((framed {}).level 0).inFrame = false := by decide +kernel

theorem witness_stagingToLanding_policed : ({ sb := { polEn := true } } : Pkt).sb.polEn = true ∧ ({} : Pkt).sb.polEn = false := ⟨rfl, rfl⟩
theorem witness_carryCell : State.reset.switch.xfers.find? (29 * 64 + 33) = none ∧
    ({ State.reset with switch := { xfers := [(29 * 64 + 33, { inp := 29, out := 33, cells := 1, pkt := {} })] } } : State).switch.xfers.find?
      (29 * 64 + 33) = some { inp := 29, out := 33, cells := 1, pkt := {} } := by decide +kernel
theorem witness_capCellReceived_stopped : ({ State.reset with chip := { State.reset.chip with d2dDown := true } } : State).chip.d2dDown = true := rfl

theorem witness_tableWrite_again : ∃ a : Accepted tableWriteSpec, let c := a.s.cmdOf a.i a.d
    let key := tblKey (bits a.x 0 8) (a.t.tableCheck c a.x true false).2
    (a.t.tableCheck c a.x true false).1 = stOk ∧ ((a.t.versions key).getLast?.any fun v => v.birth == (a.t.stageEpoch c).1) = true ∧
      bits a.x 0 8 ≠ 1 :=
  ⟨plain _ (let s := sent 0x400 24 7 0
      { s with lookup := { s.lookup with tabs := [(tblKey 7 0, [{ birth := 1 }])] } }) (descOf 0x400 24 7 0) 24 7 (by decide +kernel),
    by decide +kernel⟩
theorem witness_tableWrite_againTcam : ∃ a : Accepted tableWriteSpec, let c := a.s.cmdOf a.i a.d
    let key := tblKey (bits a.x 0 8) (a.t.tableCheck c a.x true false).2
    (a.t.tableCheck c a.x true false).1 = stOk ∧ ((a.t.versions key).getLast?.any fun v => v.birth == (a.t.stageEpoch c).1) = true ∧
      bits a.x 0 8 = 1 :=
  ⟨plain _ (let s := sent 0x400 56 1 0
      { s with lookup := { s.lookup with tabs := [(tblKey 1 0, [{ birth := 1 }])], bankRows := [(0, [(0, tcamKey 0 0, 1)])] } })
    (descOf 0x400 56 1 0) 56 1 (by decide +kernel), by decide +kernel⟩
theorem witness_epochStall_already : let u := commitWaits true
    (u.ring 0 0).running = some { desc := descOf 0x403 0 0 0, seq := 0, wait := .commit (some 1) 0 (some 0) true } := by decide +kernel

theorem witness_ledgerAdmission_slots : State.reset.evalSlot 7 1048575 = some 0 ∧
    ({ State.reset with tm := { State.reset.tm with evalCyc := 0, evals := [(0, 7, 5)] } } : State).evalSlot 7 1048575 = none := by
  decide +kernel
theorem witness_ledgerAdmission_multicast : mcPkt.pp.kind = kindMulticast ∧ ({} : Pkt).pp.kind ≠ kindMulticast := by decide

theorem witness_macTransmit_ready : let u := leaving.updPort 47 fun q => { q with typ := 1 }
    let v := u.updLanes 47 fun l => { l with st := .pcsUp, typ := 1 }
    v.portUp 47 = true ∧ (v.port 47).remoteFault = false ∧ (v.pickTx 47 (v.egress 47).edited).isSome = true := by decide +kernel
theorem witness_macTransmit_down : leaving.portUp 47 = false ∧ State.reset.pickTx 47 (State.reset.egress 47).edited = none := by
  decide +kernel

theorem witness_readStat : (State.reset.readTwo 0 structStat 0 0 32 2 2).2 = true ∧ (State.reset.readTwo 0 structStat 0 0 32 0 2).2 = false := by
  decide +kernel

theorem witness_writeMw0 : State.reset.partOn = false ∧ parted.partOn = true ∧
    ¬ ((1 : Fin 2) = 0 ∨ State.reset.partOn = true ∨ (0x18 : Nat) = 0 ∨ (0x18 : Nat) = 0x10 ∨ (0x18 : Nat) = 0x14) := by decide +kernel
theorem witness_writeReg_hif : State.reset.writeRow 0 0x18 0 = none ∧ State.reset.writeRow 0 0x4FC 0 = none ∧
    State.reset.writeRow 0 0x29E0 0 = none ∧ State.reset.writeRow 0 0x29E4 0 = none ∧ State.reset.ownsReg 0 0x29E4 = true ∧
    (State.reset.ring 0 207).st = .disabled ∧ 0x29E4 = 0x1004 + 0x20 * 207 := by decide +kernel
theorem witness_writeReg_plain : ∀ a ∈ [0x01C01000, 0x004005E0, 0x00C0203C, 0x02800000], State.reset.writeRow 0 a 0 = none ∧
    State.reset.ownsReg 0 a = true ∧ guardedGroup a = none ∧ State.reset.writeBarred a = false := by decide +kernel
theorem witness_writeReg_stopped : let u : State := { State.reset with chip := { State.reset.chip with d2dDown := true } }
    u.writeRow 0 0x00A00010 0 = none ∧ u.chip.d2dDown = true ∧ [0x02, 0x04, 0x05, 0x08, 0x0A, 0x0C, 0x28].contains (0x00A00010 / 0x100000) = true := by
  decide +kernel
theorem witness_storeReg_none : regRow 0x03FFFFFC = none := by decide +kernel

theorem witness_lanternReceived : let u := pairedWith {} 1
    u.isOn .twin = true ∧ State.reset.isOn .twin = false ∧ bits (0xA5 : BitVec 128).toNat 0 8 = 0xA5 ∧ (u.path false).count ≠ some 0 := by
  decide +kernel
theorem witness_claimWaits : ((State.reset.updClaim 1 fun c => { c with waitEnd := some 0 }).claim 1).waitEnd = some 0 := rfl

theorem witness_ringControl_down : State.reset.hostUp = false := rfl
theorem witness_ringControl_PF1 : let u := { hosted 1 with host := { (hosted 1).host with fns := [(1, { chosen := 1, busMaster := true })] } }
    u.hostUp = true ∧ u.serves 1 = false := by decide +kernel
theorem witness_ringAbort : ((ringOn 0 id).ring 0 0).st = .running ∧ (State.reset.ring 0 0).st ≠ .running ∧
    (State.reset.ring 0 0).st ≠ .fenced ∧ State.reset.runningOn 0 0 = none := by decide +kernel
theorem witness_interruptModeration_none : (State.reset.ring 0 0).unsignalled = none ∧ (State.reset.ring 0 0).running = none := ⟨rfl, rfl⟩
theorem witness_abortAct_group : ((State.reset.updGroup 5 fun d => { d with st := .starting }).group 5).st = .starting ∧
    (State.reset.group 5).st = .off := by decide +kernel

theorem witness_groupWrites_refused : (State.reset).hostUp = false ∧ parted.ownsGroup 0 5 = false ∧ (hosted 1).serves 1 = false := by
  decide +kernel
theorem witness_groupSwitch : (State.reset.group 5).wantsOn = false ∧ ((State.reset.updGroup 5 fun d => { d with todo := [true] }).group 5).todo = [true] ∧
    ((State.reset.updGroup 5 fun d => { d with st := .on, todo := [false] }).group 5).todo = [false] ∧ (State.reset.group 5).todo = [] := by
  decide +kernel
theorem witness_domainStartingDone_hbm : (State.reset.domain 199).st = .starting ∧ domKind 199 = .hbm := by decide +kernel

/-- Bank 0 holds a row whose VALUE and MASK are 0: every key byte matches it. -/
def mapped : State :=
  let s : State := { State.reset with lookup := { State.reset.lookup with
      bankRows := [(0, [(5, tcamKey 0 0, 1)])], tabs := [(tcamKey 0 0, [{ birth := 1, data := 7 }])] } }
  s.remapBank 0
theorem witness_prefilter_row : (5, tcamKey 0 0, 1) ∈ mapped.lookup.bankRows.get [] 0 ∧ 9 < keyBytes (mapped.bankWidth 0) ∧
    (255 : Nat) &&& bits (recMask (mapped.rowRecord (5, tcamKey 0 0, 1)) 0) 72 8 =
      bits (recValue (mapped.rowRecord (5, tcamKey 0 0, 1)) 0) 72 8 &&& bits (recMask (mapped.rowRecord (5, tcamKey 0 0, 1)) 0) 72 8 ∧
    bit (mapped.blockMap 0 0 9) 255 = true := by decide +kernel
theorem witness_prefilter_covers : ∀ r ∈ mapped.lookup.bankRows.get [] 0, ∀ x ∈ mapped.versions r.2.1, x.birth = r.2.2 →
    ∀ j < keyBytes (mapped.bankWidth 0), ∀ v < 256,
      v &&& bits (recMask x.data (mapped.bankWidth 0)) (8 * j) 8 =
        bits (recValue x.data (mapped.bankWidth 0)) (8 * j) 8 &&& bits (recMask x.data (mapped.bankWidth 0)) (8 * j) 8 →
      bit (mapped.blockMap 0 (mapped.rowBlock 0 r.1) j) v = true := by decide +kernel
theorem witness_rows_apart : dramOf 2 2 2 true (2 ^ 38 - 1) = dramOf 2 2 2 true (2 ^ 38 - 2) ∧
    dramOf 2 2 2 true (2 ^ 21) ≠ dramOf 2 2 2 true 0 ∧ hbmOf (2 ^ 31 - 1) = hbmOf (2 ^ 31 - 1024) := by decide +kernel

theorem witness_place : ([[0], [1]] : List (List Byte))[1]? = some [1] ∧ [[0], [1]].length ≤ ({ devIndex := 2 } : Ring).devIndex ∧
    ({ devIndex := 2 } : Ring).log2 ≤ 16 := by decide

/-! ### Algorithms, against the vectors of the standards that the spec names -/

def hexBytes (n x : Nat) : List Byte := (leBytes n x).reverse

/-- CRC-32 and CRC-32C of "123456789"; CRC-8 and CRC-16/CCITT-FALSE of it (the catalogue's check values). -/
theorem test_crcs : fcs32 ((List.range 9).map fun k => BitVec.ofNat 8 (0x31 + k)) = 0xCBF43926 ∧
    crc32c 0xFFFFFFFF ((List.range 9).map fun k => BitVec.ofNat 8 (0x31 + k)) = 0xE3069283 ∧
    crc8 ((List.range 9).map fun k => BitVec.ofNat 8 (0x31 + k)) = 0xF4 ∧
    crc16 ((List.range 9).map fun k => BitVec.ofNat 8 (0x31 + k)) = 0x29B1 := by decide +kernel
/-- FIPS 197, C.3. -/
theorem test_aes : aesEnc ((List.range 32).map (BitVec.ofNat 8)) (hexBytes 16 0x00112233445566778899aabbccddeeff)
    = hexBytes 16 0x8ea2b7ca516745bfeafc49904b496089 := by decide +kernel
/-- SP 800-38B, D.3: the empty message. -/
theorem test_cmac : cmac (hexBytes 32 0x603deb1015ca71be2b73aef0857d77811f352c073b6108d72d9810a30914dff4) []
      = hexBytes 16 0x028962f61b7bf89efc6b551f4667d983 := by decide +kernel
/-- FIPS 180-4: "abc". -/
theorem test_sha : sha256 (hexBytes 3 0x616263) = hexBytes 32 0xba7816bf8f01cfea414140de5dae2223b00361a396177a9cb410ff61f20015ad := by
  decide +kernel

/-! ### The worked example of R284 -/

/-- The policer of the example after `n` packets of 1,500 bytes, one every 120 ns, with the last packet's colour. -/
def policed : Nat → Policer × Nat
  | 0 => ({ mode := 3, cir := 1000000, pir := 2000000, cbs := 10000, ebs := 20000, tc := 10000 * 1024, te := 20000 * 1024 }, 0)
  | n + 1 => ((policed n).1.fill (96 * n)).decide 0 1500
theorem test_policer : [1, 6, 7, 13, 14].map (fun n => ((policed n).2, (policed n).1.tc / 1024, (policed n).1.te / 1024))
    = [(0, 8500, 18500), (0, 1075, 11150), (1, 1090, 9680), (1, 1180, 860), (2, 1195, 890)] := by decide +kernel

/-! ### Operands that no interface can carry -/

theorem test_wellFormed_window : (Instr.registerWrite 0 0 0x20 1 none).wellFormed = true ∧
    (Instr.registerWrite 0 0 0x22 1 none).wellFormed = false ∧ (Instr.registerWrite 0 0 0x800000 1 none).wellFormed = false ∧
    (Instr.registerWrite 0 0 0x24 1 (some 2)).wellFormed = false ∧ (Instr.mw0BadAccess 0 0 0x20 4 true).wellFormed = false ∧
    (Instr.mw0BadAccess 0 0 0x20 8 true).wellFormed = false ∧ (Instr.mw0BadAccess 0 0 0x800000 2 true).wellFormed = false ∧
    (Instr.mw2BadWrite 0 0 0x1000 8).wellFormed = false ∧ (Instr.mw2BadWrite 0 0 0x100000 8).wellFormed = false ∧
    (Instr.msixTableWrite 0 0 3 0).wellFormed = false := by decide
theorem test_wellFormed_rings : (Instr.ringEnable 0 0 0 0).wellFormed = false ∧ (Instr.ringDisable 0 0 0 1).wellFormed = false ∧
    (Instr.hifAbortGo 0 0 5).wellFormed = false ∧ (Instr.abortComplete 0 0 9 0).wellFormed = false ∧
    (Instr.abortComplete 0 0 4 1).wellFormed = false ∧ (Instr.memTrainDone 0 0 0 256).wellFormed = false := by decide
theorem test_wellFormed_long (l : List Byte) (h : 1048576 < l.length) : (Instr.nop { payload := some l }).wellFormed = false ∧
    (Instr.frameReceived 0 0 l {}).wellFormed = false ∧ (Instr.injectFrameRead 0 0 0 (some l)).wellFormed = false := by
  have h1 : decide (l.length ≤ 1048576) = false := decide_eq_false (by omega)
  have h2 : decide (l.length ≤ 16383) = false := decide_eq_false (by omega)
  have h3 : decide (l.length ≤ 16415) = false := decide_eq_false (by omega)
  exact ⟨h1, by show (decide (l.length ≤ 16383) && _) = false; rw [h2]; rfl, h3⟩
theorem test_wellFormed_entries (a : List (BitVec 512)) (b : List (BitVec 128)) (c : List (BitVec 256)) (ha : 65536 < a.length)
    (hb : 65536 < b.length) (hc : 65536 < c.length) : (Instr.commandDoorbell 0 0 0 0 a).wellFormed = false ∧
    (Instr.puntDoorbell 0 0 0 0 b).wellFormed = false ∧ (Instr.injectDoorbell 0 0 0 0 c).wellFormed = false :=
  ⟨decide_eq_false (by omega), decide_eq_false (by omega), decide_eq_false (by omega)⟩
theorem test_wellFormed_frames : (Instr.frameReceived 0 0 [] { symErrs := List.replicate 9 0 }).wellFormed = false ∧
    (Instr.frameReceived 0 0 [] { poison := 2048 }).wellFormed = false ∧ (Instr.frameReceived 0 0 [] { tcamBad := some (12, 0) }).wellFormed = false ∧
    (Instr.frameReceived 0 0 [] { tcamBad := some (0, 16384) }).wellFormed = false ∧ (Instr.dataCellReceived 0 0 [0] {}).wellFormed = false ∧
    (Instr.dataCellReceived 0 0 (List.replicate 64 0) { symErrs := [0, 0, 0, 0, 0] }).wellFormed = false ∧
    (Instr.idleOrCreditCellReceived 0 0 1 65536).wellFormed = false ∧
    (Instr.idleOrCreditCellReceived 0 0 0 1).wellFormed = false := by decide
theorem test_wellFormed_transport : (Instr.frameAlignCheck 0 0 [(5, 0), (5, 1)]).wellFormed = false ∧
    (Instr.frameAlignCheck 0 0 [(5, 256)]).wellFormed = false ∧ (Instr.transportFrameReceived 0 { group := 0, layer := 0, index := 0 }).wellFormed = false ∧
    (Instr.transportFrameReceived 0 { group := 0, layer := 8, index := 0 }).wellFormed = false ∧
    (Instr.transportFrameReceived 0 { group := 0, layer := 1, index := 8192 }).wellFormed = false ∧
    (Instr.transportFrameReceived 0 { group := 0, layer := 1, index := 0, status := 8 }).wellFormed = false ∧
    (Instr.transportFrameReceived 0 { group := 0, layer := 1, index := 0, ptr := 65536 }).wellFormed = false ∧
    (Instr.transportFrameReceived 0 { group := 0, layer := 1, index := 0, gmpJc := [0] }).wellFormed = false ∧
    (Instr.transportFrameSend 0 0 0 0).wellFormed = false ∧ (Instr.transportFrameSend 0 0 8 0).wellFormed = false ∧
    (Instr.transportFrameSend 0 0 1 8192).wellFormed = false := by decide
theorem test_wellFormed_twin : (Instr.lanternReceived 0 true (2 ^ 112)).wellFormed = false ∧
    (Instr.lanternReceived 0 false (2 ^ 112)).wellFormed = true ∧ (Instr.syncReceived 0 (List.replicate 103 0)).wellFormed = false ∧
    (Instr.syncReceived 0 (List.replicate 104 0)).wellFormed = true ∧ (Instr.seqSampleReceived 0 48 0 0 0).wellFormed = true := by
  decide +kernel
theorem test_wellFormed_rest : (Instr.memScrubRead 0 0 0 0 0).wellFormed = false ∧ (Instr.memScrubRead 0 0 0 16 0).wellFormed = false ∧
    (Instr.accumulatorFlush 0 256 0 0 (0, 0)).wellFormed = false ∧ (Instr.accumulatorFlush 0 0 (2 ^ 28) 0 (0, 0)).wellFormed = false ∧
    (Instr.accumulatorFlush 0 0 0 256 (0, 0)).wellFormed = false ∧ (Instr.pcieLinkTrained 0 4 16).wellFormed = false ∧
    (Instr.pcieLinkTrained 0 3 2).wellFormed = false := by decide +kernel

end Sys2Proof.Tests
end

section
/-! PROOF. O2: no command faults and none is refused. -/

namespace Sys2Proof.Machine

/-- Every command answers a next state; it leaves the queue, moves the fuses only forward and keeps legal codes legal: the
lemma of its own row says so. -/
theorem exec_sound : ∀ (c : Instr) (s : State), Sound s (exec c s)
  | .registerWrite .., _ => execRegisterWrite_sound ..
  | .mw0BadAccess dt fn off size write, s => .of_vitals (execMw0BadAccess_vitals dt fn off size write s)
  | .mw2BadWrite dt fn off size, s => .of_vitals (execMw2BadWrite_vitals dt fn off size s)
  | .versionOffer .., _ => .of_vitals (execVersionOffer_vitals ..)
  | .functionLevelReset .., _ => .of_vitals (execFunctionLevelReset_vitals ..)
  | .d3hotEntry .., _ => .of_vitals (execD3hotEntry_vitals ..)
  | .busMasterDisable .., _ => .of_vitals (execBusMasterDisable_vitals ..)
  | .ringEnable .., _ => .of_vitals (execRingEnable_vitals ..)
  | .ringDisable .., _ => .of_vitals (execRingDisable_vitals ..)
  | .commandRingStopped .., _ => .of_vitals (execCommandRingStopped_vitals ..)
  | .commandDoorbell .., _ => .of_vitals (execCommandDoorbell_vitals ..)
  | .completionDoorbell .., _ => .of_vitals (execCompletionDoorbell_vitals ..)
  | .eventDoorbell .., _ => .of_vitals (execEventDoorbell_vitals ..)
  | .puntDoorbell .., _ => .of_vitals (execPuntDoorbell_vitals ..)
  | .injectDoorbell .., _ => .of_vitals (execInjectDoorbell_vitals ..)
  | .interruptModerationExpiry .., _ => .of_vitals (execInterruptModerationExpiry_vitals ..)
  | .progressReport .., _ => .of_vitals (execProgressReport_vitals ..)
  | .hifAbortGo .., _ => .of_vitals (execHifAbortGo_vitals ..)
  | .nop .., _ => .of_vitals (execNop_vitals ..)
  | .abort .., _ => .of_vitals (execAbort_vitals ..)
  | .abortComplete .., _ => .of_vitals (execAbortComplete_vitals ..)
  | .fenceClear .., _ => .of_vitals (execFenceClear_vitals ..)
  | .keyInstall .., _ => execKeyInstall_sound ..
  | .keyClear .., _ => execKeyClear_sound ..
  | .authPolicySet .., _ => .of_vitals (execAuthPolicySet_vitals ..)
  | .fuseRead .., _ => .of_vitals (execFuseRead_vitals ..)
  | .kekBurn .., _ => execKekBurn_sound ..
  | .fuseBurnDone .., _ => execFuseBurnDone_sound ..
  | .modeApply .., _ => execModeApply_sound ..
  | .setMode .., _ => execSetMode_sound ..
  | .partAssign .., _ => .of_vitals (execPartAssign_vitals ..)
  | .modeStartingDone .., _ => execModeStartingDone_sound ..
  | .modeQuiescingDone .., _ => execModeQuiescingDone_sound ..
  | .partitionTransitionBegin .., _ => execPartitionTransitionBegin_sound ..
  | .macAddrSet .., _ => .of_vitals (execMacAddrSet_vitals ..)
  | .macAddrRead .., _ => .of_vitals (execMacAddrRead_vitals ..)
  | .xptOhSet .., _ => .of_vitals (execXptOhSet_vitals ..)
  | .xptOhRead .., _ => .of_vitals (execXptOhRead_vitals ..)
  | .pmRead .., _ => .of_vitals (execPmRead_vitals ..)
  | .parseGraphWrite .., _ => .of_vitals (execParseGraphWrite_vitals ..)
  | .parseGraphActivate .., _ => .of_vitals (execParseGraphActivate_vitals ..)
  | .tableWrite .., _ => .of_vitals (execTableWrite_vitals ..)
  | .tcamRowMove .., _ => .of_vitals (execTcamRowMove_vitals ..)
  | .tableDelete .., _ => .of_vitals (execTableDelete_vitals ..)
  | .tableRead .., _ => .of_vitals (execTableRead_vitals ..)
  | .epochCommit .., _ => .of_vitals (execEpochCommit_vitals ..)
  | .epochCommitResume .., _ => .of_vitals (execEpochCommitResume_vitals ..)
  | .epochStall .., _ => .of_vitals (execEpochStall_vitals ..)
  | .epochDiscard .., _ => .of_vitals (execEpochDiscard_vitals ..)
  | .versionReclaim .., _ => .of_vitals (execVersionReclaim_vitals ..)
  | .tcamBankFormat .., _ => .of_vitals (execTcamBankFormat_vitals ..)
  | .tcamScrub .., _ => .of_vitals (execTcamScrub_vitals ..)
  | .mcastGroupWrite .., _ => .of_vitals (execMcastGroupWrite_vitals ..)
  | .mcastGroupRead .., _ => .of_vitals (execMcastGroupRead_vitals ..)
  | .mcastMembersWrite .., _ => .of_vitals (execMcastMembersWrite_vitals ..)
  | .mcastEsetWrite .., _ => .of_vitals (execMcastEsetWrite_vitals ..)
  | .innPoolSet .., _ => .of_vitals (execInnPoolSet_vitals ..)
  | .innQueueSet .., _ => .of_vitals (execInnQueueSet_vitals ..)
  | .innAudit .., _ => .of_vitals (execInnAudit_vitals ..)
  | .innAuditDone .., _ => .of_vitals (execInnAuditDone_vitals ..)
  | .ledgerClassSet .., _ => .of_vitals (execLedgerClassSet_vitals ..)
  | .ledgerPortSet .., _ => .of_vitals (execLedgerPortSet_vitals ..)
  | .ledgerQueueSet .., _ => .of_vitals (execLedgerQueueSet_vitals ..)
  | .rateReductionRelease .., _ => execRateReductionRelease_sound ..
  | .ledgerQueueRead .., _ => .of_vitals (execLedgerQueueRead_vitals ..)
  | .schedNodeSet .., _ => .of_vitals (execSchedNodeSet_vitals ..)
  | .schedQueueSet .., _ => .of_vitals (execSchedQueueSet_vitals ..)
  | .policerSet .., _ => .of_vitals (execPolicerSet_vitals ..)
  | .gateListSet .., _ => .of_vitals (execGateListSet_vitals ..)
  | .gateListStart .., _ => .of_vitals (execGateListStart_vitals ..)
  | .gateEntryBoundary .., _ => .of_vitals (execGateEntryBoundary_vitals ..)
  | .fabReachWrite .., _ => .of_vitals (execFabReachWrite_vitals ..)
  | .twinClaim .., _ => .of_vitals (execTwinClaim_vitals ..)
  | .twinRelease .., _ => .of_vitals (execTwinRelease_vitals ..)
  | .twinFwdSet .., _ => .of_vitals (execTwinFwdSet_vitals ..)
  | .twinDigestRead .., _ => .of_vitals (execTwinDigestRead_vitals ..)
  | .nwLoad .., _ => .of_vitals (execNwLoad_vitals ..)
  | .memTrain .., _ => .of_vitals (execMemTrain_vitals ..)
  | .memTrainDone .., _ => .of_vitals (execMemTrainDone_vitals ..)
  | .timeAdjust .., _ => .of_vitals (execTimeAdjust_vitals ..)
  | .tsRead .., _ => .of_vitals (execTsRead_vitals ..)
  | .counterRead .., _ => .of_vitals (execCounterRead_vitals ..)
  | .counterReadClear .., _ => .of_vitals (execCounterReadClear_vitals ..)
  | .counterWrite .., _ => .of_vitals (execCounterWrite_vitals ..)
  | .counterSetCfg .., _ => .of_vitals (execCounterSetCfg_vitals ..)
  | .perfCfg .., _ => .of_vitals (execPerfCfg_vitals ..)
  | .powerDomainOn .., _ => .of_vitals (execPowerDomainOn_vitals ..)
  | .powerDomainOff .., _ => .of_vitals (execPowerDomainOff_vitals ..)
  | .powerStatusRead .., _ => .of_vitals (execPowerStatusRead_vitals ..)
  | .domainStartingDone .., _ => .of_vitals (execDomainStartingDone_vitals ..)
  | .domainQuiescingDone .., _ => .of_vitals (execDomainQuiescingDone_vitals ..)
  | .domainDrainTimeout .., _ => .of_vitals (execDomainDrainTimeout_vitals ..)
  | .groupEnable .., _ => .of_vitals (execGroupEnable_vitals ..)
  | .groupDisable .., _ => .of_vitals (execGroupDisable_vitals ..)
  | .groupStartingDone .., _ => .of_vitals (execGroupStartingDone_vitals ..)
  | .groupQuiescingDone .., _ => .of_vitals (execGroupQuiescingDone_vitals ..)
  | .laneTxSettled .., _ => .of_vitals (execLaneTxSettled_vitals ..)
  | .signalQualified .., _ => .of_vitals (execSignalQualified_vitals ..)
  | .laneAdapted .., _ => .of_vitals (execLaneAdapted_vitals ..)
  | .pcsAligned .., _ => .of_vitals (execPcsAligned_vitals ..)
  | .lossOfSignal .., _ => .of_vitals (execLossOfSignal_vitals ..)
  | .lossOfLock .., _ => .of_vitals (execLossOfLock_vitals ..)
  | .pcsAlignmentLost .., _ => .of_vitals (execPcsAlignmentLost_vitals ..)
  | .highSer .., _ => .of_vitals (execHighSer_vitals ..)
  | .lockTimeout .., _ => .of_vitals (execLockTimeout_vitals ..)
  | .retryInterval .., _ => .of_vitals (execRetryInterval_vitals ..)
  | .prbsPatternSet .., _ => .of_vitals (execPrbsPatternSet_vitals ..)
  | .prbsCheckerLock .., _ => .of_vitals (execPrbsCheckerLock_vitals ..)
  | .prbsLockLost .., _ => .of_vitals (execPrbsLockLost_vitals ..)
  | .frameReceived .., _ => .of_vitals (execFrameReceived_vitals ..)
  | .pauseResend .., _ => .of_vitals (execPauseResend_vitals ..)
  | .pauseReceived .., _ => .of_vitals (execPauseReceived_vitals ..)
  | .pfcReceived .., _ => .of_vitals (execPfcReceived_vitals ..)
  | .pauseExpiry .., _ => .of_vitals (execPauseExpiry_vitals ..)
  | .ledgerExtendedInterim .., _ => .of_vitals (execLedgerExtendedInterim_vitals ..)
  | .stagingToLanding .., _ => .of_vitals (execStagingToLanding_vitals ..)
  | .d2dFlitCrcFail .., _ => .of_vitals (execD2dFlitCrcFail_vitals ..)
  | .switchCellTime .., _ => .of_vitals (execSwitchCellTime_vitals ..)
  | .caravanFirstStage .., _ => .of_vitals (execCaravanFirstStage_vitals ..)
  | .fabricCellTransmit .., _ => .of_vitals (execFabricCellTransmit_vitals ..)
  | .dataCellReceived .., _ => .of_vitals (execDataCellReceived_vitals ..)
  | .reassemblyTimeout .., _ => .of_vitals (execReassemblyTimeout_vitals ..)
  | .capCellReceived .., _ => .of_vitals (execCapCellReceived_vitals ..)
  | .capCellSend .., _ => .of_vitals (execCapCellSend_vitals ..)
  | .reneg .., _ => .of_vitals (execReneg_vitals ..)
  | .creditSyncSend .., _ => .of_vitals (execCreditSyncSend_vitals ..)
  | .creditSyncReceived .., _ => .of_vitals (execCreditSyncReceived_vitals ..)
  | .fabCreditStall .., _ => .of_vitals (execFabCreditStall_vitals ..)
  | .keepaliveSend .., _ => .of_vitals (execKeepaliveSend_vitals ..)
  | .receiveTimeout .., _ => .of_vitals (execReceiveTimeout_vitals ..)
  | .idleEnter .., _ => .of_vitals (execIdleEnter_vitals ..)
  | .idleEnterReceived .., _ => .of_vitals (execIdleEnterReceived_vitals ..)
  | .idleExit .., _ => .of_vitals (execIdleExit_vitals ..)
  | .idleExitTimeout .., _ => .of_vitals (execIdleExitTimeout_vitals ..)
  | .ledgerAdmission .., _ => .of_vitals (execLedgerAdmission_vitals ..)
  | .caravanSecondStage .., _ => .of_vitals (execCaravanSecondStage_vitals ..)
  | .cellarSpill .., _ => .of_vitals (execCellarSpill_vitals ..)
  | .pullBack .., _ => .of_vitals (execPullBack_vitals ..)
  | .releaseOpportunity .., _ => .of_vitals (execReleaseOpportunity_vitals ..)
  | .egressEdit .., _ => .of_vitals (execEgressEdit_vitals ..)
  | .macTransmit .., _ => .of_vitals (execMacTransmit_vitals ..)
  | .downFlush .., _ => .of_vitals (execDownFlush_vitals ..)
  | .ageDiscard .., _ => .of_vitals (execAgeDiscard_vitals ..)
  | .puntReservation .., _ => .of_vitals (execPuntReservation_vitals ..)
  | .injectFrameRead .., _ => .of_vitals (execInjectFrameRead_vitals ..)
  | .hbmTrainingDone .., _ => .of_vitals (execHbmTrainingDone_vitals ..)
  | .dimmProbeDone .., _ => .of_vitals (execDimmProbeDone_vitals ..)
  | .retrainingPause .., _ => .of_vitals (execRetrainingPause_vitals ..)
  | .retrainingPauseEnd .., _ => .of_vitals (execRetrainingPauseEnd_vitals ..)
  | .refreshDue .., _ => .of_vitals (execRefreshDue_vitals ..)
  | .refreshIssue .., _ => .of_vitals (execRefreshIssue_vitals ..)
  | .temperatureReading .., _ => .of_vitals (execTemperatureReading_vitals ..)
  | .refreshBurstEnd .., _ => .of_vitals (execRefreshBurstEnd_vitals ..)
  | .powerDownEntry .., _ => .of_vitals (execPowerDownEntry_vitals ..)
  | .memScrubRead .., _ => .of_vitals (execMemScrubRead_vitals ..)
  | .followerCheck .., _ => .of_vitals (execFollowerCheck_vitals ..)
  | .stepActivation .., _ => .of_vitals (execStepActivation_vitals ..)
  | .slewEnd .., _ => .of_vitals (execSlewEnd_vitals ..)
  | .ppsInEdge .., _ => execPpsInEdge_sound ..
  | .ppsCorrectionDecision .., _ => .of_vitals (execPpsCorrectionDecision_vitals ..)
  | .ppsWindowEnd .., _ => execPpsWindowEnd_sound ..
  | .holdoverExpiry .., _ => execHoldoverExpiry_sound ..
  | .ppsOutPulse .., _ => .of_vitals (execPpsOutPulse_vitals ..)
  | .ppsOutPulseEnd .., _ => .of_vitals (execPpsOutPulseEnd_vitals ..)
  | .timeLatch .., _ => .of_vitals (execTimeLatch_vitals ..)
  | .timeInitGo .., _ => .of_vitals (execTimeInitGo_vitals ..)
  | .pmSecond .., _ => .of_vitals (execPmSecond_vitals ..)
  | .pmBinStart .., _ => .of_vitals (execPmBinStart_vitals ..)
  | .pmBinClosed .., _ => .of_vitals (execPmBinClosed_vitals ..)
  | .frameAlignCheck .., _ => .of_vitals (execFrameAlignCheck_vitals ..)
  | .lofDeclare .., _ => .of_vitals (execLofDeclare_vitals ..)
  | .lofClear .., _ => .of_vitals (execLofClear_vitals ..)
  | .transportFrameReceived .., _ => .of_vitals (execTransportFrameReceived_vitals ..)
  | .transportFrameSend .., _ => .of_vitals (execTransportFrameSend_vitals ..)
  | .lanternSend .., _ => .of_vitals (execLanternSend_vitals ..)
  | .lanternReceived .., _ => execLanternReceived_sound ..
  | .pathLost .., _ => execPathLost_sound ..
  | .twinPairReform .., _ => execTwinPairReform_sound ..
  | .claimWaitEnd .., _ => .of_vitals (execClaimWaitEnd_vitals ..)
  | .twinLockLevelChange .., _ => .of_vitals (execTwinLockLevelChange_vitals ..)
  | .lockGainStart .., _ => .of_vitals (execLockGainStart_vitals ..)
  | .arbGrantDeassert .., _ => .of_vitals (execArbGrantDeassert_vitals ..)
  | .arbGrantAssert .., _ => .of_vitals (execArbGrantAssert_vitals ..)
  | .syncSend .., _ => .of_vitals (execSyncSend_vitals ..)
  | .syncReceived .., _ => execSyncReceived_sound ..
  | .divergeTimeout .., _ => .of_vitals (execDivergeTimeout_vitals ..)
  | .seqSampleSend .., _ => .of_vitals (execSeqSampleSend_vitals ..)
  | .seqSampleReceived .., _ => .of_vitals (execSeqSampleReceived_vitals ..)
  | .seqSampleDecide .., _ => .of_vitals (execSeqSampleDecide_vitals ..)
  | .dedupWindowAge .., _ => .of_vitals (execDedupWindowAge_vitals ..)
  | .nightWatch .., _ => .of_vitals (execNightWatch_vitals ..)
  | .accumulatorFlush .., _ => .of_vitals (execAccumulatorFlush_vitals ..)
  | .perfSample .., _ => .of_vitals (execPerfSample_vitals ..)
  | .flowCacheWriteback .., _ => .of_vitals (execFlowCacheWriteback_vitals ..)
  | .clockCheck .., _ => .of_vitals (execClockCheck_vitals ..)
  | .thermalReading .., _ => execThermalReading_sound ..
  | .throttleRelease .., _ => execThrottleRelease_sound ..
  | .porstNAssert .., _ => execPorstNAssert_sound ..
  | .porstNRelease .., _ => execPorstNRelease_sound ..
  | .sysrstNAssert .., _ => execSysrstNAssert_sound ..
  | .sysrstNRelease .., _ => execSysrstNRelease_sound ..
  | .smbRegisterWrite .., _ => execSmbRegisterWrite_sound ..
  | .smbSetReadAddress .., _ => .of_vitals (execSmbSetReadAddress_vitals ..)
  | .smbReadResult .., _ => .of_vitals (execSmbReadResult_vitals ..)
  | .remoteFaultReceived .., _ => .of_vitals (execRemoteFaultReceived_vitals ..)
  | .idleOrCreditCellReceived .., _ => .of_vitals (execIdleOrCreditCellReceived_vitals ..)
  | .busMasterEnable .., _ => .of_vitals (execBusMasterEnable_vitals ..)
  | .configurationRequest .., _ => .of_vitals (execConfigurationRequest_vitals ..)
  | .pcieLinkTrained .., _ => execPcieLinkTrained_sound ..
  | .pcieLinkDown .., _ => execPcieLinkDown_sound ..
  | .msixTableWrite .., _ => .of_vitals (execMsixTableWrite_vitals ..)
  | .sideEffectsStopped .., _ => .of_vitals (execSideEffectsStopped_vitals ..)
  | .followerErrorCleared .., _ => .of_vitals (execFollowerErrorCleared_vitals ..)
  | .sidebandReady .., _ => .of_vitals (execSidebandReady_vitals ..)

theorem exec_next (c : Instr) (s : State) : ∃ t, exec c s = .next t ∧ t.pending = s.pending :=
  have ⟨t, he, hk⟩ := exec_sound c s
  ⟨t, he, hk.1⟩

theorem step_nil {s : State} (h : s.pending = []) : step s = .next (s.pass 1) := by
  unfold step
  rw [h]

theorem step_cons {s : State} {c : Instr} {rest : List Instr} (h : s.pending = c :: rest) :
    step s = exec c { s with pending := rest } := by
  unfold step
  rw [h]

/-- A step takes the front command, if any, off the queue. -/
theorem step_next (s : State) : ∃ t, step s = .next t ∧ t.pending = s.pending.tail := by
  cases hq : s.pending with
  | nil => exact ⟨s.pass 1, step_nil hq, hq⟩
  | cons c rest =>
    rw [step_cons hq]
    exact exec_next c { s with pending := rest }

/-- Settles O2: every row's own lemma (`exec_sound`), and a step is a row or one idle cycle. -/
theorem everyCommandAnswersANextState : Obligations.EveryCommandAnswersANextState :=
  ⟨exec_next, step_next⟩

end Sys2Proof.Machine
end

section
/-! PROOF. O20: the master counter loses nothing between ticks. -/

namespace Sys2Proof.Machine

/-- How many of the next `n` cycles a slew in progress takes (R314): those before its end. -/
def Time.slewPart (t : Time) (n : Nat) : Nat := (t.slew.map fun p => min n (p.2 - t.cyc)).getD 0

/-- What `n` cycles add to the master counter before it wraps (R310). -/
def Time.advance (t : Time) (n : Nat) : Nat :=
  t.slewPart n * tickInc (t.freqPpb + (t.slew.map Prod.fst).getD 0) + (n - t.slewPart n) * tickInc t.freqPpb

theorem Time.run_eq (t : Time) (n : Nat) :
    t.run n = { t with cyc := t.cyc + n, master := (t.master + t.advance n) % masterMod } := by
  unfold Time.run Time.advance Time.slewPart
  cases t.slew <;> simp [Nat.add_assoc]

theorem Time.slewPart_le (t : Time) (n : Nat) : t.slewPart n ≤ n := by
  unfold Time.slewPart
  cases t.slew with
  | none => exact Nat.zero_le n
  | some p => exact Nat.min_le_left ..

/-- The slew ends at its own cycle, however the time before is cut. -/
theorem Time.slewPart_add (t : Time) (m n : Nat) : t.slewPart (m + n) = t.slewPart m + (t.run m).slewPart n := by
  rw [t.run_eq]
  unfold Time.slewPart
  cases t.slew with
  | none => rfl
  | some p =>
    dsimp only [Option.map_some, Option.getD_some]
    omega

/-- No fraction is lost between ticks. -/
theorem Time.advance_add (t : Time) (m n : Nat) : t.advance (m + n) = t.advance m + (t.run m).advance n := by
  have hm := t.slewPart_le m
  have hn := (t.run m).slewPart_le n
  have hrest : m + n - (t.slewPart m + (t.run m).slewPart n) = m - t.slewPart m + (n - (t.run m).slewPart n) := by omega
  have hf : (t.run m).freqPpb = t.freqPpb := by rw [t.run_eq]
  have hs : (t.run m).slew = t.slew := by rw [t.run_eq]
  unfold Time.advance
  rw [t.slewPart_add, hrest, hf, hs]
  ring

theorem Time.run_add (t : Time) (m n : Nat) : (t.run m).run n = t.run (m + n) := by
  rw [(t.run m).run_eq, t.run_eq (m + n), t.advance_add, t.run_eq m]
  simp [Nat.add_assoc]

theorem State.pass_add (s : State) (m n : Nat) : (s.pass m).pass n = s.pass (m + n) := by
  simp only [State.pass, Time.run_add]

theorem State.cyc_pass (s : State) (n : Nat) : (s.pass n).cyc = s.cyc + n := by
  simp only [State.pass, State.cyc, Time.run_eq]

theorem State.master_pass (s : State) (n : Nat) : (s.pass n).time.master = (s.time.master + s.time.advance n) % masterMod := by
  simp only [State.pass, Time.run_eq]

/-- Without a slew every cycle adds the same. -/
theorem Time.advance_of_no_slew {t : Time} (h : t.slew = none) (n : Nat) : t.advance n = n * tickInc t.freqPpb := by
  simp [Time.advance, Time.slewPart, h]

theorem State.master_pass_of_no_slew {s : State} (h : s.time.slew = none) (n : Nat) :
    (s.pass n).time.master = (s.time.master + n * tickInc s.time.freqPpb) % masterMod := by
  rw [s.master_pass, Time.advance_of_no_slew h]

theorem tickInc_zero : tickInc 0 = 5 * 2 ^ 32 / 4 := by decide

theorem State.master_pass_lt (s : State) (n : Nat) : (s.pass n).time.master < 2 ^ 48 * 1000000000 * 2 ^ 32 := by
  rw [s.master_pass]
  exact Nat.mod_lt _ (by decide)

/-- R11: device time has 48 bits of seconds; the other fields are below their units. -/
theorem State.now_fields_pass (s : State) (n : Nat) :
    secOf (s.pass n).now < 2 ^ 48 ∧ nsOf (s.pass n).now < 1000000000 ∧ fracOf (s.pass n).now < 65536 := by
  have h := s.master_pass_lt n
  simp only [secOf, nsOf, fracOf, qSec, qNs, State.now]
  omega

theorem State.now_eq (s : State) : s.now = s.time.master * 65536 / 2 ^ 32 := by
  unfold State.now
  omega

/-- Settles O20: an advance is a sum over the cycles (`advance_add`), cut to `masterMod` once or twice alike. -/
theorem timeRunsWithoutLoss : Obligations.TimeRunsWithoutLoss := by
  refine ⟨fun s m n => ⟨s.pass_add m n, s.cyc_pass m⟩, fun s n hf hs => ?_, fun s n ppb hf hs => ?_, State.now_fields_pass,
    State.now_eq, rfl⟩
  · rw [State.master_pass_of_no_slew hs, hf, tickInc_zero]
    rfl
  · rw [State.master_pass_of_no_slew hs, hf]
    rfl

end Sys2Proof.Machine
end

section
/-! PROOF. O39: what a write and the device leave in a stored register. -/

namespace Sys2Proof.Machine

theorem State.reg_setReg_self (s : State) (a v : Nat) : (s.setReg a v).reg a = v % 2 ^ 32 := by
  unfold State.reg State.setReg
  rw [NMap.get_put_self, BitVec.toNat_ofNat]

theorem State.reg_setReg_ne (s : State) {a b : Nat} (v : Nat) (h : b ≠ a) : (s.setReg a v).reg b = s.reg b := by
  unfold State.reg State.setReg
  rw [NMap.get_put_ne _ _ _ _ h]

theorem State.testBit_reg_setReg (s : State) (a v : Nat) {i : Nat} (h : i < 32) :
    ((s.setReg a v).reg a).testBit i = v.testBit i := by
  rw [s.reg_setReg_self, Nat.testBit_mod_two_pow, decide_eq_true h, Bool.true_and]

@[simp] theorem State.reg_markSet (s : State) (a m b : Nat) : (s.markSet a m).reg b = s.reg b := rfl
@[simp] theorem State.freshBits_setReg (s : State) (a v b : Nat) : (s.setReg a v).freshBits b = s.freshBits b := rfl

theorem State.freshBits_markSet (s : State) (a m : Nat) : (s.markSet a m).freshBits a = s.freshBits a ||| m := by
  unfold State.markSet
  generalize s.freshBits a ||| m = k
  unfold State.freshBits State.cyc
  simp only [NMap.get_put_self, if_true]

/-- No bit of a register is both RW and W1C. -/
theorem regRows_disjoint : ∀ r ∈ regRows, r.rw &&& r.w1c = 0 := by decide

theorem regRow_w1c_of_rw {a : Nat} {r : RegRow} (h : regRow a = some r) {i : Nat} (hi : r.rw.testBit i = true) :
    r.w1c.testBit i = false := by
  have hb := congrArg (Nat.testBit · i) (regRows_disjoint r (List.mem_of_find?_eq_some h))
  simpa [Nat.testBit_and, hi] using hb

/-- R8, R9: RW bits are taken, W1C bits cleared by ones, others kept. -/
theorem RegRow.getLsbD_merge (r : RegRow) (old v : BitVec 32) {i : Nat} (h : i < 32) : (r.merge old v).getLsbD i =
    if r.rw.testBit i = true then v.getLsbD i else old.getLsbD i && !(r.w1c.testBit i && v.getLsbD i) := by
  unfold RegRow.merge
  simp only [BitVec.getLsbD_or, BitVec.getLsbD_and, BitVec.getLsbD_not, BitVec.getLsbD_ofNat, h, decide_true, Bool.true_and]
  cases r.rw.testBit i <;> simp

theorem State.storeReg_of_row {s : State} {a : Nat} {r : RegRow} (h : regRow a = some r) (v : BitVec 32) : s.storeReg a v =
    s.setReg a ((r.merge (BitVec.ofNat 32 (s.reg a)) v).toNat ||| (s.reg a &&& r.w1c &&& s.freshBits a)) := by
  unfold State.storeReg
  rw [h]

theorem State.storeReg_of_no_row {s : State} {a : Nat} (h : regRow a = none) (v : BitVec 32) : s.storeReg a v = s := by
  unfold State.storeReg
  rw [h]

/-- A W1C bit (`w`) where 1 is written (`x`) stays only if it is fresh (`f`). -/
theorem cleared_bit (b f w x : Bool) :
    (b && !(w && x) || b && w && f) = if w = true ∧ x = true then b && f else b := by
  revert b f w x
  decide

/-- R8, R9: each bit of a stored register after a write. -/
theorem State.testBit_reg_storeReg {s : State} {a : Nat} {r : RegRow} (hr : regRow a = some r) (v : BitVec 32) {i : Nat}
    (hi : i < 32) : ((s.storeReg a v).reg a).testBit i = if r.rw.testBit i = true then v.getLsbD i
      else if r.w1c.testBit i = true ∧ v.getLsbD i = true then (s.reg a).testBit i && (s.freshBits a).testBit i
      else (s.reg a).testBit i := by
  rw [s.storeReg_of_row hr, State.testBit_reg_setReg _ _ _ hi, Nat.testBit_or, Nat.testBit_and, Nat.testBit_and, BitVec.testBit_toNat,
    RegRow.getLsbD_merge _ _ _ hi, BitVec.getLsbD_ofNat, decide_eq_true hi, Bool.true_and]
  by_cases hw : r.rw.testBit i = true
  · rw [if_pos hw, if_pos hw, regRow_w1c_of_rw hr hw, Bool.and_false, Bool.false_and, Bool.or_false]
  · rw [if_neg hw, if_neg hw]
    exact cleared_bit _ _ _ _

/-- R9: the device's own setting of bits. -/
theorem State.testBit_reg_orReg (s : State) (a m : Nat) {i : Nat} (hi : i < 32) :
    ((s.orReg a m).reg a).testBit i = ((s.reg a).testBit i || m.testBit i) := by
  rw [State.orReg, State.reg_markSet, State.testBit_reg_setReg _ _ _ hi, Nat.testBit_or]

theorem State.freshBits_orReg (s : State) (a m : Nat) : (s.orReg a m).freshBits a = s.freshBits a ||| m := by
  rw [State.orReg, State.freshBits_markSet, State.freshBits_setReg]

/-- Settles O39: a write goes bit by bit as the register's row says (`testBit_reg_storeReg`). -/
theorem storedRegistersTakeOnlyTheirWritableBits : Obligations.StoredRegistersTakeOnlyTheirWritableBits := by
  refine ⟨fun s a v => ⟨fun h => State.storeReg_of_no_row h v,
    fun r hr => ⟨fun i hi => State.testBit_reg_storeReg hr v hi, ?_⟩⟩,
    fun s a m i hi => ⟨s.testBit_reg_orReg a m hi, ?_⟩⟩
  · intro b hb
    rw [State.storeReg_of_row hr, State.reg_setReg_ne _ _ hb]
  · rw [State.freshBits_orReg, Nat.testBit_or]

end Sys2Proof.Machine
end

section
/-! PROOF. O53: ring entries as bytes in host memory. -/

namespace Sys2Proof

theorem bits_of_lt {x lo : Nat} (h : x < 2 ^ lo) (w : Nat) : bits x lo w = 0 := by
  rw [bits_eq, Nat.div_eq_of_lt h, Nat.zero_mod]

/-- The lowest field, nothing else being left. -/
theorem bits_mod_zero (x w : Nat) : bits (x % 2 ^ w) 0 w = x % 2 ^ w := by
  rw [bits_eq, Nat.pow_zero, Nat.div_one, Nat.mod_mod]

theorem bit_eq_bits (x n : Nat) : bit x n = decide (bits x n 1 = 1) := by
  rw [bit, bits_eq, Nat.testBit_eq_decide_div_mod_eq, Nat.pow_one]

theorem b2n_lt_two (b : Bool) : b2n b < 2 := by cases b <;> decide

/-- A bit on top of a number below it reads back. -/
theorem bit_add_b2n {x lo : Nat} (b : Bool) (h : x < 2 ^ lo) : bit (x + b2n b * 2 ^ lo) lo = b := by
  rw [bit_eq_bits, bits_add_mul _ _ _ _ h]
  cases b <;> rfl

/-- A field above a bit leaves the bit. -/
theorem bit_add_mul_lt (x v n hi : Nat) (h : n < hi) : bit (x + v * 2 ^ hi) n = bit x n := by
  rw [bit_eq_bits, bits_add_mul_lt _ _ _ _ _ h, bit_eq_bits]

/-- A field on top of a number below it widens the number by the field. -/
theorem add_field_lt {x lo : Nat} (h : x < 2 ^ lo) (v w : Nat) : x + v % 2 ^ w * 2 ^ lo < 2 ^ (lo + w) := by
  have hv : v % 2 ^ w + 1 ≤ 2 ^ w := Nat.mod_lt _ (by positivity)
  calc x + v % 2 ^ w * 2 ^ lo < 2 ^ lo + v % 2 ^ w * 2 ^ lo := Nat.add_lt_add_right h _
    _ = (v % 2 ^ w + 1) * 2 ^ lo := by ring
    _ ≤ 2 ^ w * 2 ^ lo := Nat.mul_le_mul_right _ hv
    _ = 2 ^ (lo + w) := by rw [pow_add, Nat.mul_comm]

theorem leNat_leBytes_of_lt {n k x : Nat} (h : x < 2 ^ k) (hk : k = 8 * n) : leNat (leBytes n x) = x := by
  rw [leNat_leBytes, show (256 : Nat) = 2 ^ 8 from rfl, ← Nat.pow_mul, ← hk, Nat.mod_eq_of_lt h]

end Sys2Proof

namespace Sys2Proof.Machine

/-- The number whose bytes a completion entry is. -/
def Comp.word (c : Comp) : Nat :=
  c.seq % 2 ^ 16 + c.status % 2 ^ 8 * 2 ^ 16 + b2n c.authed * 2 ^ 24 + c.phase % 2 * 2 ^ 31 + c.opcode % 2 ^ 16 * 2 ^ 32
    + c.cookie % 2 ^ 32 * 2 ^ 64 + c.detail % 2 ^ 32 * 2 ^ 96 + c.result % 2 ^ 64 * 2 ^ 128 + c.timeNs % 2 ^ 32 * 2 ^ 192
    + c.timeS % 2 ^ 32 * 2 ^ 224

theorem Comp.leNat_bytes (c : Comp) : leNat c.bytes = c.word := by
  have hb := b2n_lt_two c.authed
  refine leNat_leBytes_of_lt (k := 256) ?_ rfl
  omega

/-- R379: the fields of a completion entry. Each stands between the fields above it, which are cut off, and those below it, which
end before it. -/
theorem Comp.word_fields (c : Comp) :
    bits c.word 0 16 = c.seq % 2 ^ 16 ∧ bits c.word 16 8 = c.status % 2 ^ 8 ∧ bit c.word 24 = c.authed ∧ bits c.word 25 6 = 0 ∧
    bits c.word 31 1 = c.phase % 2 ∧ bits c.word 32 16 = c.opcode % 2 ^ 16 ∧ bits c.word 48 16 = 0 ∧
    bits c.word 64 32 = c.cookie % 2 ^ 32 ∧ bits c.word 96 32 = c.detail % 2 ^ 32 ∧ bits c.word 128 64 = c.result % 2 ^ 64 ∧
    bits c.word 192 32 = c.timeNs % 2 ^ 32 ∧ bits c.word 224 32 = c.timeS % 2 ^ 32 := by
  have hb := b2n_lt_two c.authed
  unfold Comp.word
  and_intros <;>
    simp (disch := omega) only [bits_add_mul_lt, bits_add_mul, bits_of_lt, bits_mod_zero, bit_add_mul_lt, bit_add_b2n,
      Nat.mod_mod, Nat.pow_one]

/-- The fields of an event record below its payload. -/
def Evt.head (e : Evt) : Nat :=
  e.kind % 2 ^ 8 + e.source % 2 ^ 8 * 2 ^ 8 + e.event % 2 ^ 16 * 2 ^ 16 + b2n e.st * 2 ^ 32 + b2n e.fatal * 2 ^ 33
    + e.phase % 2 * 2 ^ 63 + e.timeS % 2 ^ 48 * 2 ^ 64 + e.timeNs % 2 ^ 32 * 2 ^ 112 + e.timeFrac % 2 ^ 16 * 2 ^ 144
    + e.inst % 2 ^ 32 * 2 ^ 160

theorem Evt.head_lt (e : Evt) : e.head < 2 ^ 192 := by
  have hs := b2n_lt_two e.st
  have hf := b2n_lt_two e.fatal
  unfold Evt.head
  omega

theorem Evt.leNat_bytes (e : Evt) : leNat e.bytes = e.head + e.payload % 2 ^ 320 * 2 ^ 192 :=
  leNat_leBytes_of_lt (add_field_lt e.head_lt e.payload 320) rfl

/-- R386: the fields of an event record below its payload. -/
theorem Evt.head_fields (e : Evt) :
    bits e.head 0 8 = e.kind % 2 ^ 8 ∧ bits e.head 8 8 = e.source % 2 ^ 8 ∧ bits e.head 16 16 = e.event % 2 ^ 16 ∧
    bit e.head 32 = e.st ∧ bit e.head 33 = e.fatal ∧ bits e.head 34 29 = 0 ∧ bits e.head 63 1 = e.phase % 2 ∧
    bits e.head 64 48 = e.timeS % 2 ^ 48 ∧ bits e.head 112 32 = e.timeNs % 2 ^ 32 ∧ bits e.head 144 16 = e.timeFrac % 2 ^ 16 ∧
    bits e.head 160 32 = e.inst % 2 ^ 32 := by
  have hs := b2n_lt_two e.st
  have hf := b2n_lt_two e.fatal
  unfold Evt.head
  and_intros <;>
    simp (disch := omega) only [bits_add_mul_lt, bits_add_mul, bits_of_lt, bits_mod_zero, bit_add_mul_lt, bit_add_b2n, Nat.mod_mod,
      Nat.pow_one]

/-- The payload above them. -/
theorem Evt.payload_field (e : Evt) : bits (e.head + e.payload % 2 ^ 320 * 2 ^ 192) 192 320 = e.payload % 2 ^ 320 := by
  rw [bits_add_mul _ _ _ _ e.head_lt, Nat.mod_mod]

/-- A ring index of 32 bits that has wrapped is the same place of a ring of at most 65,536 entries. -/
theorem add_pow_sub_mod {d n i k : Nat} (hi : i < n) (hn : n ≤ d) (hk : k ≤ 32) :
    (d + 2 ^ 32 - n + i) % 2 ^ k = (d - (n - i)) % 2 ^ k := by
  obtain ⟨m, hm⟩ : 2 ^ k ∣ 2 ^ 32 := pow_dvd_pow 2 hk
  rw [show d + 2 ^ 32 - n + i = d - (n - i) + 2 ^ 32 by omega, hm, Nat.add_mul_mod_self_left]

/-- Where entry `i` of the `l.length` entries before DEV_INDEX lies. -/
theorem Ring.mem_place {g : Ring} (size : Nat) {i : Nat} {l : List (List Byte)} {b : List Byte} (hb : l[i]? = some b)
    (hl : l.length ≤ g.devIndex) (hg : g.log2 ≤ 16) :
    (g.base.toNat + size * ((g.devIndex - (l.length - i)) % 2 ^ g.log2), b) ∈ g.place size l := by
  have hi : i < l.length := (List.getElem?_eq_some_iff.1 hb).1
  refine List.mem_map.2 ⟨(b, i), List.mk_mem_zipIdx_iff_getElem?.2 hb, ?_⟩
  dsimp only
  rw [add_pow_sub_mod hi hl (by omega)]

/-- Settles O53: the bytes spell one number (`leNat_bytes`), whose fields are read off it, and an entry's place is that of its ring
index. -/
theorem ringEntriesHaveTheirBytesInHostMemory : Obligations.RingEntriesHaveTheirBytesInHostMemory := by
  refine ⟨fun c => ?_, fun e => ?_, fun _ size _ _ _ hb hl hg => Ring.mem_place size hb hl hg⟩
  · rw [Comp.leNat_bytes]
    exact ⟨leBytes_length .., c.word_fields⟩
  · obtain ⟨kind, source, event, st, fatal, reserved, phase, timeS, timeNs, timeFrac, inst⟩ := e.head_fields
    rw [Evt.leNat_bytes]
    simp (disch := omega) only [bits_add_mul_lt, bit_add_mul_lt, e.payload_field]
    exact ⟨leBytes_length .., kind, source, event, st, fatal, reserved, phase, timeS, timeNs, timeFrac, inst, trivial⟩

end Sys2Proof.Machine
end

section
/-! PROOF. O38: what a register write through MW0 does. -/

namespace Sys2Proof.Machine

/-! ### Addresses -/

theorem arrayIx_none {a base stride count : Nat} (h : a < base ∨ base + stride * count ≤ a) :
    arrayIx a base stride count = none := if_pos h

theorem arrayIx_add {base stride count n o : Nat} (hn : n < count) (ho : o < stride) :
    arrayIx (base + stride * n + o) base stride count = some (n, o) := by
  have hm : stride * (n + 1) ≤ stride * count := Nat.mul_le_mul_left _ hn
  rw [Nat.mul_add] at hm
  unfold arrayIx
  rw [if_neg (by omega), Nat.add_assoc, Nat.add_sub_cancel_left, Nat.mul_add_div (by omega), Nat.div_eq_of_lt ho, Nat.mul_add_mod,
    Nat.mod_eq_of_lt ho, Nat.add_zero]

/-- The first register of a record. -/
theorem arrayIx_base {base stride count n : Nat} (hn : n < count) (hs : 0 < stride) :
    arrayIx (base + stride * n) base stride count = some (n, 0) := arrayIx_add hn hs

theorem arrayIx_eq_some {a base stride count n o : Nat} (h : arrayIx a base stride count = some (n, o)) :
    a = base + stride * n + o ∧ n < count := by
  unfold arrayIx at h
  split at h
  · cases h
  · obtain ⟨rfl, rfl⟩ := Prod.mk.inj (Option.some.inj h)
    have hd := Nat.div_add_mod (a - base) stride
    exact ⟨by omega, Nat.div_lt_of_lt_mul (by omega)⟩

theorem addrOfOff_lt {off : Nat} (h : off < 0x800000) :
    addrOfOff off < 2 ^ 26 ∧ addrOfOff off / 2 ^ 17 % 8 = 0 ∧ offOfAddr (addrOfOff off) = off := by
  unfold offOfAddr addrOfOff
  omega

/-! ### The access (R5, R6, R363) -/

theorem exec_registerWrite (s : State) (dt : Nat) (fn : Fin 2) (off : Nat) (v : Word32) (hi : Option Word32) :
    let u := s.pass dt
    exec (.registerWrite dt fn off v hi) s = .next (
      if u.hostUp = false then u
      else if off % (if hi = none then 4 else 8) ≠ 0 ∨ 0x800000 ≤ off then u.raise (u.partOf fn) evHifBadAccess off
      else match hi with
        | none => u.writeMw0 fn off v
        | some h => (u.writeMw0 fn off v).writeMw0 fn (off + 4) h) := by
  change execRegisterWrite dt fn off v hi s = _
  unfold execRegisterWrite
  generalize s.pass dt = u
  dsimp only
  cases hu : u.hostUp with
  | false => rfl
  | true =>
    cases hi with
    | none =>
      by_cases hb : off % 4 ≠ 0 ∨ 0x800000 ≤ off
      · simp [hb, ans, State.badAccess]
      · simp [hb, ans]
    | some h =>
      by_cases hb : off % 8 ≠ 0 ∨ 0x800000 ≤ off
      · simp [hb, ans, State.badAccess]
      · simp [hb, ans]

theorem State.servesReg_iff (s : State) (fn : Fin 2) (a : Nat) :
    s.servesReg fn a = true ↔ fn = 0 ∨ s.partOn = true ∨ a = 0 ∨ a = 0x10 ∨ a = 0x14 := by
  have h0 : (fn : Nat) = 0 ↔ fn = 0 := Fin.val_eq_zero_iff
  simp only [State.servesReg, State.serves, Bool.or_eq_true, beq_iff_eq, h0, or_assoc]

theorem State.writeMw0_served {s : State} {fn : Fin 2} {off : Nat} (h : s.servesReg fn (addrOfOff off) = true) (v : Word32) :
    s.writeMw0 fn off v = s.writeReg fn (addrOfOff off) v := if_pos h

theorem State.writeMw0_unserved {s : State} {fn : Fin 2} {off : Nat} (h : ¬ s.servesReg fn (addrOfOff off) = true) (v : Word32) :
    s.writeMw0 fn off v = s.raise (s.partOf fn) evHifBadAccess off := if_neg h

/-! ### Command rows -/

theorem exec_eq_afterRow (c : Instr) (s : State) : exec c s = .next (afterRow (exec c s) s) := by
  obtain ⟨t, ht, _⟩ := exec_next c s
  rw [ht]
  rfl

theorem State.writeReg_of_row {s t : State} {fn : Fin 2} {a : Nat} {v : Word32} (h : s.writeRow fn a v = some t) :
    s.writeReg fn a v = t := by
  unfold State.writeReg
  rw [h]

/-- A write that acts as command `c` does what `c` does. -/
theorem exec_eq_writeReg {c : Instr} {s : State} {fn : Fin 2} {a : Nat} {v : Word32}
    (h : s.writeRow fn a v = some (afterRow (exec c s) s)) : exec c s = .next (s.writeReg fn a v) := by
  rw [State.writeReg_of_row h]
  exact exec_eq_afterRow c s

section Rows
variable (s : State) (fn : Fin 2) (v : Word32)

theorem State.writeRow_ringControl (r : Fin 208) : s.writeRow fn (0x1008 + 0x20 * r) v =
    some (afterRow (exec (if v.getLsbD 0 = true then .ringEnable 0 fn r v else .ringDisable 0 fn r v) s) s) := by
  unfold State.writeRow
  simp (disch := omega) only [if_neg, arrayIx_base, dif_pos r.isLt]
  rw [apply_ite (exec · s)]
  rfl

theorem State.writeRow_prbs (n : Fin 48) :
    s.writeRow fn (0x00200008 + 0x40 * n) v = some (afterRow (exec (.prbsPatternSet 0 fn n v) s) s) := by
  unfold State.writeRow
  simp (disch := omega) only [if_neg, arrayIx_none, arrayIx_base, dif_pos n.isLt]
  rfl

theorem State.writeRow_groupControl (g : Fin 6) : s.writeRow fn (0x00201004 + 0x10 * g) v =
    some (afterRow (exec (if v.getLsbD 0 = true then .groupEnable 0 fn g else .groupDisable 0 fn g) s) s) := by
  unfold State.writeRow
  simp (disch := omega) only [if_neg, arrayIx_none, arrayIx_base, dif_pos g.isLt]
  rw [apply_ite (exec · s)]
  rfl

theorem State.writeRow_reneg (j : Fin 26) : s.writeRow fn (0x01C0110C + 0x10 * j) v =
    if v.getLsbD 0 = true then some (afterRow (exec (.reneg 0 fn j) s) s) else some s := by
  unfold State.writeRow
  simp (disch := omega) only [if_neg, arrayIx_none, arrayIx_base, dif_pos j.isLt]
  rfl

/-- The registers that have a command row of their own. -/
theorem State.writeReg_rows (r : Fin 208) (n : Fin 48) (g : Fin 6) (j : Fin 26) :
    exec (.versionOffer 0 fn v) s = .next (s.writeReg fn 0x10 v) ∧
    exec (.hifAbortGo 0 fn v) s = .next (s.writeReg fn 0x20 v) ∧
    exec (.modeApply 0 fn v) s = .next (s.writeReg fn 0x00100044 v) ∧
    exec (.timeLatch 0 fn v) s = .next (s.writeReg fn 0x02800020 v) ∧
    exec (.timeInitGo 0 fn v) s = .next (s.writeReg fn 0x0280004C v) ∧
    (if v.getLsbD 0 = true then exec (.ringEnable 0 fn r v) s else exec (.ringDisable 0 fn r v) s) =
      .next (s.writeReg fn (0x1008 + 0x20 * r) v) ∧
    exec (.prbsPatternSet 0 fn n v) s = .next (s.writeReg fn (0x00200008 + 0x40 * n) v) ∧
    (if v.getLsbD 0 = true then exec (.groupEnable 0 fn g) s else exec (.groupDisable 0 fn g) s) =
      .next (s.writeReg fn (0x00201004 + 0x10 * g) v) ∧
    (if v.getLsbD 0 = true then exec (.reneg 0 fn j) s else .next s) = .next (s.writeReg fn (0x01C0110C + 0x10 * j) v) := by
  refine ⟨exec_eq_writeReg rfl, exec_eq_writeReg rfl, exec_eq_writeReg rfl, exec_eq_writeReg rfl, exec_eq_writeReg rfl,
    (apply_ite (exec · s) _ _ _).symm.trans (exec_eq_writeReg (State.writeRow_ringControl ..)),
    exec_eq_writeReg (State.writeRow_prbs ..),
    (apply_ite (exec · s) _ _ _).symm.trans (exec_eq_writeReg (State.writeRow_groupControl ..)), ?_⟩
  have h := s.writeRow_reneg fn v j
  cases hv : v.getLsbD 0 with
  | true => exact exec_eq_writeReg (h.trans (if_pos hv))
  | false => rw [State.writeReg_of_row (h.trans (if_neg (ne_true_of_eq_false hv)))]; rfl

end Rows

/-! ### The other registers -/

/-- The write is discarded before its register is looked at: the die-to-die link is down (R453), the register is another
partition's (R49), or the block is the sideband's. -/
def State.discards (s : State) (fn a : Nat) : Bool :=
  (s.chip.d2dDown && fDieBlock a) || !s.ownsReg fn a || blockOf a == 0x38 || blockOf a == 0x3C

theorem State.discards_eq_true (s : State) (fn a : Nat) : s.discards fn a = true ↔
    s.chip.d2dDown = true ∧ fDieBlock a = true ∨ s.ownsReg fn a = false ∨ a / 0x100000 = 0x38 ∨ a / 0x100000 = 0x3C := by
  simp only [State.discards, blockOf, Bool.or_eq_true, Bool.and_eq_true, Bool.not_eq_true', beq_iff_eq, or_assoc]

theorem State.discards_eq_false {s : State} {fn a : Nat} (hd : (s.chip.d2dDown && fDieBlock a) = false)
    (ho : s.ownsReg fn a = true) (h38 : a / 0x100000 ≠ 0x38) (h3C : a / 0x100000 ≠ 0x3C) : s.discards fn a = false := by
  simp [State.discards, blockOf, hd, ho, h38, h3C]

theorem fDieBlock_hif {a : Nat} (h : a / 0x100000 = 0) : fDieBlock a = false := by
  rw [fDieBlock, blockOf, h]
  rfl

section Plain
variable {s : State} {fn : Fin 2} {a : Nat} {v : Word32} (hrow : s.writeRow fn a v = none)
include hrow

theorem State.writeReg_discarded (hd : s.discards fn a = true) : s.writeReg fn a v = s := by
  unfold State.writeReg
  rw [hrow]
  exact if_pos hd

theorem State.writeReg_hif (hd : s.discards fn a = false) (hb : a / 0x100000 = 0) : s.writeReg fn a v = s.writeHif fn a v := by
  unfold State.writeReg
  rw [hrow]
  exact (if_neg (ne_true_of_eq_false hd)).trans (if_pos hb)

variable (hd : s.discards fn a = false) (hb : a / 0x100000 ≠ 0)
include hd hb

theorem State.writeReg_guarded {g : Nat} (hg : guardedGroup a = some g) : s.writeReg fn a v =
    if (s.group g).st = .off then s.storeReg a v else s.orReg (0x00201008 + 0x10 * g) 0x100 := by
  unfold State.writeReg
  rw [hrow]
  refine (if_neg (ne_true_of_eq_false hd)).trans ((if_neg hb).trans ?_)
  rw [hg]
  simp only [beq_iff_eq, State.cfgReject]

variable (hg : guardedGroup a = none)
include hg

theorem State.writeReg_barred (hw : s.writeBarred a = true) : s.writeReg fn a v = s := by
  unfold State.writeReg
  rw [hrow]
  refine (if_neg (ne_true_of_eq_false hd)).trans ((if_neg hb).trans ?_)
  rw [hg]
  exact if_pos hw

theorem State.writeReg_taken (hw : s.writeBarred a = false) :
    (a = 0x01C01000 → s.writeReg fn a v = s.writeFabCfg v) ∧
    (∀ p < 48, a = 0x00400000 + 0x20 * p → s.writeReg fn a v = s.writeMacCfg p v) ∧
    (∀ i < 16, a = 0x00C02000 + 4 * i →
      s.writeReg fn a v = s.setReg (a + if s.partOn = true then fn.val * 2 ^ 32 else 0) v.toNat) ∧
    (a ≠ 0x01C01000 → (∀ p < 48, a ≠ 0x00400000 + 0x20 * p) → ¬ (0x00C02000 ≤ a ∧ a < 0x00C02040) →
      s.writeReg fn a v = s.storeReg a v) := by
  unfold State.discards at hd
  simp only [State.writeReg, hrow, hd, show ¬ blockOf a = 0 from hb, hg, hw, Bool.false_eq_true, if_false]
  refine ⟨fun ha => if_pos ha, ?mac, ?view, ?other⟩
  case mac =>
    intro p hp ha
    rw [if_neg (by omega), ha, arrayIx_base hp (by decide)]
    rfl
  case view =>
    intro i hi ha
    rw [if_neg (by omega), ha, arrayIx_none (by omega), arrayIx_base hi (by decide)]
  case other =>
    intro hfab hmac hview
    rw [if_neg hfab, arrayIx_none (base := 0x00C02000) (by omega)]
    split
    · rename_i p hp
      obtain ⟨ha, hlt⟩ := arrayIx_eq_some hp
      exact absurd ha (hmac p hlt)
    · rfl

end Plain

/-! ### Which registers take a rule of their own -/

/-- R389, R388, R368: the HIF registers that a function writes. -/
theorem State.writeHif_fields (s : State) (fn : Fin 2) (a : Nat) (v : Word32) :
    (a = 0x18 → s.writeHif fn a v = s.updFunc fn fun p => { p with fatalVec := v.toNat % 256 }) ∧
    (∀ b < 64, a = 0x400 + 4 * b →
      s.writeHif fn a v = s.updFunc fn fun p => { p with evtRoute := p.evtRoute.put 0 b (v.toNat % 16) }) ∧
    (∀ r < 208, a = 0x1000 + 0x20 * r → s.writeHif fn a v = if (s.ring fn r).st = .disabled then s.updRing fn r fun g =>
      { g with base := BitVec.ofNat 64 (setBits g.base.toNat 0 32 (v.toNat / 4096 * 4096)) } else s) ∧
    (∀ r < 208, a = 0x1004 + 0x20 * r → s.writeHif fn a v = if (s.ring fn r).st = .disabled then s.updRing fn r fun g =>
      { g with base := BitVec.ofNat 64 (setBits g.base.toNat 32 32 v.toNat) } else s) := by
  unfold State.writeHif
  refine ⟨fun ha => if_pos ha, ?route, ?low, ?high⟩
  case route =>
    intro b hb ha
    rw [if_neg (by omega), ha, arrayIx_base hb (by decide)]
  case low =>
    intro r hr ha
    rw [if_neg (by omega), ha, arrayIx_none (by omega), arrayIx_base hr (by decide)]
    by_cases h : (s.ring fn r).st = .disabled <;> simp [h]
  case high =>
    intro r hr ha
    rw [if_neg (by omega), show a = 0x1000 + 0x20 * r + 4 by omega, arrayIx_none (by omega), arrayIx_add hr (by decide)]
    by_cases h : (s.ring fn r).st = .disabled <;> simp [h]

theorem State.writeFabCfg_eq (s : State) (v : Word32) : s.writeFabCfg v =
    if (s.mode .fabric).st = .off ∧ (s.mode .direct).st = .off then s.storeReg 0x01C01000 v
    else s.storeReg 0x01C01000 (BitVec.ofNat 32 (setBits v.toNat 0 16 (s.reg 0x01C01000))) := by
  simp only [State.writeFabCfg, Bool.and_eq_true, beq_iff_eq]

theorem regRow_isSome {r : RegRow} {a : Nat} (hr : r ∈ regRows) (h : (r.index a).isSome = true) : (regRow a).isSome = true :=
  List.find?_isSome.2 ⟨r, hr, h⟩

/-- The record `n` of a family of one dimension. -/
theorem RegRow.index_base {r : RegRow} {n : Nat} (h1 : r.stride2 = 0) (h2 : r.count2 = 1) (hs : 0 < r.stride) (hn : n < r.count) :
    r.index (r.base + r.stride * n) = some (n, 0) := by
  simp [RegRow.index, h1, h2, Nat.mul_div_cancel_left _ hs, hn]

/-- R73, R95: the group that guards a lane's, a group's or a framer's register. -/
theorem guardedGroup_eq (n : Fin 48) (g : Fin 6) :
    guardedGroup (0x00200000 + 0x40 * n) = some (n / 8) ∧ guardedGroup (0x0020000C + 0x40 * n) = some (n / 8) ∧
    guardedGroup (0x00201000 + 0x10 * g) = some g.val ∧ guardedGroup (0x00500000 + 0x10 * n) = some (n / 8) ∧
    guardedGroup (0x00501000 + 0x10 * g) = some g.val := by
  refine ⟨?cfg, ?eq, ?group, ?line, ?align⟩
  case cfg =>
    unfold guardedGroup
    simp (disch := omega) only [arrayIx_base]
    rfl
  case eq =>
    unfold guardedGroup
    rw [show 0x0020000C + 0x40 * (n : Nat) = 0x00200000 + 0x40 * n + 12 by omega, arrayIx_add n.isLt (by decide)]
    rfl
  case group =>
    unfold guardedGroup
    simp (disch := omega) only [arrayIx_base, arrayIx_none]
    rfl
  case line =>
    have hrow : (regRow (0x00500000 + 0x10 * n)).isSome = true :=
      regRow_isSome (r := { base := 0x00500000, stride := 0x10, count := 48, rw := 0x3F }) (by decide)
        (by rw [RegRow.index_base (n := n) rfl rfl (by decide) n.isLt]; rfl)
    unfold guardedGroup regPort
    simp (disch := omega) only [arrayIx_base, arrayIx_none, hrow, eq_self, and_true, if_pos]
    rfl
  case align =>
    have hrow : (regRow (0x00501000 + 0x10 * g)).isSome = true :=
      regRow_isSome (r := { base := 0x00501000, stride := 0x10, count := 6, reset := 3, rw := 0xF }) (by decide)
        (by rw [RegRow.index_base (n := g) rfl rfl (by decide) g.isLt]; rfl)
    unfold guardedGroup regPort
    simp (disch := omega) only [arrayIx_base, arrayIx_none, hrow, eq_self, and_true, if_pos]
    simp

/-- R33, R226, R330, R358, R430, R245: the registers that an applied word, a mode or lanes in use bar. -/
theorem State.writeBarred_eq (s : State) :
    (s.writeBarred 0x00100040 = s.applied ∧ s.writeBarred 0x0010004C = s.applied ∧ s.writeBarred 0x02800040 = s.applied ∧
      s.writeBarred 0x02800044 = s.applied ∧ s.writeBarred 0x02800048 = s.applied) ∧
    (s.writeBarred 0x01000008 = true ↔ (s.mode .cellar).st ≠ .off) ∧
    (s.writeBarred 0x0300000C = true ↔ (s.mode .cellar).st ≠ .off) ∧
    (∀ k < 3, s.writeBarred (0x02C00000 + 4 * k) = true ↔ (s.mode .twin).st ≠ .off) ∧
    (∀ j < 26, s.writeBarred (0x01C01100 + 0x10 * j) = true ↔ ∃ n ∈ s.lanesOf (48 + j), (s.lane n).st ≠ .off) := by
  refine ⟨⟨rfl, rfl, rfl, rfl, rfl⟩, ?_, ?_, ?twin, ?lanes⟩
  · simp [State.writeBarred]
  · simp [State.writeBarred]
  case twin =>
    intro k hk
    interval_cases k <;> simp [State.writeBarred]
  case lanes =>
    intro j hj
    unfold State.writeBarred
    simp (disch := omega) only [if_neg, arrayIx_base]
    simp

/-- Settles O38: one lemma for each way that `writeReg` branches. -/
theorem aRegisterWriteKeepsToItsRules : Obligations.ARegisterWriteKeepsToItsRules := by
  refine ⟨exec_registerWrite, fun off h => addrOfOff_lt h, fun s fn off v => ⟨fun h => ?served, fun h => ?unserved⟩,
    fun s fn v => s.writeReg_rows fn v, fun s fn a v hrow h => ?discarded, fun s fn a v hrow hb ho => ?hif,
    fun s fn a v hrow hd ho h38 h3C hb => ?plain, guardedGroup_eq, State.writeBarred_eq⟩
  case served => exact State.writeMw0_served ((s.servesReg_iff fn _).2 h) v
  case unserved => exact State.writeMw0_unserved (mt (s.servesReg_iff fn _).1 h) v
  case discarded => exact State.writeReg_discarded hrow ((s.discards_eq_true fn a).2 h)
  case hif =>
    have hf : (s.chip.d2dDown && fDieBlock a) = false := by rw [fDieBlock_hif hb, Bool.and_false]
    have hd := State.discards_eq_false hf ho (by omega) (by omega)
    rw [State.writeReg_hif hrow hd hb]
    exact s.writeHif_fields fn a v
  case plain =>
    have hdis := State.discards_eq_false hd ho h38 h3C
    refine ⟨fun g hg => State.writeReg_guarded hrow hdis hb hg, fun hg hw => State.writeReg_barred hrow hdis hb hg hw,
      fun hg hw => ?_⟩
    obtain ⟨fab, mac, view, other⟩ := State.writeReg_taken hrow hdis hb hg hw
    refine ⟨fun ha => (fab ha).trans ?_, mac, view, other⟩
    rw [State.writeFabCfg_eq, ha]

end Sys2Proof.Machine
end

section
/-! PROOF. O1: the queue is first in, first out. -/

namespace Sys2Proof.Machine

theorem step_of_pending_nil {s : State} (h : s.pending = []) : step s = .next (s.pass 1) := by
  rw [step, h]

theorem step_of_pending_cons {s : State} {c : Instr} {rest : List Instr} (h : s.pending = c :: rest) :
    step s = exec c { s with pending := rest } := by
  rw [step, h]

/-- Settles O1: the two forms of the queue. -/
theorem stepTakesTheFrontCommand : Obligations.StepTakesTheFrontCommand :=
  ⟨fun _ _ _ => step_of_pending_cons, fun _ => step_of_pending_nil⟩

end Sys2Proof.Machine
end

section
/-! PROOF. O17: sparse tables in canonical form are equal when they read alike. -/

namespace Sys2Proof.Machine.NMap

variable {α : Type}

theorem get_nil (d : α) (k : Nat) : get ([] : NMap α) d k = d := rfl

theorem get_cons_self (d : α) (j : Nat) (v : α) (t : NMap α) : get ((j, v) :: t) d j = v := by
  simp [get, find?_cons]

theorem get_cons_ne (d : α) {j k : Nat} (v : α) (t : NMap α) (h : k ≠ j) : get ((j, v) :: t) d k = get t d k := by
  simp [get, find?_cons, h.symm]

variable [DecidableEq α]

theorem wfFrom_cons {d : α} {lo : Option Nat} {j : Nat} {v : α} {t : NMap α} :
    wfFrom d lo ((j, v) :: t) = true ↔ (lo.all (· < j) = true ∧ v ≠ d) ∧ wfFrom d (some j) t = true := by
  simp only [wfFrom, Bool.and_eq_true, decide_eq_true_eq]

/-- No key up to the bound is listed. -/
theorem get_of_le {d : α} {l k : Nat} {m : NMap α} (h : wfFrom d (some l) m = true) (hk : k ≤ l) : m.get d k = d := by
  induction m generalizing l with
  | nil => rfl
  | cons e t ih =>
    obtain ⟨j, v⟩ := e
    obtain ⟨⟨hlt, -⟩, ht⟩ := wfFrom_cons.1 h
    have hj : l < j := of_decide_eq_true hlt
    rw [get_cons_ne d v t (by omega), ih ht (by omega)]

/-- No key below the first is listed. -/
theorem get_cons_of_lt {d : α} {lo : Option Nat} {j k : Nat} {v : α} {t : NMap α} (h : wfFrom d lo ((j, v) :: t) = true)
    (hk : k < j) : get ((j, v) :: t) d k = d := by
  rw [get_cons_ne d v t hk.ne, get_of_le (wfFrom_cons.1 h).2 hk.le]

/-- The first entry is seen in a read. -/
theorem get_head_ne {d : α} {lo : Option Nat} {j : Nat} {v : α} {t : NMap α} (h : wfFrom d lo ((j, v) :: t) = true) :
    get ((j, v) :: t) d j ≠ d := by
  rw [get_cons_self]
  exact (wfFrom_cons.1 h).1.2

/-- Equal contents are equal data: two tables that read alike begin with the same entry, and so on along their tails. -/
theorem eq_of_get_eq {d : α} {lo hi : Option Nat} {m n : NMap α} (hm : wfFrom d lo m = true) (hn : wfFrom d hi n = true)
    (h : ∀ k, m.get d k = n.get d k) : m = n := by
  induction m generalizing lo hi n with
  | nil =>
    cases n with
    | nil => rfl
    | cons e u => exact absurd (h e.1).symm (get_head_ne hn)
  | cons e t ih =>
    obtain ⟨j, v⟩ := e
    cases n with
    | nil => exact absurd (h j) (get_head_ne hm)
    | cons e u =>
      obtain ⟨k, w⟩ := e
      rcases lt_trichotomy j k with hjk | rfl | hkj
      · exact absurd ((h j).trans (get_cons_of_lt hn hjk)) (get_head_ne hm)
      · have hvw : v = w := by simpa only [get_cons_self] using h j
        have htu : ∀ i, get t d i = get u d i := fun i => by
          by_cases hi : i = j
          · rw [hi, get_of_le (wfFrom_cons.1 hm).2 le_rfl, get_of_le (wfFrom_cons.1 hn).2 le_rfl]
          · simpa only [get_cons_ne d _ _ hi] using h i
        rw [hvw, ih (wfFrom_cons.1 hm).2 (wfFrom_cons.1 hn).2 htu]
      · exact absurd ((h k).symm.trans (get_cons_of_lt hm hkj)) (get_head_ne hn)

end Sys2Proof.Machine.NMap

namespace Sys2Proof.Machine

/-- Settles O17: the rules of `put` and `upd`, and `NMap.eq_of_get_eq`. -/
theorem tablesStayCanonical : Obligations.TablesStayCanonical := fun _ _ d =>
  ⟨fun m k v => ⟨m.get_put_self d k v, m.wf_put d k v, fun _ h => m.get_put_ne d v d h⟩,
    fun m k f => ⟨m.get_upd_self d k f, m.wf_upd d k f⟩, fun _ _ => NMap.eq_of_get_eq⟩

end Sys2Proof.Machine
end

section
/-! PROOF. O26: punts, injects, landing, the crossbar and the die-to-die link. -/

namespace Sys2Proof.Machine

theorem exec_puntReservation_none {s : State} {dt : Nat} {fn : Fin 2} {ring : Fin 32}
    (h : takePunt fn ring (s.pass dt).byway.store = none) : exec (.puntReservation dt fn ring) s = .next (s.pass dt) := by
  simp only [exec, execPuntReservation, h, ans]

/-- The first stored frame of the ring leaves the store, and one of three things becomes of it. -/
theorem exec_puntReservation_some {s : State} {dt : Nat} {fn : Fin 2} {ring : Fin 32} {p : Punt} {rest : List (Nat × Nat × Punt)}
    (h : takePunt fn ring (s.pass dt).byway.store = some (p, rest)) :
    let v : State := { s.pass dt with byway := { (s.pass dt).byway with store := rest } }
    let g := v.ring fn (144 + ring)
    let n := ceilDiv (64 + p.pkt.data.length) (bufSize g)
    exec (.puntReservation dt fn ring) s = .next (if v.holds p.pkt.part = false then v.puntNotClaimed p
      else if g.st = .running ∧ g.fetchStop = false ∧ v.canWrite fn = true ∧ n ≤ g.posted.length then v.deliverPunt fn ring n p
      else v.ringShort fn ring p) := by
  simp only [exec, execPuntReservation, h, ans, Bool.not_eq_true', Bool.and_eq_true, beq_iff_eq, decide_eq_true_eq, and_assoc,
    apply_ite Host.Outcome.next]

/-- The head of the staging buffer crosses; `r` is what its policer, if it has one, makes of it. -/
theorem exec_stagingToLanding_crosses {s : State} {dt : Nat} {slice : Fin 4} {k : Pkt} {rest : List Pkt}
    {r : State × Passport × Bool} (hk : (s.pass dt).stagingOf slice = k :: rest) (hd : (s.pass dt).chip.d2dDown = false)
    (hroom : (s.pass dt).inBytes slice + k.data.length ≤ 65536)
    (hr : (let v := ((s.pass dt).updStaging slice fun _ => rest).pauseCheck k.pp.inPort
      if k.sb.polEn = true then v.police k.sb.policer k.pp else (v, k.pp, false)) = r) :
    exec (.stagingToLanding dt slice) s = .next (if r.2.2 = true then (r.1.capturePkt 3 k).dropRef k
      else r.1.enterCore slice { k with pp := r.2.1 }) := by
  have hfits : decide (65536 < (s.pass dt).inBytes slice + k.data.length) = false := decide_eq_false (Nat.not_lt.2 hroom)
  simp only [exec, execStagingToLanding, hk, hd, hfits, Bool.or_self, Bool.false_eq_true, if_false, ans, ← hr,
    apply_ite Host.Outcome.next]

theorem exec_stagingToLanding_full {s : State} {dt : Nat} {slice : Fin 4} {k : Pkt} {rest : List Pkt}
    (hk : (s.pass dt).stagingOf slice = k :: rest) (hfull : 65536 < (s.pass dt).inBytes slice + k.data.length) :
    exec (.stagingToLanding dt slice) s = .next (s.pass dt) := by
  simp only [exec, execStagingToLanding, hk, decide_eq_true hfull, Bool.or_true, if_true, ans]

theorem State.carryCell_begun {s : State} {i o : Nat} {x : Xfer} (h : s.switch.xfers.find? (i * 64 + o) = some x) :
    s.carryCell (i, o) = s.moveCell x := by
  simp only [State.carryCell, h, Option.isSome_some, if_true]

theorem State.carryCell_fresh {s : State} {i o : Nat} (h : s.switch.xfers.find? (i * 64 + o) = none) :
    s.carryCell (i, o) = match (s.beginXfer (i, o)).switch.xfers.find? (i * 64 + o) with
      | some x => (s.beginXfer (i, o)).moveCell x
      | none => s.beginXfer (i, o) := by
  simp only [State.carryCell, h, Option.isSome_none, Bool.false_eq_true, if_false] <;> rfl

theorem exec_d2dFlitCrcFail {s : State} {dt : Nat} {same : Bool} (hd : (s.pass dt).chip.d2dDown = false) :
    let n := if same then (s.pass dt).chip.d2dFails + 1 else 0
    let v : State := { s.pass dt with chip := { (s.pass dt).chip with d2dFails := n } }
    exec (.d2dFlitCrcFail dt same) s = .next
      (if 16 ≤ n then ({ v with chip := { v.chip with d2dDown := true } }).raise 0 evD2dDown else v.bump ⟨0x16, 2, 0⟩ 0) := by
  simp only [exec, execD2dFlitCrcFail, hd, Bool.false_eq_true, if_false, ans, apply_ite Host.Outcome.next]

/-- Settles O26: each row's cases in the order of its conditions. -/
theorem puntsInjectsAndSwitchCellsMove : Obligations.PuntsInjectsAndSwitchCellsMove := by
  refine ⟨?punt, fun s dt fn ring => exec_puntReservation_none, ?inject, ?landing, fun _ _ => rfl,
    fun s i o => ⟨fun x => State.carryCell_begun, State.carryCell_fresh⟩, fun s dt same => exec_d2dFlitCrcFail⟩
  case punt =>
    intro s dt fn ring p rest u v g n htake
    have hrow := exec_puntReservation_some htake
    have hclaimed (h : u.holds p.pkt.part = true) : ¬ v.holds p.pkt.part = false := ne_false_of_eq_true h
    refine ⟨fun hfree => ?_, fun hheld hst hf hw hn => ?_, fun hheld hshort => ?_⟩
    · exact hrow.trans (congrArg _ (if_pos hfree))
    · exact hrow.trans (congrArg _ ((if_neg (hclaimed hheld)).trans (if_pos ⟨hst, hf, hw, hn⟩)))
    · have hno : ¬ (g.st = .running ∧ g.fetchStop = false ∧ u.canWrite fn = true ∧ n ≤ g.posted.length) := by
        simpa only [not_and_or, Bool.not_eq_false, Bool.not_eq_true, Nat.not_le] using hshort
      exact hrow.trans (congrArg _ ((if_neg (hclaimed hheld)).trans (if_neg hno)))
  case inject =>
    intro s dt fn ring data e rest u g st v hg hst hf hw hd
    have hopen : (g.st != .running || g.fetchStop || !u.canWrite fn || u.chip.d2dDown) = false := by simp [hst, hf, hw, hd]
    simp only [exec, execInjectFrameRead, ans]
    rw [hg]
    exact if_neg (ne_true_of_eq_false hopen)
  case landing =>
    intro s dt slice k rest u v r hk hd
    refine ⟨exec_stagingToLanding_full hk, fun hroom hpol => ?_, fun hroom hpol => ?_⟩
    · exact exec_stagingToLanding_crosses hk hd hroom (if_neg (ne_true_of_eq_false hpol))
    · exact exec_stagingToLanding_crosses hk hd hroom (if_pos hpol)

end Sys2Proof.Machine
end

section
/-! PROOF. O13: what reset leaves in the device. -/

namespace Sys2Proof.Machine

/-- A table that holds one value at the places `b + i`. -/
theorem NMap.find?_map_add {α : Type} (b : Nat) (v : α) (l : List Nat) (k : Nat) :
    NMap.find? (l.map fun i => (b + i, v)) k = if ∃ i ∈ l, b + i = k then some v else none := by
  induction l with
  | nil => simp
  | cons i t ih =>
    rw [List.map_cons, NMap.find?_cons, ih]
    by_cases h : b + i = k <;> simp [h]

/-- R440: of the domains with a state of their own, the HBM channel groups' start. -/
theorem State.domain_reset_st (d : Nat) : (State.reset.domain d).st = if 184 ≤ d ∧ d < 200 then .starting else .off := by
  have hmem : (∃ i ∈ List.range 16, 184 + i = d) ↔ 184 ≤ d ∧ d < 200 := by
    simp only [List.mem_range]
    exact ⟨fun ⟨i, hi, hd⟩ => by omega, fun h => ⟨d - 184, by omega, by omega⟩⟩
  have hfind : resetDomains.find? d = if 184 ≤ d ∧ d < 200 then some { st := .starting } else none := by
    simp only [resetDomains, NMap.find?_map_add, hmem]
  change ((resetDomains.find? d).getD {}).st = _
  rw [hfind]
  split_ifs <;> rfl

/-- R437: from 152 on a domain has a state of its own; below, it follows a lane group or a mode. -/
theorem domKind_of_le {d : Nat} (h : 152 ≤ d) : domKind d ≠ .line ∧ domKind d ≠ .fab ∧ domKind d ≠ .tw := by
  unfold domKind
  rw [if_neg (by omega), if_neg (by omega), if_neg (by omega)]
  split_ifs <;> exact ⟨DomKind.noConfusion, DomKind.noConfusion, DomKind.noConfusion⟩

theorem State.group_reset_st (g : Nat) : (State.reset.group g).st = .off := rfl
theorem State.mode_reset_st (m : Mode) : (State.reset.mode m).st = .off := rfl

theorem State.domainSt_reset (d : Nat) : State.reset.domainSt d = if 184 ≤ d ∧ d < 200 then .starting else .off := by
  by_cases h : 152 ≤ d
  · obtain ⟨hline, hfab, htw⟩ := domKind_of_le h
    unfold State.domainSt
    split
    · contradiction
    · contradiction
    · contradiction
    · exact State.domain_reset_st d
  · rw [if_neg (by omega)]
    unfold State.domainSt
    split
    · exact ite_self _
    · exact ite_self _
    · exact State.mode_reset_st .twin
    · rw [State.domain_reset_st, if_neg (by omega)]

theorem State.pool_reset_of_ne {p : Nat} (h : p ≠ 0) : State.reset.pool p = {} := by
  simp [State.pool, State.reset, resetPools, NMap.get, NMap.find?_cons, h.symm]

/-- R452: a register that nothing has written holds its row's value. -/
theorem State.reg_reset (a : Nat) : State.reset.reg a = regReset a % 2 ^ 32 := BitVec.toNat_ofNat ..

/-- R247: no class has a deadline of its own yet. -/
theorem State.deadlineNs_reset (p : Nat) : State.reset.deadlineNs p = resetDeadline := rfl

/-- Settles O13: the tables with an entry at reset are the domains' and the pools'; every other table is empty. -/
theorem resetLeavesTheStatedValues : Obligations.ResetLeavesTheStatedValues := by
  refine ⟨rfl, rfl, fun p hp => ?pools, fun p _ => ⟨?deadlines, rfl⟩, fun d _ => State.domainSt_reset d,
    fun g _ => State.group_reset_st g, State.mode_reset_st, fun _ => rfl, rfl, rfl, rfl, fun _ => rfl, fun _ _ => rfl,
    State.reg_reset⟩
  case pools => rw [State.pool_reset_of_ne hp]
  case deadlines => rw [State.deadlineNs_reset]; rfl

end Sys2Proof.Machine
end

section
/-! PROOF. O22: the mode commands, the plan of a word, and the ends of its transitions. -/

namespace Sys2Proof.Machine

/-! ### MODE_APPLY (R33, R38) -/

/-- A write that reaches a shared register: PF1's is discarded (R49). -/
theorem State.sharedWrite_served {s : State} {fn : Nat} (hu : s.hostUp = true) (hs : s.serves fn = true) (off : Nat)
    (k : State → State) : s.sharedWrite fn off k = if fn = 1 then s else k s := by
  simp only [State.sharedWrite, State.mw0, hu, hs, Bool.not_true, Bool.false_eq_true, if_false, beq_iff_eq]

theorem exec_modeApply {s : State} {dt : Nat} {fn : Fin 2} (hu : (s.pass dt).hostUp = true) (hs : (s.pass dt).serves fn = true)
    (v : Word32) :
    let u := s.pass dt
    exec (.modeApply dt fn v) s = .next (if u.applied = true ∨ v.getLsbD 0 = false ∨ fn = 1 then u
      else if u.modes.plan ≠ [] then { u with modes := { u.modes with applyWait := true } } else u.modeApply) := by
  change execModeApply dt fn v s = _
  unfold execModeApply
  generalize s.pass dt = u at *
  have hfn : (fn : Nat) = 1 ↔ fn = 1 := by omega
  rw [State.sharedWrite_served hu hs]
  by_cases h1 : fn = 1
  · simp [h1, ans]
  · simp [h1, hfn, or_comm, ans]

/-- R33: the status of the checks is recorded, and a word that passes them is applied with the split of PART_GROUPS. -/
theorem State.modeApply_eq (s : State) : s.modeApply =
    if s.wordCheck (s.reg 0x00100040) (s.regF 0x0010004C 0 6) false = stOk then
      ({ s with modes := { s.modes with lastStatus := stOk, applied := true, split := s.regF 0x0010004C 0 6 } }).applyWord
        (s.reg 0x00100040) none
    else { s with modes := { s.modes with lastStatus := s.wordCheck (s.reg 0x00100040) (s.regF 0x0010004C 0 6) false } } := by
  by_cases h : s.wordCheck (s.reg 0x00100040) (s.regF 0x0010004C 0 6) false = stOk
  · simp only [State.modeApply, State.lastStatus, h, ne_eq, not_true_eq_false, if_false, if_true]
  · simp only [State.modeApply, State.lastStatus, h, ne_eq, not_false_eq_true, if_false, if_true]

/-! ### SET_MODE and PART_ASSIGN (R35) -/

theorem exec_setMode (a : Accepted setModeSpec) {o : Out} (h : setModeBody a.t (a.s.cmdOf a.i a.d) a.x = o) :
    exec (.setMode a.i) a.s = .next (a.does o) := congrArg Host.Outcome.next (a.run_of h)

theorem exec_partAssign (a : Accepted partAssignSpec) {o : Out} (h : partAssignBody a.t (a.s.cmdOf a.i a.d) a.x = o) :
    exec (.partAssign a.i) a.s = .next (a.does o) := congrArg Host.Outcome.next (a.run_of h)

section SetMode
variable {s : State} {c : Cmd} {x : Nat}

theorem setModeBody_of_PF1 (h : c.fn = 1) : setModeBody s c x = .fail s stProtected := if_pos h

variable (hfn : c.fn = 0)
include hfn

/-- R38: behind a running plan. -/
theorem setModeBody_behind (hp : s.modes.plan ≠ []) : setModeBody s c x = .wait s (.modeTurn false x) := by
  simp [setModeBody, hfn, hp]

theorem setModeBody_reserved (hp : s.modes.plan = []) (hx : bits x 32 32 ≠ 0) :
    setModeBody s c x = .fail (s.lastStatus stBadArg) stBadArg := by
  simp [setModeBody, hfn, hp, hx, show stBadArg ≠ stOvercommit by decide, show stBadArg ≠ stOk by decide]

/-- R35, R262: the word's checks decide. -/
theorem setModeBody_word (hp : s.modes.plan = []) (hx : bits x 32 32 = 0) :
    let st := s.wordCheck (bits x 0 32) s.modes.split true
    let t := ((s.lastStatus stOk).setReg 0x00100040 (bits x 0 32)).applyWord (bits x 0 32) (some (c.fn, c.ring))
    setModeBody s c x =
      if st = stOvercommit ∧ s.wordCheck (bits x 0 32) s.modes.split true false = stOk then .wait s .capacity
      else if st ≠ stOk then .fail (s.lastStatus st) st
      else if t.modes.plan = [] then .ok { t with modes := { t.modes with owner := none } } else .wait t .modeDone := by
  simp only [setModeBody, hfn, hp, hx]
  by_cases hst : s.wordCheck (bits x 0 32) s.modes.split true = stOk
  · simp [hst]
  · simp [hst]

end SetMode

section PartAssign
variable {s : State} {x : Nat} (c : Cmd)

theorem partAssignBody_reserved (h : bits x 6 58 ≠ 0) : partAssignBody s c x = .fail s stBadArg := if_pos h

variable (h : bits x 6 58 = 0)
include h

theorem partAssignBody_behind (hp : s.modes.plan ≠ []) : partAssignBody s c x = .wait s (.modeTurn true x) := by
  simp [partAssignBody, h, hp]

theorem partAssignBody_off (hp : s.modes.plan = []) (hg : ∀ g < 6, (s.group g).st = .off) : partAssignBody s c x =
    .ok ({ s with modes := { s.modes with split := bits x 0 6 } }.setReg 0x0010004C (bits x 0 6)) := by
  have hnone : ((List.range 6).any fun g => (s.group g).st != .off) = false := by simpa using hg
  simp [partAssignBody, h, hp, hnone]

theorem partAssignBody_in_use (hp : s.modes.plan = []) (hg : ∃ g < 6, (s.group g).st ≠ .off) :
    partAssignBody s c x = .fail s stBadArg := by
  have hsome : ((List.range 6).any fun g => (s.group g).st != .off) = true := by simpa using hg
  simp [partAssignBody, h, hp, hsome]

end PartAssign

/-! ### Transitions (R36, R39, R151) -/

theorem exec_modeStartingDone {s : State} {dt : Nat} {m : Mode} (hst : ((s.pass dt).mode m).st = .starting)
    (hp : (s.pass dt).modes.plan.head? = some (m, true)) (hr : (s.pass dt).modeReady m = true) :
    exec (.modeStartingDone dt m) s = .next ((s.pass dt).modeOn m).modeNext :=
  if_pos (by rw [hst, hp, hr]; simp)

theorem exec_modeQuiescingDone {s : State} {dt : Nat} {m : Mode} (hst : ((s.pass dt).mode m).st = .quiescing)
    (hp : (s.pass dt).modes.plan.head? = some (m, false)) (hd : (s.pass dt).modeDrained m = true) :
    exec (.modeQuiescingDone dt m) s = .next ((s.pass dt).modeOff m).modeNext :=
  if_pos (by rw [hst, hp, hd]; simp)

theorem exec_partitionTransitionBegin {s : State} {dt : Nat} {up : Bool} (hp : (s.pass dt).modes.plan.head? = some (.partition, up))
    (hw : (s.pass dt).modes.partWait = true) (ha : (s.pass dt).epochsSettled 0 = true) (hb : (s.pass dt).epochsSettled 1 = true) :
    let u := s.pass dt
    let v := ({ u with modes := { u.modes with partWait := false } }).showOwner
    exec (.partitionTransitionBegin dt) s = .next (if up then v.modeUp .partition else v.modeDown .partition) := by
  obtain ⟨rest, hplan⟩ := List.head?_eq_some_iff.1 hp
  change execPartitionTransitionBegin dt s = _
  unfold execPartitionTransitionBegin
  generalize s.pass dt = u at *
  simp only [hplan, hw, ha, hb, Bool.and_self, if_true, ans, apply_ite Host.Outcome.next]

theorem State.linkLit_iff (s : State) (j : Nat) : s.linkLit j = true ↔ ∀ n ∈ s.lanesOf (48 + j), (s.lane n).st ≠ .txOn := by
  simp [State.linkLit]

theorem State.ringsCut_iff (s : State) (fn : Nat) (all : Bool) :
    s.ringsCut fn all = true ↔ ∀ r < 64, (all || ringBeyond r) = true → (s.ring fn r).st = .disabled := by
  simp only [State.ringsCut, List.all_eq_true, List.mem_range, Bool.or_eq_true, Bool.not_eq_true', beq_iff_eq, ← Bool.not_eq_true,
    imp_iff_not_or]

/-- R39: what running resources are, mode by mode. -/
theorem State.modeReady_iff (s : State) (m : Mode) : s.modeReady m = true ↔ match m with
    | .gated => ∀ e ∈ s.tm.gates, e.2.counted = none ∨ e.2.startsAt ≤ s.follower
    | .partition => ∀ r < 64, ringBeyond r = true → (s.ring 0 r).st = .disabled
    | .transport => True
    | .cellar => True
    | .fabric => ∀ j < 24, ∀ n ∈ s.lanesOf (48 + j), (s.lane n).st ≠ .txOn
    | .direct => ∀ j < 24, ∀ n ∈ s.lanesOf (48 + j), (s.lane n).st ≠ .txOn
    | .twin => ∀ j, j = 24 ∨ j = 25 → ∀ n ∈ s.lanesOf (48 + j), (s.lane n).st ≠ .txOn := by
  cases m with
  | gated => simp only [State.modeReady, List.all_eq_true, Bool.or_eq_true, Option.isNone_iff_eq_none, decide_eq_true_eq]
  | partition => exact s.ringsCut_iff 0 false
  | transport => exact iff_of_true rfl trivial
  | cellar => exact iff_of_true rfl trivial
  | fabric => simp only [State.modeReady, modeLinks, List.all_eq_true, List.mem_range, State.linkLit_iff]
  | direct => simp only [State.modeReady, modeLinks, List.all_eq_true, List.mem_range, State.linkLit_iff]
  | twin =>
    simp only [State.modeReady, modeLinks, List.all_eq_true, List.mem_cons, List.not_mem_nil, or_false, State.linkLit_iff]

/-- Settles O22: one lemma for each way that a command branches, and `State.modeReady_iff`. -/
theorem modeCommandsAndTransitionsFollowTheWord : Obligations.ModeCommandsAndTransitionsFollowTheWord := by
  have htaken {u : State} {v : Word32} (hv : v.getLsbD 0 = true) (ha : u.applied = false) :
      ¬ (u.applied = true ∨ v.getLsbD 0 = false ∨ (0 : Fin 2) = 1) := by simp [ha, hv]
  refine ⟨fun s dt v hu hs hv ha hp => ?apply, fun s dt v hu hs hv ha hp => ?applyBehind,
    fun s dt fn v hu hs h => (exec_modeApply hu hs v).trans (congrArg _ (if_pos h)),
    fun a h => exec_setMode a (setModeBody_of_PF1 (congrArg Fin.val h)),
    fun a h hp => exec_setMode a (setModeBody_behind (congrArg Fin.val h) hp), fun a h hp hx => ⟨_, rfl, ?word⟩,
    fun a h hp hx => exec_setMode a (setModeBody_reserved (congrArg Fin.val h) hp hx),
    fun a h => exec_partAssign a (partAssignBody_reserved _ h), fun a h hp => exec_partAssign a (partAssignBody_behind _ h hp),
    fun a h hp hg => exec_partAssign a (partAssignBody_off _ h hp hg),
    fun a h hp hg => exec_partAssign a (partAssignBody_in_use _ h hp hg), fun s dt m => exec_modeStartingDone,
    fun s dt m => exec_modeQuiescingDone, fun s dt up => exec_partitionTransitionBegin, State.modeReady_iff,
    fun s w owner => ⟨rfl, rfl⟩⟩
  case apply => rw [exec_modeApply hu hs v, if_neg (htaken hv ha), if_neg (not_not.2 hp), State.modeApply_eq]
  case applyBehind => rw [exec_modeApply hu hs v, if_neg (htaken hv ha), if_pos hp]
  case word =>
    rw [exec_setMode a (setModeBody_word (congrArg Fin.val h) hp hx)]
    simp only [apply_ite a.does]
    rfl

end Sys2Proof.Machine
end

section
/-! PROOF. Rules: a host's write to MW0 (R6, R363, R370), and what counting leaves to the ports. -/

namespace Sys2Proof.Machine

theorem State.mw0_down {s : State} (hu : s.hostUp = false) (fn off : Nat) (k : State → State) : s.mw0 fn off k = s := by
  simp [State.mw0, hu]

theorem State.mw0_unserved {s : State} {fn : Nat} (hu : s.hostUp = true) (hs : s.serves fn = false) (off : Nat)
    (k : State → State) : s.mw0 fn off k = s.badAccess fn off := by
  simp [State.mw0, hu, hs]

theorem State.mw0_served {s : State} {fn : Nat} (hu : s.hostUp = true) (hs : s.serves fn = true) (off : Nat)
    (k : State → State) : s.mw0 fn off k = k s := by
  simp [State.mw0, hu, hs]

/-- Counting and raising events leave ownership as it is. -/
theorem State.Beside.portPart {s t : State} (h : s.Beside t) (p : Nat) : t.portPart p = s.portPart p :=
  show t.aside.portPart p = s.aside.portPart p by rw [h.rest]

theorem State.portPart_bumpNz (s : State) (c : CtrName) (ix n p : Nat) : (s.bumpNz c ix n).portPart p = s.portPart p := by
  unfold State.bumpNz
  split
  · rfl
  · exact (State.bump_beside ..).portPart p

end Sys2Proof.Machine
end

section
/-! PROOF. O23: the steps of a lane and of its port, PRBS and remote faults. -/

namespace Sys2Proof.Machine

/-! ### Lanes change their state (R65, R78) -/

/-- The lane enters `st` now; nothing is counted. -/
def State.setLane (s : State) (n : Nat) (st : LaneSt) : State := s.updLane n fun l => { l with st := st, since := s.cyc }

theorem State.moveLane_eq (s : State) (n : Nat) (st : LaneSt) : s.moveLane n st =
    if ((s.lane n).st = .pcsUp ∨ (s.lane n).st = .rxLock) ∧ st.code < (s.lane n).st.code then
      (s.setLane n st).bump ⟨2, 0, 2⟩ n
    else s.setLane n st := by
  simp only [State.moveLane, Bool.and_eq_true, Bool.or_eq_true, beq_iff_eq, decide_eq_true_eq]
  rfl

/-- Only a lane in RX_LOCK or PCS_UP has a lock to lose. -/
theorem State.moveLane_unlocked {s : State} {n : Nat} {was : LaneSt} (h : (s.lane n).st = was) (hup : was ≠ .pcsUp)
    (hlock : was ≠ .rxLock) (st : LaneSt) : s.moveLane n st = s.setLane n st := by
  rw [s.moveLane_eq, h, if_neg fun hl => hl.1.elim hup hlock]

theorem exec_laneTxSettled {s : State} {dt : Nat} {lane : Fin 152} (h : ((s.pass dt).lane lane).st = .txOn) :
    let u := s.pass dt
    let t := u.setLane lane (if u.prbsOn lane then .prbs else .rxSignal)
    exec (.laneTxSettled dt lane) s = .next (match t.portOfLane lane with
      | none => t
      | some p => if (t.lanesOf p).any (fun n => (t.lane n).st == .txOn) then t else t.beginAttempt p) := by
  change execLaneTxSettled dt lane s = _
  unfold execLaneTxSettled
  generalize s.pass dt = u at *
  have hmove := State.moveLane_unlocked h (by decide) (by decide)
  simp only [h, bne_self_eq_false, Bool.false_eq_true, if_false, hmove]
  split <;> rename_i hp <;> simp only [hp, ans, apply_ite Host.Outcome.next]

theorem exec_signalQualified {s : State} {dt : Nat} {lane : Fin 152} (h : ((s.pass dt).lane lane).st = .rxSignal)
    (hms : ((s.pass dt).lane lane).since + cycMs ≤ (s.pass dt).cyc) :
    let t := (s.pass dt).setLane lane .rxAdapt
    exec (.signalQualified dt lane) s = .next (match t.portOfLane lane with
      | none => t
      | some p => t.updPort p fun q => { q with adapted := true }) := by
  change execSignalQualified dt lane s = _
  unfold execSignalQualified
  generalize s.pass dt = u at *
  have hmove := State.moveLane_unlocked h (by decide) (by decide)
  simp only [h, hms, hmove, beq_self_eq_true, decide_true, Bool.and_self, if_true]
  split <;> rename_i hp <;> simp only [hp, ans]

theorem exec_laneAdapted {s : State} {dt : Nat} {lane : Fin 152} (h : ((s.pass dt).lane lane).st = .rxAdapt) :
    exec (.laneAdapted dt lane) s = .next ((s.pass dt).setLane lane .rxLock) := by
  rw [← State.moveLane_unlocked h (by decide) (by decide)]
  exact if_pos (by simp [h])

/-! ### Alignment of a port (R65, R72) -/

/-- R91: every interface of a framer line is in frame, and none is in excess skew. -/
def State.framed (s : State) (p : Nat) : Prop :=
  ∀ n ∈ s.lanesOf p, (s.level n).inFrame = true ∧ bit (s.entDefects (p / 8) 1 n) 0 = false

theorem State.framed_iff (s : State) (p : Nat) :
    ((s.lanesOf p).all fun n => (s.level n).inFrame && !bit (s.entDefects (p / 8) 1 n) 0) = true ↔ s.framed p := by
  simp only [State.framed, List.all_eq_true, Bool.and_eq_true, Bool.not_eq_true']

theorem exec_pcsAligned_early {s : State} {dt : Nat} {p : Fin 74}
    (h : (s.pass dt).lanesAll p .rxLock = false ∨ (s.pass dt).isFramerLine p = true ∧ ¬ (s.pass dt).framed p) :
    exec (.pcsAligned dt p) s = .next (s.pass dt) := by
  refine if_pos ?_
  rcases h with hl | ⟨hf, hn⟩
  · simp [hl]
  · simp [hf, Bool.eq_false_iff.2 (mt ((s.pass dt).framed_iff p).1 hn)]

theorem exec_pcsAligned {s : State} {dt : Nat} {p : Fin 74} (hl : (s.pass dt).lanesAll p .rxLock = true)
    (hf : (s.pass dt).isFramerLine p = true → (s.pass dt).framed p) :
    let u := s.pass dt
    let t := (u.updLanes p fun l => { l with st := .pcsUp, since := u.cyc, noPartner := false, noLock := false }).updPort p fun q =>
      { q with attempt := none, failedAt := none, noLockRun := 0 }
    exec (.pcsAligned dt p) s = .next (if 48 ≤ p.val then t.linkLanesUp (p - 48)
      else if t.isFramerLine p = true then (t.raise (t.portPart p) evLinkUp p 14).refreshGroup (p / 8)
      else (t.raise (t.portPart p) evLinkUp p (t.port p).typ).portReturns p) := by
  intro u t
  simp only [apply_ite Host.Outcome.next]
  refine if_neg ?_
  cases hline : u.isFramerLine p with
  | false => simp [hl]
  | true => simp [u, hl, (u.framed_iff p).2 (hf hline)]

/-! ### Losses (R65, R69, R244) -/

theorem State.partnerIdle_iff (s : State) (p : Nat) : s.partnerIdle p = true ↔ 48 ≤ p ∧ (s.link (p - 48)).rxIdle = true := by
  simp only [State.partnerIdle, Bool.and_eq_true, decide_eq_true_eq]

theorem State.laneIdle_iff (s : State) (n : Nat) : s.laneIdle n = true ↔ 48 ≤ n ∧ (s.link ((n - 48) / 4)).rxIdle = true := by
  simp only [State.laneIdle, Bool.and_eq_true, decide_eq_true_eq, State.partnerIdle_iff, Nat.le_add_right, true_and,
    Nat.add_sub_cancel_left]

section Loss
variable {s : State} {dt : Nat} {lane : Fin 152}

theorem exec_loss_idle (h : (s.pass dt).laneIdle lane = true) :
    exec (.lossOfSignal dt lane) s = .next (s.pass dt) ∧ exec (.lossOfLock dt lane) s = .next (s.pass dt) :=
  ⟨if_pos h, if_pos h⟩

variable (hidle : (s.pass dt).laneIdle lane = false)
include hidle

theorem exec_lossOfSignal_adapting (h : ((s.pass dt).lane lane).st = .rxAdapt) :
    let t := (s.pass dt).setLane lane .rxSignal
    exec (.lossOfSignal dt lane) s = .next (if lane.val < 48 then t.raise (t.portPart lane) evLanePartnerLost lane else t) := by
  change execLossOfSignal dt lane s = _
  unfold execLossOfSignal
  generalize s.pass dt = u at *
  have hmove := State.moveLane_unlocked h (by decide) (by decide)
  simp only [hidle, h, hmove, Bool.false_eq_true, if_false, ans, apply_ite Host.Outcome.next]

theorem exec_loss_locked (h : ((s.pass dt).lane lane).st = .rxLock ∨ ((s.pass dt).lane lane).st = .pcsUp) :
    exec (.lossOfSignal dt lane) s = .next ((s.pass dt).laneFalls lane .rxSignal 0) ∧
    exec (.lossOfLock dt lane) s = .next ((s.pass dt).laneFalls lane .rxAdapt 1) := by
  change execLossOfSignal dt lane s = _ ∧ execLossOfLock dt lane s = _
  unfold execLossOfSignal execLossOfLock
  generalize s.pass dt = u at *
  rcases h with h | h <;> simp only [hidle, h, Bool.false_eq_true, if_false, ans, and_self]

end Loss

theorem State.portToLock_eq (s : State) (p cause : Nat) : s.portToLock p cause = if s.pcsUp p = false then s
    else ((s.lanesOf p).foldl (fun s m => s.moveLane m .rxLock) s).portLeaves p cause := by
  cases h : s.pcsUp p <;> simp [State.portToLock, h]

theorem exec_pcsAlignmentLost (s : State) (dt : Nat) (p : Fin 74) : exec (.pcsAlignmentLost dt p) s = .next
    (if (s.pass dt).partnerIdle p = true then s.pass dt else (s.pass dt).portToLock p 2) := rfl

theorem exec_highSer (s : State) (dt : Nat) (p : Fin 74) : exec (.highSer dt p) s = .next
    (if (s.pass dt).partnerIdle p = true ∨ (s.pass dt).kp4 p = false then s.pass dt else (s.pass dt).portToLock p 3) := by
  change execHighSer dt p s = _
  unfold execHighSer
  generalize s.pass dt = u
  have hacts : (u.kp4 p && !u.partnerIdle p) = true ↔ ¬ (u.partnerIdle p = true ∨ u.kp4 p = false) := by simp [and_comm]
  simp only [hacts, ite_not, ans, apply_ite Host.Outcome.next]

theorem State.kp4_of_line (s : State) {p : Nat} (h : p < 48) :
    s.kp4 p = true ↔ (s.port p).typ ∈ [5, 7, 8, 9, 10, 11, 12, 13, 14] := by
  rw [State.kp4, if_pos h, decide_eq_true_eq]

theorem State.kp4_of_link (s : State) {p : Nat} (h : 48 ≤ p) : s.kp4 p = true ↔ (s.lane (48 + 4 * (p - 48))).rate ≠ 1 := by
  rw [State.kp4, if_neg (Nat.not_lt.2 h), bne_iff_ne]

/-! ### Failed attempts (R67, R68) -/

theorem exec_lockTimeout {s : State} {dt t0 : Nat} {p : Fin 74} (ha : ((s.pass dt).port p).attempt = some t0)
    (ht : t0 + (s.pass dt).lockTimeoutCyc ≤ (s.pass dt).cyc) :
    let u := s.pass dt
    let t := (u.updPort p fun q => { q with attempt := none, failedAt := some u.cyc
                                            noLockRun := if (u.port p).adapted then q.noLockRun + 1 else 0 }).updLanes p fun l =>
      { l with noLock := l.noLock || (u.port p).adapted, noPartner := l.noPartner || !(u.port p).adapted
               attempts := min 15 (l.attempts + 1) }
    exec (.lockTimeout dt p) s = .next (if 48 ≤ p.val then t
      else if (u.port p).adapted then (t.raise (t.portPart p) evLaneNoLock p ((t.lane p).rate + t.notLocked p * 256)).ladder p
      else t.raise (t.portPart p) evLaneNoPartner p (t.lane p).rate) := by
  change execLockTimeout dt p s = _
  unfold execLockTimeout
  generalize s.pass dt = u at *
  simp only [ha, if_neg (Nat.not_lt.2 ht), ans, apply_ite Host.Outcome.next]

theorem exec_retryInterval {s : State} {dt t0 : Nat} {p : Fin 74} (hf : ((s.pass dt).port p).failedAt = some t0)
    (ht : t0 + (s.pass dt).retryCyc ≤ (s.pass dt).cyc) (hup : (s.pass dt).pcsUp p = false) :
    exec (.retryInterval dt p) s = .next ((((s.pass dt).lanesOf p).foldl (fun s n =>
      if (s.lane n).st == .rxAdapt || (s.lane n).st == .rxLock || (s.lane n).st == .rxSignal then s.moveLane n .rxSignal else s)
      (s.pass dt)).beginAttempt p) := by
  change execRetryInterval dt p s = _
  unfold execRetryInterval
  generalize s.pass dt = u at *
  simp only [hf, decide_eq_false (Nat.not_lt.2 ht), hup, Bool.or_self, Bool.false_eq_true, if_false, ans]

/-! ### PRBS (R75 to R77) -/

@[simp] theorem State.lane_storeReg (s : State) (a : Nat) (v : Word32) (n : Nat) : (s.storeReg a v).lane n = s.lane n := by
  unfold State.storeReg
  split <;> rfl

/-- A pattern that acts takes the lane out of service (R76); a checker stays locked only to the pattern that it is locked to. -/
def State.prbsStart (u t : State) (n : Nat) : State :=
  (if (u.lane n).st = .prbs then t else t.laneFalls n .prbs 4).updLane n fun l =>
    { l with prbsLock := if (u.lane n).st = .prbs ∧ u.prbsCode n 4 = t.prbsCode n 4 then l.prbsLock else false }

/-- Both patterns off: a normal attempt begins (R76). -/
def State.prbsStop (t : State) (n : Nat) : State :=
  match t.portOfLane n with
  | none => (t.moveLane n .rxSignal).updLane n fun l => { l with prbsLock := false }
  | some p => ((t.moveLane n .rxSignal).updLane n fun l => { l with prbsLock := false }).beginAttempt p

@[simp] theorem State.portOfLane_setLane (s : State) (n m : Nat) (st : LaneSt) (f : Lane → Lane) :
    ((s.setLane n st).updLane n f).portOfLane m = s.portOfLane m := rfl

theorem exec_prbsPatternSet {s : State} {dt : Nat} {fn : Fin 2} {lane : Fin 48} (hu : (s.pass dt).hostUp = true)
    (hs : (s.pass dt).serves fn = true) (ho : (s.pass dt).ownsGroup fn (lane / 8) = true) (hd : (s.pass dt).chip.d2dDown = false)
    (v : Word32) :
    let u := s.pass dt
    let t := u.storeReg (0x00200008 + 0x40 * lane) v
    exec (.prbsPatternSet dt fn lane v) s = .next (if (u.lane lane).st = .off then t
      else if t.prbsOn lane = true then u.prbsStart t lane
      else if (u.lane lane).st = .prbs then t.prbsStop lane else t) := by
  change execPrbsPatternSet dt fn lane v s = _
  unfold execPrbsPatternSet
  generalize s.pass dt = u at *
  rw [State.mw0_served hu hs]
  simp only [ho, hd, Bool.not_true, Bool.or_self, Bool.false_eq_true, if_false, State.lane_storeReg, beq_iff_eq, ans]
  generalize ht : u.storeReg (0x00200008 + 0x40 * lane.val) v = t
  have hlane : (t.lane lane).st = (u.lane lane).st := by rw [← ht, State.lane_storeReg]
  congr 1
  split_ifs with hoff hon hp hp
  · rfl
  · simp only [State.prbsStart, hp, if_true, true_and, beq_self_eq_true, Bool.and_true]
    by_cases hc : u.prbsCode lane 4 = t.prbsCode lane 4
    · simp only [hc, beq_self_eq_true, Bool.and_true, if_true]
    · simp only [hc, beq_eq_false_iff_ne.2 hc, Bool.and_false, if_false]
  · simp only [State.prbsStart, hp, if_false, false_and, beq_eq_false_iff_ne.2 hp, Bool.and_false, Bool.false_and]
  · have hmove := State.moveLane_unlocked (hlane.trans hp) (by decide) (by decide)
    cases hport : t.portOfLane lane <;> simp only [State.prbsStop, hmove, State.portOfLane_setLane, hport]
  · rfl

theorem exec_prbsCheckerLock {s : State} {dt : Nat} {lane : Fin 48} (h : ((s.pass dt).lane lane).st = .prbs)
    (hrx : prbsActs ((s.pass dt).regF (0x00200008 + 0x40 * lane) 4 4) ((s.pass dt).lane lane).rate ≠ 0) :
    exec (.prbsCheckerLock dt lane) s = .next ((s.pass dt).updLane lane fun l => { l with prbsLock := true }) :=
  if_pos (by simp [h, hrx])

theorem exec_prbsLockLost (s : State) (dt n : Nat) (lane : Fin 48) :
    let u := s.pass dt
    let t := u.bumpNz ⟨2, 0, 0⟩ lane n
    exec (.prbsLockLost dt lane n) s = .next (if (u.lane lane).prbsLock = false then u else if n ≤ 32 then t
      else (t.updLane lane fun l => { l with prbsLock := false }).raise (u.portPart lane) evPrbsLockLost lane) := by
  intro u t
  have hpart : (t.updLane lane fun l => { l with prbsLock := false }).portPart lane = u.portPart lane :=
    State.portPart_bumpNz ..
  rw [← hpart]
  simp only [← Bool.not_eq_true', apply_ite Host.Outcome.next]
  rfl

theorem exec_remoteFaultReceived (s : State) (dt : Nat) (p : Fin 48) (b : Bool) :
    let u := (s.pass dt).updPort p fun q => { q with remoteFault := b }
    exec (.remoteFaultReceived dt p b) s = .next (if b = true then u else u.pauseCheck p) := rfl

/-- Settles O23: one lemma for each way that a row goes, and what a lane's change of state counts (`State.moveLane_eq`). -/
theorem lanesWalkTheBringUpStates : Obligations.LanesWalkTheBringUpStates := by
  refine ⟨State.moveLane_eq, fun s dt lane h => ⟨_, rfl, exec_laneTxSettled h⟩,
    fun s dt lane h hms => ⟨_, rfl, exec_signalQualified h hms⟩, fun s dt lane => exec_laneAdapted,
    fun s dt p => ⟨exec_pcsAligned_early, exec_pcsAligned⟩,
    fun s dt lane hi h => ⟨_, rfl, exec_lossOfSignal_adapting hi h⟩, fun s dt lane => exec_loss_locked,
    fun s dt lane => ⟨State.laneIdle_iff _ _, exec_loss_idle⟩, fun s dt p => ⟨?alignment, ?ser⟩,
    fun s p => ⟨s.kp4_of_line, s.kp4_of_link⟩, fun s dt t0 p ha ht => ⟨_, rfl, exec_lockTimeout ha ht⟩,
    fun s dt t0 p => exec_retryInterval, fun s dt fn lane v hu hs ho hd => exec_prbsPatternSet hu hs ho hd v,
    fun s dt lane => exec_prbsCheckerLock, exec_prbsLockLost, exec_remoteFaultReceived⟩
  case alignment =>
    rw [exec_pcsAlignmentLost, State.portToLock_eq, ← ite_or]
    simp only [State.partnerIdle_iff]
  case ser =>
    rw [exec_highSer, State.portToLock_eq, ← ite_or]
    simp only [State.partnerIdle_iff, or_assoc, or_comm (a := (s.pass dt).kp4 p = false)]

end Sys2Proof.Machine
end

section
/-! PROOF. O24: address entries, received frames and pauses, sent pauses and interim reports of the line MACs. -/

namespace Sys2Proof.Machine

/-! ### Address entries (R79, R385) -/

theorem macAddrSetBody_refused (s : State) (c : Cmd) {x : Nat}
    (h : 48 ≤ bits x 0 8 ∨ bits x 13 51 ≠ 0 ∨ bits x 112 16 ≠ 0 ∨ bit x 64 = true) :
    macAddrSetBody s c x = .fail s stBadArg := if_pos h

theorem macAddrSetBody_formed (s : State) (c : Cmd) {x : Nat} (hp : bits x 0 8 < 48) (h13 : bits x 13 51 = 0)
    (h112 : bits x 112 16 = 0) (h64 : bit x 64 = false) :
    macAddrSetBody s c x = if s.partOn = true ∧ s.portPart (bits x 0 8) ≠ c.part then .fail s stProtected
      else .ok { s with macs := s.macs.put 0 (bits x 0 8 * 16 + bits x 8 4) (bits x 64 48 + b2n (bit x 12) * 2 ^ 48) } := by
  have hform : ¬ (48 ≤ bits x 0 8 ∨ bits x 13 51 ≠ 0 ∨ bits x 112 16 ≠ 0 ∨ bit x 64 = true) := by
    simp [hp, h13, h112, h64]
  unfold macAddrSetBody
  rw [if_neg hform]
  simp only [State.foreignPort, Bool.and_eq_true, bne_iff_ne]

theorem exec_macAddrSet (a : Accepted macAddrSetSpec) {o : Out} (h : macAddrSetBody a.t (a.s.cmdOf a.i a.d) a.x = o) :
    exec (.macAddrSet a.i) a.s = .next (a.does o) := congrArg Host.Outcome.next (a.run_of h)

theorem macAddrReadBody_whole {s : State} (c : Cmd) {x : Nat} (hp : bits x 0 8 < 48) (h8 : bits x 8 56 = 0)
    (hpart : s.partOn = false) :
    macAddrReadBody s c x = .okResp s 0 ((List.range 16).flatMap fun i => leBytes 8 (s.macEntry (bits x 0 8) i)) := by
  have hok : macAddrReadOk s c x = stOk := by simp [macAddrReadOk, State.foreignPort, hp, h8, hpart]
  exact if_neg (not_not.2 hok)

theorem exec_macAddrRead (a : Accepted macAddrReadSpec) {o : Out} (h : macAddrReadBody a.t (a.s.cmdOf a.i a.d) a.x = o) :
    exec (.macAddrRead a.i) a.s = .next (a.does o) := congrArg Host.Outcome.next (a.run_of h)

/-! ### Frames that the MAC delimits (R81, R74, R109) -/

section Received
variable {s : State} {dt : Nat} {p : Fin 48} {f : List Byte} {err : RxErr}

theorem exec_frameReceived_nothing (h : f = []) :
    exec (.frameReceived dt p f err) s = .next ((s.pass dt).idleLine p err) := if_pos h

variable (hf : f ≠ [])
include hf

theorem exec_frameReceived_unheard (h : (s.pass dt).portUp p = false ∨ (s.pass dt).chip.d2dDown = true) :
    exec (.frameReceived dt p f err) s = .next (s.pass dt) :=
  (if_neg hf).trans (if_pos (by simpa only [Bool.or_eq_true, Bool.not_eq_true'] using h))

variable (hup : (s.pass dt).portUp p = true) (hd : (s.pass dt).chip.d2dDown = false)
include hup hd

theorem exec_frameReceived_framer (hx : (s.pass dt).xptGroup (p.val / 8) = true) :
    let u := s.pass dt
    exec (.frameReceived dt p f err) s = .next (match (u.client p).rxFrames with
      | [] => u
      | (g, bad) :: rest =>
        (u.updClient p fun c => { c with rxFrames := rest }).gotFrame p g { err with pcs := err.pcs || bad }) := by
  change execFrameReceived dt p f err s = _
  unfold execFrameReceived
  generalize s.pass dt = u at *
  simp only [hf, hup, hd, hx, Bool.not_true, Bool.or_self, Bool.false_eq_true, if_false, if_true]
  cases (u.client p).rxFrames <;> rfl

variable (hx : (s.pass dt).xptGroup (p.val / 8) = false)
include hx

theorem exec_frameReceived_nearEnd (hl : (s.pass dt).loopback p = 1) :
    let u := s.pass dt
    exec (.frameReceived dt p f err) s = .next (match (u.port p).looped with
      | [] => u
      | g :: rest => (u.updPort p fun t => { t with looped := rest }).gotFrame p g err) := by
  change execFrameReceived dt p f err s = _
  unfold execFrameReceived
  generalize s.pass dt = u at *
  simp only [hf, hup, hd, hx, hl, Bool.not_true, Bool.or_self, Bool.false_eq_true, if_false, if_true]
  cases (u.port p).looped <;> rfl

theorem exec_frameReceived_farEnd (hl : (s.pass dt).loopback p = 2) : exec (.frameReceived dt p f err) s =
    .next (((s.pass dt).updEgress p fun e => { e with lastTx := f }).gotFrame p f err) := by
  change execFrameReceived dt p f err s = _
  unfold execFrameReceived
  generalize s.pass dt = u at *
  simp [hf, hup, hd, hx, hl, ans]

theorem exec_frameReceived_line (h1 : (s.pass dt).loopback p ≠ 1) (h2 : (s.pass dt).loopback p ≠ 2) :
    exec (.frameReceived dt p f err) s = .next ((s.pass dt).gotFrame p f err) := by
  change execFrameReceived dt p f err s = _
  unfold execFrameReceived
  generalize s.pass dt = u at *
  simp [hf, hup, hd, hx, h1, h2, ans]

end Received

/-! ### Classes of frames (R81 to R83) -/

section Classes
variable (s : State) (p : Nat) (f : List Byte) (err : RxErr)

/-- The frame is delimited: the line's errors count and it takes the port's next number (R28, R78). -/
def State.delimited : State := (s.countLine p err).takeSeq p f.length (leNat (f.drop (f.length - 4)))

/-- It is counted under `item` and captured, with no more of a passport than its number and stamp. -/
def State.countedOnly (item : Nat) : State :=
  let v := s.delimited p f err
  let k := v.stamp p (s.port p).seq f
  (v.bump (macCtr item) p).captureAt 0 k.part { k.pp with version := 0, epoch := 0, length := 0, pairId := 0, claim := 0 } f

theorem State.gotFrame_jabber (h : err.jabber = true ∨ 16383 < f.length) : s.gotFrame p f err = s.countedOnly p f err 8 :=
  if_pos (by simpa using h)

variable (hj : err.jabber = false)
include hj

theorem State.gotFrame_fragment (h : f.length < 18) : s.gotFrame p f err = s.countedOnly p f err 4 :=
  (if_neg (by simp [hj]; omega)).trans (if_pos h)

variable (hmin : 18 ≤ f.length) (hmax : f.length ≤ 16383)
include hmin hmax

theorem State.gotFrame_whole : s.gotFrame p f err =
    let v := s.delimited p f err
    if v.rxFlags p f err ≠ 0 then v.badFrame p (s.port p).seq (v.rxFlags p f err) f
    else if be16 f 12 = 0x8808 then (v.bumpPair (macCtr 0) p f.length).gotControl p f
    else (v.bumpPair (macCtr 0) p f.length).goodFrame p (s.port p).seq f err :=
  (if_neg (by simp [hj, hmax])).trans (if_neg (Nat.not_lt.2 hmin))

end Classes

/-! ### Received pauses (R83, R84) -/

theorem State.lineIn_iff (s : State) (p : Nat) :
    s.lineIn p = true ↔ s.portUp p = true ∧ s.chip.d2dDown = false ∧ s.loopback p ≠ 1 := by
  simp [State.lineIn, and_assoc]

theorem State.lineIn_eq_false_iff (s : State) (p : Nat) :
    s.lineIn p = false ↔ s.portUp p = false ∨ s.chip.d2dDown = true ∨ s.loopback p = 1 := by
  rw [← Bool.not_eq_true, State.lineIn_iff]
  simp only [not_and_or, Bool.not_eq_true, Bool.not_eq_false, not_not]

theorem State.gotPause_eq (s : State) (p quanta : Nat) : s.gotPause p quanta =
    let v := s.bump (macCtr 13) p
    if bit (v.macCfg p) 15 = true ∧ v.portUp p = true then v.setPause p 8 quanta else v := by
  simp only [State.gotPause, Bool.and_eq_true]

theorem State.gotPfc_eq (s : State) (p en : Nat) (quanta : List Nat) : s.gotPfc p en quanta =
    let v := s.bump (macCtr 14) p
    if bit (v.macCfg p) 16 = true ∧ v.portUp p = true then
      quanta.zipIdx.foldl (fun s (n, i) => if bit en i then s.setPause p i n else s) v
    else v := by
  simp only [State.gotPfc, Bool.and_eq_true]

section Pauses
variable {s : State} {dt : Nat} {p : Fin 48}

theorem exec_pauseReceived (h : (s.pass dt).lineIn p = true) (q : BitVec 16) : exec (.pauseReceived dt p q) s =
    .next ((((s.pass dt).takeControlSeq p).bumpPair (macCtr 0) p 64).gotPause p q.toNat) := if_neg (by simp [h])

theorem exec_pauseReceived_unheard (h : (s.pass dt).lineIn p = false) (q : BitVec 16) :
    exec (.pauseReceived dt p q) s = .next (s.pass dt) := if_pos (by simp [h])

theorem exec_pfcReceived (h : (s.pass dt).lineIn p = true) (en : BitVec 8) (q : Vector (BitVec 16) 8) :
    exec (.pfcReceived dt p en q) s = .next
      ((((s.pass dt).takeControlSeq p).bumpPair (macCtr 0) p 64).gotPfc p en.toNat (q.toList.map (·.toNat))) :=
  if_neg (by simp [h])

theorem exec_pfcReceived_unheard (h : (s.pass dt).lineIn p = false) (en : BitVec 8) (q : Vector (BitVec 16) 8) :
    exec (.pfcReceived dt p en q) s = .next (s.pass dt) := if_pos (by simp [h])

theorem exec_pauseExpiry {a e : Nat} {cls : Option (Fin 8)}
    (h : ((s.pass dt).port p).pauses.find? ((cls.map (·.val)).getD 8) = some (a, e)) (he : e ≤ (s.pass dt).cyc) :
    exec (.pauseExpiry dt p cls) s = .next ((s.pass dt).endPause p ((cls.map (·.val)).getD 8) e) := by
  change execPauseExpiry dt p cls s = _
  unfold execPauseExpiry
  generalize s.pass dt = u at *
  simp only [h, he, if_true, ans]

/-! ### Sent pauses and interim reports (R85, R259) -/

theorem exec_pauseResend {t0 : Nat} (hx : ((s.pass dt).port p).xoffSent = some t0) (hm : (s.pass dt).pauseTx p ≠ 0)
    (ht : t0 + (s.pass dt).quantaCyc p 0xFFFF / 2 ≤ (s.pass dt).cyc)
    (ho : let f := (s.pass dt).macFlow p
      (if bits f 12 12 < bits f 0 12 then bits f 12 12 else bits f 0 12 - 1) * 1024 < (s.pass dt).occupancy p) :
    let u := s.pass dt
    exec (.pauseResend dt p) s = .next ((u.updPort p fun t => { t with xoffSent := some u.cyc }).countPauseTx p 0xFFFF) := by
  change execPauseResend dt p s = _
  unfold execPauseResend
  generalize s.pass dt = u at *
  simp only [hx]
  exact if_pos (by simp only [bne_iff_ne.2 hm, decide_eq_true ht, decide_eq_true ho, Bool.and_self])

theorem exec_ledgerExtendedInterim_down {w t0 : Nat} (hh : ((s.pass dt).port p).honorFrom = [])
    (hdown : ((s.pass dt).port p).downAt = some (w, t0))
    (ht : ((s.pass dt).port p).interimAt.get 0 9 + 10 * cycMs ≤ (s.pass dt).cyc) :
    let u := s.pass dt
    exec (.ledgerExtendedInterim dt p) s = .next
      ((u.updPort p fun t => { t with interimAt := t.interimAt.put 0 9 u.cyc }).raiseExtended p 2 false 0xFF t0 u.now
        (u.outstandingBounds p 0xFF)) := by
  change execLedgerExtendedInterim dt p s = _
  unfold execLedgerExtendedInterim
  generalize s.pass dt = u at *
  simp only [hh, List.foldl_nil, hdown, State.interim, if_neg (Nat.not_lt.2 ht), ans]

end Pauses

/-- Settles O24: one lemma for each way that a row goes. -/
theorem macsCountFramesAndHonourPauses : Obligations.MacsCountFramesAndHonourPauses := by
  refine ⟨fun a hp h13 h112 h64 => ?entry, fun a h => exec_macAddrSet a (macAddrSetBody_refused _ _ h),
    fun a hp h8 hpart => exec_macAddrRead a (macAddrReadBody_whole _ hp h8 hpart),
    fun s dt p f err => ⟨exec_frameReceived_nothing, exec_frameReceived_unheard, fun hf hup hd =>
      ⟨fun hx hg => ?noneRecovered, fun g bad rest hx hg => ?recovered, fun hx hl hg => ?noneLooped,
        fun g rest hx hl hg => ?looped, exec_frameReceived_farEnd hf hup hd, exec_frameReceived_line hf hup hd⟩⟩,
    fun s p f err => ⟨s.gotFrame_jabber p f err, s.gotFrame_fragment p f err, fun hj hmin hmax h => ?flagged,
      fun hj hmin hmax h => ?clean⟩,
    fun s dt p q => ⟨fun hup hd hl => ⟨_, rfl, ?pause⟩,
      fun h => exec_pauseReceived_unheard ((State.lineIn_eq_false_iff _ _).2 h) q⟩,
    fun s dt p en q => ⟨fun hup hd hl => ⟨_, rfl, ?pfc⟩,
      fun h => exec_pfcReceived_unheard ((State.lineIn_eq_false_iff _ _).2 h) en q⟩,
    fun s dt a e p cls => exec_pauseExpiry, fun s dt t0 p => exec_pauseResend, fun s dt w t0 p => exec_ledgerExtendedInterim_down⟩
  case entry =>
    rw [exec_macAddrSet a (macAddrSetBody_formed _ _ hp h13 h112 h64), apply_ite a.does]
    rfl
  case noneRecovered => rw [exec_frameReceived_framer hf hup hd hx, hg]
  case recovered => rw [exec_frameReceived_framer hf hup hd hx, hg]
  case noneLooped => rw [exec_frameReceived_nearEnd hf hup hd hx hl, hg]
  case looped => rw [exec_frameReceived_nearEnd hf hup hd hx hl, hg]
  case flagged => exact (s.gotFrame_whole p f err hj hmin hmax).trans (if_pos h)
  case clean => exact (s.gotFrame_whole p f err hj hmin hmax).trans (if_neg (not_not.2 h))
  case pause => rw [exec_pauseReceived ((State.lineIn_iff _ _).2 ⟨hup, hd, hl⟩), State.gotPause_eq]
  case pfc => rw [exec_pfcReceived ((State.lineIn_iff _ _).2 ⟨hup, hd, hl⟩), State.gotPfc_eq]

end Sys2Proof.Machine
end

section
/-! PROOF. O36: release, edit and transmission of a frame, the port-down flush and the age discard. -/

namespace Sys2Proof.Machine

/-! ### A release opportunity (R273 to R277, R285, R213) -/

/-- What an opportunity notes before the choice counts: V, the heads that a gate holds, and a selected head that is not in H yet. -/
def State.opportunity (u : State) (p : Nat) : State :=
  let v := (u.syncV p).noteGateHeld p
  match v.select p false with
  | some (n, _, _) => v.notePullLate p n
  | none => v

/-- The rooms of queue `n`'s head frame `k` are read. -/
def State.readHead (y : State) (n : Nat) (k : QPkt) (out : Nat) : State × Bool :=
  y.readChain (y.queuePart n) k.chain (y.chainRooms k.chain) out

/-- The selected head is released in the state `x` that the round leaves, or dropped in `w`, where no round has been. -/
def State.takeHead (w x : State) (p n : Nat) (prom : Bool) (k : QPkt) (out : Nat) : State :=
  if k.poisoned = true ∨ (w.readHead n k out).2 = true then
    (((w.readHead n k out).1.dropPoisoned n p k).reTag p n).clearDeficits n (w.pathOf (w.queue n))
  else (x.readHead n k out).1.releaseHead p n prom k

theorem exec_releaseOpportunity_busy {s : State} {dt : Nat} {port : Fin 48} (out : Fin 3)
    (h : (s.pass dt).portUp port = false ∨ (s.pass dt).elapsedQ < ((s.pass dt).egress port).nextRel) :
    exec (.releaseOpportunity dt port out) s = .next (s.pass dt) :=
  if_pos (by simpa only [Bool.or_eq_true, Bool.not_eq_true', decide_eq_true_eq] using h)

theorem exec_releaseOpportunity {s : State} {dt : Nat} {port : Fin 48} (out : Fin 3)
    (h : ¬ ((s.pass dt).portUp port = false ∨ (s.pass dt).elapsedQ < ((s.pass dt).egress port).nextRel)) :
    let w := (s.pass dt).opportunity port
    exec (.releaseOpportunity dt port out) s = .next (match w.select port true with
      | none => w
      | some (n, prom, x) => match (x.queue n).pkts with
        | [] => w
        | k :: _ => w.takeHead x port n prom k out) := by
  intro w
  change execReleaseOpportunity dt port out s = _
  unfold execReleaseOpportunity
  extract_lets u p v w'
  have hw : w' = w := rfl
  rw [if_neg (by simpa only [Bool.or_eq_true, Bool.not_eq_true', decide_eq_true_eq] using h), hw]
  clear_value w
  match w.select port true with
  | none => rfl
  | some (n, prom, x) =>
    dsimp only
    cases (x.queue n).pkts with
    | nil => rfl
    | cons k t =>
      simp only [State.takeHead, Bool.or_eq_true, ans, apply_ite Host.Outcome.next]
      rfl

/-! ### The editor (R181, R184) -/

theorem exec_egressEdit_nothing {s : State} {dt : Nat} {port : Fin 48} (outs : Fin 3 × Fin 3)
    (h : ((s.pass dt).egress port).released = []) : exec (.egressEdit dt port outs) s = .next (s.pass dt) := by
  change execEgressEdit dt port outs s = _
  unfold execEgressEdit
  simp only [h, ans]

/-- The frame of an egress slice that is not ON is gone, and counts in the slice's domain (R439). -/
def State.dropBySlice (v : State) (e : Rel) (sl : Nat) : State :=
  ((v.dropRef e.pkt).updQueue e.queue fun q => { q with outstanding := q.outstanding - 1 }).updDomain (152 + 4 * sl) fun d =>
    { d with dropped := d.dropped + 1 }

/-- The null entry leaves the frame as it is, but gives no L2 header to one without. -/
def State.editNull (v : State) (port : Nat) (e : Rel) : State :=
  (if e.pkt.noL2 = true then v.editDrop port e.queue e.pkt 0
    else v.editPass port e (e.pkt.data.take (e.pkt.data.length - 4)) 0).dropRef e.pkt

/-- The rewrite entry is read from its copies, which may hold the slice up, and edits the frame or drops it. -/
def State.editByEntry (v : State) (port : Nat) (e : Rel) (sl : Nat) (o0 o1 : Fin 3) : State :=
  let x := (if o0 = 2 ∨ o1 = 2 then v.holdSlots sl v.slotNow else v).readRewrite e.pkt.pp.edit e.pkt.ep e.pkt.part o0 o1
  let r := x.recordAt (tblKey 8 e.pkt.pp.edit) e.pkt.ep
  let y := x.perfEvent sl 8 (if bit r 1 = true then 2 else 1) (some e.pkt.part)
  match edit r e.pkt (e.pkt.data.take (e.pkt.data.length - 4)) with
  | .inl item => (y.editDrop port e.queue e.pkt item).dropRef e.pkt
  | .inr f => if y.maxFrame port < f.length + 4 then (y.editDrop port e.queue e.pkt 2).dropRef e.pkt
    else (y.editPass port e f (bits r 8 2)).dropRef e.pkt

theorem exec_egressEdit {s : State} {dt : Nat} {port : Fin 48} (o0 o1 : Fin 3) {e : Rel} {rest : List Rel}
    (h : ((s.pass dt).egress port).released = e :: rest) :
    let u := s.pass dt
    let v := u.updEgress port fun g => { g with released := rest }
    let sl := 4 + u.egressSlice port e.pkt
    exec (.egressEdit dt port (o0, o1)) s = .next (if u.chip.d2dDown = true then u
      else if v.sliceOn sl = false then v.dropBySlice e sl
      else if e.pkt.pp.edit = 0 then v.editNull port e
      else v.editByEntry port e sl o0 o1) := by
  change execEgressEdit dt port (o0, o1) s = _
  unfold execEgressEdit
  generalize s.pass dt = u at *
  simp only [h, Bool.not_eq_true', ans, apply_ite Host.Outcome.next]
  refine ite_congr rfl (fun _ => rfl) fun _ => ite_congr rfl (fun _ => rfl) fun _ => ite_congr rfl (fun _ => ?null) fun _ => ?entry
  case null => rw [State.editNull, apply_ite (State.dropRef · e.pkt), apply_ite Host.Outcome.next]
  case entry =>
    unfold State.editByEntry
    dsimp only
    split <;> rename_i hedit <;> simp only [hedit, apply_ite Host.Outcome.next]

/-! ### The MAC (R63, R80, R83) -/

section Transmit
variable {s : State} {dt : Nat} {port : Fin 48}

theorem exec_macTransmit_idle (h : (s.pass dt).portUp port = false ∨ ((s.pass dt).port port).remoteFault = true ∨
    (s.pass dt).pickTx port ((s.pass dt).egress port).edited = none) : exec (.macTransmit dt port) s = .next (s.pass dt) := by
  change execMacTransmit dt port s = _
  unfold execMacTransmit
  generalize s.pass dt = u at *
  rcases h with h | h | h <;> simp [h, ans]

theorem exec_macTransmit {e : Rel} {rest : List Rel} (hup : (s.pass dt).portUp port = true)
    (hf : ((s.pass dt).port port).remoteFault = false)
    (hp : (s.pass dt).pickTx port ((s.pass dt).egress port).edited = some (e, rest)) :
    let u := s.pass dt
    let k := e.pkt
    let v := u.updEgress port fun g => { g with edited := rest }
    let sl := 4 + v.egressSlice port k
    let t := v.txTime port
    let one := (if e.tsOp = 1 then v.oneStep port t k.pp e.edited else (v, e.edited))
    let two := (if e.tsOp = 2 then one.1.twoStep port t k.pp e.edited else one.1)
    let f := withFcs one.2
    exec (.macTransmit dt port) s = .next (
      if v.maxFrame port < e.edited.length + 4 then
        ((v.bump (macCtr 12) port).updQueue e.queue fun q => { q with outstanding := q.outstanding - 1 }).takeSlot sl 0 k.part
      else (((two.bumpPair (macCtr 2) port f.length).takeSlot sl 0 k.part).toLine port f).departed port e f.length) := by
  change execMacTransmit dt port s = _
  unfold execMacTransmit
  generalize s.pass dt = u at *
  simp only [hup, hf, hp, Bool.not_true, Bool.or_self, Bool.false_eq_true, if_false, ans, apply_ite Host.Outcome.next]

end Transmit

/-- The MAC takes the oldest frame that no pause holds; the others keep their order. -/
theorem State.pickTx_eq_some_iff (s : State) (p : Nat) (l rest : List Rel) (e : Rel) : s.pickTx p l = some (e, rest) ↔
    ∃ a b, l = a ++ e :: b ∧ rest = a ++ b ∧
      s.pausedFor p e.pkt.pp.tc (decide (0 < s.heldRate (s.queue e.queue))) = false ∧
      ∀ h ∈ a, s.pausedFor p h.pkt.pp.tc (decide (0 < s.heldRate (s.queue h.queue))) = true := by
  induction l generalizing rest with
  | nil => simp [State.pickTx]
  | cons h t ih =>
    cases hh : s.pausedFor p h.pkt.pp.tc (decide (0 < s.heldRate (s.queue h.queue))) with
    | false =>
      simp only [State.pickTx, hh, Bool.false_eq_true, if_false, Option.some.injEq, Prod.mk.injEq]
      constructor
      · rintro ⟨rfl, rfl⟩
        exact ⟨[], t, rfl, rfl, hh, by simp⟩
      · rintro ⟨a, b, hl, hr, he, ha⟩
        cases a with
        | nil => 
          obtain ⟨rfl, rfl⟩ := List.cons.inj hl
          exact ⟨rfl, hr.symm⟩
        | cons c a =>
          obtain ⟨rfl, -⟩ := List.cons.inj hl
          exact absurd (ha h (by simp)) (by simp [hh])
    | true =>
      simp only [State.pickTx, hh, if_true, Option.map_eq_some_iff, Prod.mk.injEq, Prod.exists]
      constructor
      · rintro ⟨e', r, hr, rfl, rfl⟩
        obtain ⟨a, b, rfl, rfl, he, ha⟩ := (ih r).1 hr
        exact ⟨h :: a, b, rfl, rfl, he, by simpa [hh] using ha⟩
      · rintro ⟨a, b, hl, hr, he, ha⟩
        cases a with
        | nil =>
          obtain ⟨rfl, rfl⟩ := List.cons.inj hl
          simp [hh] at he
        | cons c a =>
          obtain ⟨rfl, rfl⟩ := List.cons.inj hl
          exact ⟨e, a ++ b, (ih _).2 ⟨a, b, rfl, rfl, he, fun x hx => ha x (by simp [hx])⟩, rfl, hr.symm⟩

/-- R80: the shortest frame on the line has 64 bytes. -/
theorem withFcs_length (f : List Byte) : 64 ≤ (withFcs f).length := by
  simp only [withFcs, List.length_append, List.length_replicate, leBytes_length]
  omega

/-! ### Flush and age (R260, R324) -/

theorem exec_downFlush (s : State) (dt : Nat) (port : Fin 48) :
    let u := s.pass dt
    exec (.downFlush dt port) s = .next (match (u.port port).downAt with
      | none => u
      | some (c, t0) => if c + (u.egress port).downHold * cycUs ≤ u.cyc then u.flushDown port t0 else u) := by
  change execDownFlush dt port s = _
  unfold execDownFlush
  generalize s.pass dt = u
  dsimp only
  cases (u.port port).downAt with
  | none => rfl
  | some c => exact (apply_ite Host.Outcome.next ..).symm

theorem exec_ageDiscard (s : State) (dt : Nat) (q : Fin 1048576) :
    let u := s.pass dt
    exec (.ageDiscard dt q) s = .next (match (u.queue q).pkts with
      | [] => u
      | k :: _ => let v := ((u.dropHead q agentDiscard).dropRef k.pkt).bump ⟨0x11, 2, 0⟩ k.pkt.pp.port
        if u.follower < k.admitted + 240 * qSec then u else (v.reTag k.pkt.pp.port q).clearDeficits q (v.pathOf (u.queue q))) := by
  change execAgeDiscard dt q s = _
  unfold execAgeDiscard
  generalize s.pass dt = u
  dsimp only
  cases hk : (u.queue q).pkts with
  | nil => rfl
  | cons k t =>
    have haged : (!u.headAged (u.queue q)) = true ↔ u.follower < k.admitted + 240 * qSec := by
      simp [State.headAged, hk]
    simp only [haged, ans, apply_ite Host.Outcome.next]

/-- Settles O36: the rows' lemmas in the order of a frame's way out. -/
theorem releaseEditAndTransmit : Obligations.ReleaseEditAndTransmit := by
  refine ⟨fun s dt port out => ?release, fun s dt port o0 o1 => exec_egressEdit_nothing (o0, o1),
    fun s dt port o0 o1 e rest h => exec_egressEdit o0 o1 h, fun s dt port => exec_macTransmit_idle, State.pickTx_eq_some_iff,
    fun s dt port e rest => exec_macTransmit, fun f => ⟨rfl, withFcs_length f⟩, exec_downFlush, exec_ageDiscard⟩
  case release =>
    by_cases hbusy : (s.pass dt).portUp port = false ∨ (s.pass dt).elapsedQ < ((s.pass dt).egress port).nextRel
    · exact (exec_releaseOpportunity_busy out hbusy).trans (congrArg _ (if_pos hbusy).symm)
    · exact (exec_releaseOpportunity out hbusy).trans (congrArg _ (if_neg hbusy).symm)

end Sys2Proof.Machine
end

section
/-! PROOF. O48: the switching of lane groups, and the ends of the domains' transitions. -/

namespace Sys2Proof.Machine

/-! ### GROUP_CTRL (R73) -/

section GroupCtrl
variable {s : State} {dt : Nat} {fn : Fin 2} {g : Fin 6}

theorem exec_groupCtrl_down (hu : (s.pass dt).hostUp = false) :
    exec (.groupEnable dt fn g) s = .next (s.pass dt) ∧ exec (.groupDisable dt fn g) s = .next (s.pass dt) :=
  ⟨congrArg Host.Outcome.next (State.mw0_down hu ..), congrArg Host.Outcome.next (State.mw0_down hu ..)⟩

variable (hu : (s.pass dt).hostUp = true)
include hu

theorem exec_groupCtrl_unserved (hs : (s.pass dt).serves fn = false) :
    let t := (s.pass dt).raise ((s.pass dt).partOf fn) evHifBadAccess (0x41004 + 0x10 * g)
    exec (.groupEnable dt fn g) s = .next t ∧ exec (.groupDisable dt fn g) s = .next t :=
  ⟨congrArg Host.Outcome.next (State.mw0_unserved hu hs ..), congrArg Host.Outcome.next (State.mw0_unserved hu hs ..)⟩

variable (hs : (s.pass dt).serves fn = true)
include hs

theorem exec_groupCtrl_discarded
    (h : (s.pass dt).applied = true ∨ (s.pass dt).ownsGroup fn g = false ∨ (s.pass dt).chip.d2dDown = true) :
    exec (.groupEnable dt fn g) s = .next (s.pass dt) ∧ exec (.groupDisable dt fn g) s = .next (s.pass dt) := by
  have hno : ((s.pass dt).applied || !(s.pass dt).ownsGroup fn g || (s.pass dt).chip.d2dDown) = true := by
    simpa only [Bool.or_eq_true, Bool.not_eq_true', or_assoc] using h
  exact ⟨congrArg Host.Outcome.next ((State.mw0_served hu hs ..).trans (if_pos hno)),
    congrArg Host.Outcome.next ((State.mw0_served hu hs ..).trans (if_pos hno))⟩

variable (ha : (s.pass dt).applied = false) (ho : (s.pass dt).ownsGroup fn g = true) (hd : (s.pass dt).chip.d2dDown = false)
include ha ho hd

theorem exec_groupEnable_taken :
    let u := s.pass dt
    let c := u.groupEnableCheck g
    exec (.groupEnable dt fn g) s = .next (if (u.group g).wantsOn = true then u.setReg (0x00201004 + 0x10 * g) 1
      else if c.2 = true then (c.1.setReg (0x00201004 + 0x10 * g) 1).groupSwitch g true
      else c.1.orReg (0x00201008 + 0x10 * g) 0x100) := by
  change execGroupEnable dt fn g s = _
  unfold execGroupEnable
  generalize s.pass dt = u at *
  rw [State.mw0_served hu hs]
  simp only [ha, ho, hd, Bool.not_true, Bool.or_self, Bool.false_eq_true, if_false, ans]
  by_cases hw : (u.group g).wantsOn = true
  · have hsame : ((u.setReg (0x00201004 + 0x10 * g) 1).group g).wantsOn = true := hw
    simp only [hw, if_true, State.groupSwitch, hsame]
  · simp only [hw]
    rfl

theorem exec_groupDisable_taken :
    let u := s.pass dt
    exec (.groupDisable dt fn g) s = .next (
      if (u.group g).wantsOn = true ∧ u.groupPromises g = true then u.orReg (0x00201008 + 0x10 * g) 0x100
      else (u.setReg (0x00201004 + 0x10 * g) 0).groupSwitch g false) := by
  change execGroupDisable dt fn g s = _
  unfold execGroupDisable
  generalize s.pass dt = u at *
  rw [State.mw0_served hu hs]
  simp only [ha, ho, hd, Bool.not_true, Bool.or_self, Bool.false_eq_true, if_false, Bool.and_eq_true, ans]
  rfl

end GroupCtrl

theorem State.groupEnableCheck_eq (s : State) (g : Nat) : s.groupEnableCheck g = if s.layoutOk g = false then (s, false)
    else if s.xptGroup g = true then
      ({ s with xpt := { s.xpt with mapErr := s.xpt.mapErr.put 0 g (s.mapErrOf g) } }, s.mapErrOf g == 0)
    else (s, true) := by
  simp only [State.groupEnableCheck, Bool.not_eq_true']

theorem State.groupPromises_iff (s : State) (g : Nat) :
    s.groupPromises g = true ↔ ∃ p ∈ s.groupPorts g, s.portPromises p = true :=
  List.any_eq_true

theorem State.groupLit_iff (s : State) (g : Nat) :
    s.groupLit g = true ↔ ∀ l ∈ s.groupLines g, ∀ n ∈ s.lanesOf l.1, (s.lane n).st ≠ .txOn := by
  simp only [State.groupLit, List.all_eq_true, bne_iff_ne]

/-! ### A group's transitions (R73, R413) -/

section Switch
variable {s : State} {g : Nat}

theorem State.groupSwitch_same {on : Bool} (h : (s.group g).wantsOn = on) : s.groupSwitch g on = s := if_pos h

theorem State.groupSwitch_other {on : Bool} (h : (s.group g).wantsOn ≠ on) :
    s.groupSwitch g on = (s.updGroup g fun d => { d with todo := d.todo ++ [on] }).groupNext g := if_neg h

theorem State.groupNext_off {t : List Bool} (hst : (s.group g).st = .off) (htodo : (s.group g).todo = true :: t) :
    s.groupNext g = (s.updGroup g fun d => { d with todo := t }).groupStart g := by
  simp only [State.groupNext, hst, htodo]

theorem State.groupNext_on {t : List Bool} (hst : (s.group g).st = .on) (htodo : (s.group g).todo = false :: t) :
    s.groupNext g = (s.updGroup g fun d => { d with todo := t }).groupStop g := by
  simp only [State.groupNext, hst, htodo]

theorem State.groupNext_stays (h : (s.group g).todo = [] ∨ (s.group g).st = .starting ∨ (s.group g).st = .quiescing) :
    s.groupNext g = s := by
  unfold State.groupNext
  dsimp only
  rcases h with h | h | h
  · rw [h]
    cases (s.group g).st <;> rfl
  · simp only [h]
  · simp only [h]

end Switch

theorem exec_groupStartingDone (s : State) (dt : Nat) (g : Fin 6) :
    let u := s.pass dt
    exec (.groupStartingDone dt g) s = .next (if (u.group g).st ≠ .starting ∨ u.groupLit g = false then u
      else ((u.updGroup g fun d => { d with st := .on }).powerDone 1 g (u.group g).turn 0).groupNext g) := by
  change execGroupStartingDone dt g s = _
  simp only [execGroupStartingDone, Bool.or_eq_true, bne_iff_ne, Bool.not_eq_true', ans, apply_ite Host.Outcome.next]

theorem exec_groupQuiescingDone (s : State) (dt : Nat) (g : Fin 6) :
    let u := s.pass dt
    exec (.groupQuiescingDone dt g) s = .next (if (u.group g).st ≠ .quiescing then u else u.groupOff g) := by
  change execGroupQuiescingDone dt g s = _
  simp only [execGroupQuiescingDone, bne_iff_ne, ans, apply_ite Host.Outcome.next]

/-! ### A domain's transitions (R438 to R440) -/

section StartingDone
variable {s : State} {dt : Nat} {d : Fin 236}

theorem exec_domainStartingDone_early (h : ((s.pass dt).domain d).st ≠ .starting) :
    exec (.domainStartingDone dt d) s = .next (s.pass dt) :=
  if_pos (by rw [bne_iff_ne.2 h, Bool.true_or])

variable (h : ((s.pass dt).domain d).st = .starting)
include h

theorem exec_domainStartingDone_own (hk : domKind d ≠ .hbm) :
    exec (.domainStartingDone dt d) s = .next ((s.pass dt).domainOn d) := by
  change execDomainStartingDone dt d s = _
  unfold execDomainStartingDone
  generalize s.pass dt = u at *
  simp only [h, hk, beq_eq_false_iff_ne.2 hk, bne_self_eq_false, Bool.false_and, Bool.or_self, Bool.false_eq_true, if_false, ans]

theorem exec_domainStartingDone_hbm (hk : domKind d = .hbm) :
    let u := s.pass dt
    let k := (d.val - 184) / 4
    let g := (d.val - 184) % 4
    let v := (u.domainOn d).startUnits ((List.range 8).map (32 + 32 * k + 8 * g + ·)) ((List.range 4).map (8 + 16 * k + 4 * g + ·))
    let w := if ((List.range 4).all fun g => (v.domain (184 + 4 * k + g)).st == .on) = true then
      v.updStack k fun h => { h with st := 3 } else v
    exec (.domainStartingDone dt d) s = .next (if (u.stack k).boot = true ∨ (u.stack k).st = 4 then u
      else (if k < 2 then w.resetF else w.resetT).refreshRooms) := by
  change execDomainStartingDone dt d s = _
  unfold execDomainStartingDone
  generalize s.pass dt = u at *
  simp only [h, hk, bne_self_eq_false, beq_self_eq_true, Bool.true_and, Bool.false_or, Bool.or_eq_true, beq_iff_eq, if_true, ans,
    apply_ite Host.Outcome.next]

end StartingDone

theorem exec_domainQuiescingDone (s : State) (dt : Nat) (d : Fin 236) :
    let u := s.pass dt
    exec (.domainQuiescingDone dt d) s = .next (
      if (u.domain d).st ≠ .quiescing ∨ u.domainHolds d = true ∨ u.domainFree d = false then u else u.domainOff d 0) := by
  change execDomainQuiescingDone dt d s = _
  simp only [execDomainQuiescingDone, Bool.or_eq_true, bne_iff_ne, Bool.not_eq_true', or_assoc, ans, apply_ite Host.Outcome.next]

theorem exec_domainDrainTimeout (s : State) (dt : Nat) (d : Fin 236) :
    let u := s.pass dt
    let f := u.domainFlush d
    exec (.domainDrainTimeout dt d) s = .next (
      if (u.domain d).st ≠ .quiescing ∨ u.cyc < (u.domain d).since + domainBound d then u
      else if f.1.domainFree d = true then f.1.domainOff d f.2
      else f.1.updDomain d fun x => { x with dropped := x.dropped + f.2 }) := by
  change execDomainDrainTimeout dt d s = _
  simp only [execDomainDrainTimeout, Bool.or_eq_true, bne_iff_ne, decide_eq_true_eq, ans, apply_ite Host.Outcome.next]

theorem domKind_lane {d : Nat} (h : d < 152) : domKind d = .line ∨ domKind d = .fab ∨ domKind d = .tw := by
  unfold domKind
  split_ifs
  · exact .inl rfl
  · exact .inr (.inl rfl)
  · exact .inr (.inr rfl)

theorem domKind_stage {d : Nat} (h : 152 ≤ d ∧ d < 184) : domKind d = .stage := by
  rw [domKind, if_neg (by omega), if_neg (by omega), if_neg (by omega), if_pos h.2]

theorem domKind_memory {d : Nat} (h : 184 ≤ d ∧ d < 208) : domKind d = .hbm ∨ domKind d = .ddr := by
  rw [domKind, if_neg (by omega), if_neg (by omega), if_neg (by omega), if_neg (by omega), if_pos h.2]
  split_ifs
  · exact .inl rfl
  · exact .inr rfl

theorem domKind_tcam {d : Nat} (h : 208 ≤ d ∧ d < 220) : domKind d = .tcam := by
  rw [domKind, if_neg (by omega), if_neg (by omega), if_neg (by omega), if_neg (by omega), if_neg (by omega), if_neg (by omega),
    if_pos h.2]

theorem domKind_tile {d : Nat} (h : 220 ≤ d) : domKind d = .tile := by
  rw [domKind, if_neg (by omega), if_neg (by omega), if_neg (by omega), if_neg (by omega), if_neg (by omega), if_neg (by omega),
    if_neg (by omega)]

/-- R438, by the domains' numbers (R437). -/
theorem domainBound_eq (d : Nat) : domainBound d = (if 152 ≤ d ∧ d < 184 then 50 * 800 else if 184 ≤ d ∧ d < 208 then 20 * 800
    else if 208 ≤ d ∧ d < 220 then 10 * 800 else if 220 ≤ d then 10 * 800000 else 250 * 800) := by
  unfold domainBound
  split_ifs with hstage hmem htcam htile
  · rw [domKind_stage hstage]
    rfl
  · rcases domKind_memory hmem with h | h <;> rw [h] <;> rfl
  · rw [domKind_tcam htcam]
    rfl
  · rw [domKind_tile htile]
    rfl
  · rcases domKind_lane (d := d) (by omega) with h | h | h <;> rw [h] <;> rfl

/-- Settles O48: one lemma for each way that a row goes. -/
theorem groupsAndDomainsRunTheirTransitions : Obligations.GroupsAndDomainsRunTheirTransitions := by
  refine ⟨fun s dt fn g => ⟨exec_groupCtrl_down, exec_groupCtrl_unserved, exec_groupCtrl_discarded⟩,
    fun s dt fn g hu hs ha ho hd => ⟨exec_groupEnable_taken hu hs ha ho hd, exec_groupDisable_taken hu hs ha ho hd⟩,
    State.groupEnableCheck_eq, fun s g => ⟨s.groupPromises_iff g, s.groupLit_iff g⟩,
    fun s g on => ⟨State.groupSwitch_same, State.groupSwitch_other, fun t => State.groupNext_off, fun t => State.groupNext_on,
      State.groupNext_stays⟩,
    fun s dt g => ⟨exec_groupStartingDone s dt g, exec_groupQuiescingDone s dt g⟩,
    fun s dt d => ⟨exec_domainStartingDone_early, exec_domainStartingDone_own, exec_domainStartingDone_hbm⟩,
    exec_domainQuiescingDone, exec_domainDrainTimeout, domainBound_eq⟩

end Sys2Proof.Machine
end

section
/-! PROOF. O25: frame alignment, received and sent frames, performance seconds and bins, and the commands of transport entities. -/

namespace Sys2Proof.Machine

/-! ### Frame alignment (R97 to R99) -/

/-- The offsets where a period shows the alignment, with the multiframe count at each. -/
def periodHits (hits : List (Nat × Nat)) : NMap Nat := hits.foldl (fun m h => NMap.ins m h.1 h.2) []

/-- The offsets that a period in SEARCH looks at: those of the alignment and of the candidates. -/
def searchOffsets (hm : NMap Nat) (cands : List (Nat × Nat × Nat)) : NMap Unit :=
  cands.foldl (fun m c => NMap.ins m c.1 ()) (hm.map fun h => (h.1, ()))

/-- A locked level returns to SEARCH, and the port of an interface lane to LOCK (R98). -/
def State.levelLost (s : State) (l : Nat) : State :=
  let v := s.levelSearch l
  if l < 48 then (match v.portOfLane l with
    | some p => v.portToLock p 2
    | none => v) else v

section Align
variable {s : State} {dt : Nat} {level : Fin 240} (hits : List (Nat × Nat))

theorem exec_frameAlignCheck_idle
    (h : (s.pass dt).framerLive (levelGroup level) = false ∨ (s.pass dt).levelExists level = false) :
    exec (.frameAlignCheck dt level hits) s = .next (s.pass dt) :=
  if_pos (by simpa only [Bool.or_eq_true, Bool.not_eq_true'] using h)

variable (hl : (s.pass dt).framerLive (levelGroup level) = true) (he : (s.pass dt).levelExists level = true)
include hl he

theorem exec_frameAlignCheck_inFrame (ha : ((s.pass dt).runSeconds.level level).inFrame = true) :
    let r := (s.pass dt).runSeconds
    exec (.frameAlignCheck dt level hits) s = .next (match (periodHits hits).find? (r.level level).locked with
      | some mf => r.updLevel level fun a => { a with misses := 0, lastMf := mf }
      | none => if 4 ≤ (r.level level).misses then (r.levelLost level).refreshGroup (levelGroup level)
        else r.updLevel level fun a => { a with misses := a.misses + 1 }) := by
  change execFrameAlignCheck dt level hits s = _
  unfold execFrameAlignCheck periodHits State.levelLost
  generalize s.pass dt = u at *
  simp only [hl, he, ha, Bool.not_true, Bool.or_self, Bool.false_eq_true, if_false, if_true, decide_eq_true_eq, ans]
  cases NMap.find? (hits.foldl (fun m h => NMap.ins m h.1 h.2) []) (u.runSeconds.level level).locked with
  | some mf => rfl
  | none => exact (apply_ite Host.Outcome.next ..).symm

theorem exec_frameAlignCheck_search (ha : ((s.pass dt).runSeconds.level level).inFrame = false) :
    let r := (s.pass dt).runSeconds
    let g := levelGroup level
    let a := r.level level
    exec (.frameAlignCheck dt level hits) s = .next (
      match searchFrame (decide (level.val < 48)) (r.ifCount g) (periodHits hits) (searchOffsets (periodHits hits) a.cands) a.cands []
      with
      | .inl (off, mf) => ((r.updLevel level fun a => { inFrame := true, locked := off, lastMf := mf, lof := a.lof, since := r.cyc })
          |>.raiseLevel evXptOof level false).refreshGroup g
      | .inr new => r.updLevel level fun a => { a with cands := new }) := by
  change execFrameAlignCheck dt level hits s = _
  unfold execFrameAlignCheck periodHits searchOffsets
  generalize s.pass dt = u at *
  simp only [hl, he, ha, Bool.not_true, Bool.or_self, Bool.false_eq_true, if_false, ans]
  generalize searchFrame .. = found
  cases found <;> rfl

end Align

theorem exec_lofDeclare (s : State) (dt : Nat) (level : Fin 240) :
    let u := s.pass dt
    let a := u.level level
    exec (.lofDeclare dt level) s = .next (if u.framerLive (levelGroup level) = true ∧ u.levelExists level = true ∧
      a.inFrame = false ∧ a.lof = false ∧ a.since + 3 * cycMs ≤ u.cyc then
        ((u.runSeconds.updLevel level fun a => { a with lof := true }).raiseLevel evXptLof level true).refreshGroup (levelGroup level)
      else u) := by
  change execLofDeclare dt level s = _
  simp only [execLofDeclare, Bool.and_eq_true, Bool.not_eq_true', decide_eq_true_eq, and_assoc, ans, apply_ite Host.Outcome.next]

theorem exec_lofClear (s : State) (dt : Nat) (level : Fin 240) :
    let u := s.pass dt
    let a := u.level level
    exec (.lofClear dt level) s = .next (if a.inFrame = true ∧ a.lof = true ∧ a.since + 3 * cycMs ≤ u.cyc then
        ((u.runSeconds.updLevel level fun a => { a with lof := false }).raiseLevel evXptLof level false).refreshGroup (levelGroup level)
      else u) := by
  change execLofClear dt level s = _
  simp only [execLofClear, Bool.and_eq_true, decide_eq_true_eq, and_assoc, ans, apply_ite Host.Outcome.next]

/-! ### Received frames (R89, R106 to R108) -/

theorem exec_transportFrameReceived (s : State) (dt : Nat) (f : XptFrame) :
    let u := s.pass dt
    let g := f.group.val
    let v := ((u.runSeconds.overhead f).justify f).pointer f
    let w := if f.layer = 7 then v else v.setDefects g f.layer f.index (v.seenDefects f)
    let z := if bit (w.entDefects g f.layer f.index) 0 = true ∧ f.layer = 1 then w.portToLock (w.lineOf f.index) 2 else w
    exec (.transportFrameReceived dt f) s = .next (
      if u.framerLive g = false ∨ u.entExists g f.layer f.index = false ∨ u.chip.d2dDown = true ∨
        f.layer = 7 ∧ u.clientKind (8 * g + f.index) = 2 then u
      else ((z.msiCheck f).memberFrame f).clientFrame f) := by
  change execTransportFrameReceived dt f s = _
  simp only [execTransportFrameReceived, Bool.or_eq_true, Bool.and_eq_true, Bool.not_eq_true', beq_iff_eq, or_assoc, ans,
    apply_ite Host.Outcome.next]

/-- The violations that a received frame shows in an earlier one, and the parities that still wait for theirs (R106; log 47). -/
def State.parityOf (s : State) (f : XptFrame) : Nat × List (List Byte) :=
  parityStep (bipDelay f.layer) (s.ent (mkEnt f.group f.layer f.index)).parity
    (bipOf (bipWidth f.layer (s.trib f.group f.index).vc4s) f.covered) f.bip

/-- R89, R106, R107: the counts and the identifier that a received frame leaves with its entity. -/
theorem State.ent_overhead (s : State) (f : XptFrame) :
    let k := mkEnt f.group f.layer f.index
    let n := if f.layer = 7 then 0 else (s.parityOf f).1
    let e := (s.overhead f).ent k
    e.beiPending = (if f.layer = 4 ∨ f.layer = 7 then (s.ent k).beiPending else (s.ent k).beiPending ++ [min n (beiCap f.layer)]) ∧
    e.secNe = (s.ent k).secNe + (if n = 0 then 0 else 1) ∧ e.secFrames = (s.ent k).secFrames + 1 ∧
    e.ttiRecv = (f.tti.map (· % 2 ^ (if f.layer = 4 then 128 else 512))).getD (s.ent k).ttiRecv := by
  unfold State.overhead State.parityOf
  simp only [State.ent_updEnt, apply_ite Prod.fst, and_self]

theorem State.ent_overhead_ne (s : State) (f : XptFrame) {j : Nat} (h : j ≠ mkEnt f.group f.layer f.index) :
    (s.overhead f).ent j = s.ent j := s.ent_updEnt_ne _ h

/-! ### Sent frames (R101, R107, R110) -/

theorem exec_transportFrameSend (s : State) (dt : Nat) (g : Fin 6) (layer index : Nat) :
    let u := s.pass dt
    let head := u.outHead g layer index
    let v := u.updEnt (mkEnt g layer index) fun e =>
      { e with
        sent := e.sent + 1, lastBei := e.beiPending.headD 0, beiPending := e.beiPending.tail
        lastBdi := layer != 4 && layer != 7 && u.entFail g layer index
        out := if layer = 6 then u.outPath g index head else head }
    exec (.transportFrameSend dt g layer index) s = .next (if u.framerLive g = false ∨ u.entSends g layer index = false then u
      else if layer = 3 then v.outGmp (mkEnt g layer index) (gmpOfKind (v.trib g index).kind)
      else if layer = 7 then v.outClient (8 * g + index) else v) := by
  change execTransportFrameSend dt g layer index s = _
  simp only [execTransportFrameSend, Bool.or_eq_true, Bool.not_eq_true', ans, apply_ite Host.Outcome.next]

/-! ### Seconds and bins (R111 to R113) -/

theorem State.runSeconds_eq (s : State) : s.runSeconds =
    let v := if s.allMonitored = [] then s else s.seconds s.xpt.pmSec (secOf s.now - s.xpt.pmSec)
    if secOf s.now ≤ s.xpt.pmSec then s else { v with xpt := { v.xpt with pmSec := secOf s.now } } := by
  simp only [State.runSeconds, List.isEmpty_iff]

theorem State.seconds_succ (s : State) (k n : Nat) : s.seconds k (n + 1) = (s.oneSecond k).seconds (k + 1) n := rfl

section Bins
variable {s : State} {dt : Nat} {g : Fin 6} {day : Bool}

theorem exec_pmBinClosed_none (h : (s.pass dt).runSeconds.dueBins g day = []) :
    exec (.pmBinClosed dt g day) s = .next (s.pass dt).runSeconds := by
  change execPmBinClosed dt g day s = _
  simp only [execPmBinClosed, h, ans]

theorem exec_pmBinClosed_due {k : Nat} {t : List Nat} (h : (s.pass dt).runSeconds.dueBins g day = k :: t) :
    let u := (s.pass dt).runSeconds
    let k := t.foldl min k
    let v : State := { u with xpt := { u.xpt with ents := u.xpt.ents.map (finalEnt g day k) } }
    exec (.pmBinClosed dt g day) s = .next (v.raise (v.groupPart g) evPmBinClosed g (b2n day + k * 256)) := by
  change execPmBinClosed dt g day s = _
  simp only [execPmBinClosed, h, ans]

end Bins

/-! ### Commands (R385) -/

theorem xptOhSetBody_eq (s : State) (c : Cmd) (x : Nat) : xptOhSetBody s c x =
    let e := bits x 0 32
    if s.entityOk e true = false ∨ bits x 32 32 ≠ 0 ∨ entLayer e = 4 ∧ bits x 192 384 ≠ 0 then .fail s stBadArg
    else if s.partOn = true ∧ s.groupPart (entGroup e) ≠ c.part then .fail s stProtected
    else .ok (s.updEnt e fun v => { v with ttiSent := bits x 64 512 }) := by
  simp only [xptOhSetBody, State.foreignGroup, Bool.or_eq_true, Bool.and_eq_true, Bool.not_eq_true', bne_iff_ne, beq_iff_eq, or_assoc]

/-- An answer that waits for a status of OK is refused as the checks behind the status say. -/
theorem fail_unless_stOk (s : State) (o : Out) (bad foreign : Prop) [Decidable bad] [Decidable foreign] :
    (let st := if bad then stBadArg else if foreign then stProtected else stOk
      if st ≠ stOk then Out.fail s st else o) =
    if bad then .fail s stBadArg else if foreign then .fail s stProtected else o := by
  by_cases hb : bad
  · simp only [if_pos hb]
    rfl
  · by_cases hf : foreign
    · simp only [if_neg hb, if_pos hf]
      rfl
    · simp only [if_neg hb, if_neg hf]
      rfl

theorem xptOhReadBody_eq (s : State) (c : Cmd) (x : Nat) : xptOhReadBody s c x =
    let e := bits x 0 32
    if s.entityOk e true = false ∨ bits x 32 32 ≠ 0 then .fail s stBadArg
    else if s.partOn = true ∧ s.groupPart (entGroup e) ≠ c.part then .fail s stProtected
    else .okResp s 0 (leBytes 64 (s.ent e).ttiRecv) := by
  refine (fail_unless_stOk s _ _ _).trans ?_
  simp only [State.foreignGroup, Bool.or_eq_true, Bool.and_eq_true, Bool.not_eq_true', bne_iff_ne]

theorem pmReadBody_eq (s : State) (c : Cmd) (x : Nat) : pmReadBody s c x =
    let e := bits x 0 32
    let num := bits x 48 8
    if s.entityOk e false = false ∨ bits x 34 6 ≠ 0 ∨ bits x 56 8 ≠ 0 ∨
      (if bit x 33 = true then bits x 40 8 ≠ 0 ∨ num ≠ 0 else num < 1 ∨ 96 < num) then .fail s stBadArg
    else if s.partOn = true ∧ s.groupPart (entGroup e) ≠ c.part then .fail s stProtected
    else .okResp s (pmRecords s x).length ((pmRecords s x).flatMap (·.record e)) := by
  refine (fail_unless_stOk s _ _ _).trans ?_
  cases bit x 33 <;>
    simp only [State.foreignGroup, Bool.or_eq_true, Bool.and_eq_true, Bool.not_eq_true', bne_iff_ne, decide_eq_true_eq, or_assoc,
      Bool.false_eq_true, if_true, if_false]

/-- Settles O25: the rows' lemmas in the order of a frame's way, then seconds, bins and commands. -/
theorem transportFramesBinsAndCommands : Obligations.TransportFramesBinsAndCommands := by
  refine ⟨fun s dt level hits => ⟨exec_frameAlignCheck_idle hits, fun hl he => ⟨fun ha mf hm => ?kept, fun ha hm hfew => ?missed,
      fun ha hm hfour => ?lost, fun ha => exec_frameAlignCheck_search hits hl he ha⟩⟩,
    fun s dt level => ⟨exec_lofDeclare s dt level, exec_lofClear s dt level⟩, exec_transportFrameReceived, fun s f => ?overhead,
    fun s g layer ix d => rfl, exec_transportFrameSend,
    fun s dt => ⟨congrArg Host.Outcome.next (State.runSeconds_eq _), rfl⟩, fun s k n => ⟨rfl, s.seconds_succ k n⟩,
    fun s dt g day => ⟨exec_pmBinClosed_none, fun k t => exec_pmBinClosed_due⟩,
    fun a => congrArg Host.Outcome.next (a.run_of (xptOhSetBody_eq _ _ _)),
    fun a => congrArg Host.Outcome.next (a.run_of (xptOhReadBody_eq _ _ _)),
    fun a => congrArg Host.Outcome.next (a.run_of (pmReadBody_eq _ _ _))⟩
  case kept =>
    rw [exec_frameAlignCheck_inFrame hits hl he ha, periodHits, hm]
  case missed =>
    rw [exec_frameAlignCheck_inFrame hits hl he ha, periodHits, hm]
    exact congrArg Host.Outcome.next (if_neg (Nat.not_le.2 hfew))
  case lost =>
    rw [exec_frameAlignCheck_inFrame hits hl he ha, periodHits, hm]
    exact congrArg Host.Outcome.next (if_pos hfour)
  case overhead =>
    obtain ⟨hbei, hne, hframes, htti⟩ := s.ent_overhead f
    exact ⟨hbei, hne, hframes, htti, fun j hj => s.ent_overhead_ne f hj⟩

end Sys2Proof.Machine
end

section
/-! PROOF. O29: table commands, moves of TCAM rows, the scrub, the width of a bank, and the parse graph. -/

namespace Sys2Proof.Machine

/-! ### What an entry has staged, and the room of its table (R138, R142) -/

/-- The newest version of the entry was staged in epoch `ep`. -/
def stagedIn (vs : List Ver) (ep : Nat) : Bool :=
  match vs.getLast? with
  | some v => v.birth == ep
  | none => false

/-- The state in which a write of the entry in epoch `ep` stages: without the version that it replaces. -/
def State.withoutStaged (s : State) (key ep : Nat) : State :=
  if stagedIn (s.versions key) ep = true then s.replaceVersions key (unstage (s.versions key) ep) else s

/-- What the partition's versions take of a table other than the TCAM. -/
def State.tableUsed (s : State) (p table : Nat) : Nat :=
  match table with
  | 3 => s.routeUsed p
  | 4 => s.emUsed p
  | _ => s.poolUsed p table

/-- What one more version of a record takes. -/
def tableNeed (table r : Nat) : Nat :=
  match table with
  | 3 => if bits r 12 4 = 4 then 2 else 3
  | 4 => emSlots (bits r 0 2)
  | _ => 1

/-- The record becomes the entry's newest version; an exact-match version takes a place. -/
def State.stages (s : State) (part table key ep r : Nat) : State :=
  let v := s.setVersions key (stageWrite (s.versions key) ep r)
  if table = 4 then v.placeEm part key (bits r 0 2) (bits r 128 (8 * keyBytes (bits r 0 2))) ep else v

theorem stagedIn_eq_any (vs : List Ver) (ep : Nat) : stagedIn vs ep = vs.getLast?.any fun v => v.birth == ep := by
  unfold stagedIn
  cases vs.getLast? <;> rfl

theorem stagedIn_of_fresh {vs : List Ver} {ep : Nat} (h : (vs.getLast?.all fun v => v.birth != ep) = true) :
    stagedIn vs ep = false := by
  rw [stagedIn_eq_any]
  cases hv : vs.getLast? with
  | none => rfl
  | some v => simpa [hv] using h

theorem State.withoutStaged_of_fresh {s : State} {key ep : Nat} (h : stagedIn (s.versions key) ep = false) :
    s.withoutStaged key ep = s := if_neg (ne_true_of_eq_false h)

theorem State.withoutStaged_of_staged {s : State} {key ep : Nat} (h : stagedIn (s.versions key) ep = true) :
    s.withoutStaged key ep = s.replaceVersions key (unstage (s.versions key) ep) := if_pos h

theorem State.stages_of_ne {table : Nat} (h : table ≠ 4) (s : State) (part key ep r : Nat) :
    s.stages part table key ep r = s.setVersions key (stageWrite (s.versions key) ep r) := if_neg h

theorem State.tableUsed_eq (s : State) (p t : Nat) :
    s.tableUsed p t = if t = 3 then s.routeUsed p else if t = 4 then s.emUsed p else s.poolUsed p t := by
  unfold State.tableUsed
  split
  · rfl
  · rfl
  · rename_i h3 h4
    rw [if_neg h3, if_neg h4]

theorem tableNeed_indexed {t : Nat} (h3 : t ≠ 3) (h4 : t ≠ 4) (r : Nat) : tableNeed t r = 1 := by
  unfold tableNeed
  split
  · contradiction
  · contradiction
  · rfl

/-- R384: FAMILY, in the command's payload and in the record behind its header. -/
theorem bits_family (x : Nat) : bits (x / 2 ^ 128) 12 4 = bits x 140 4 := by
  rw [bits_eq, bits_eq, Nat.div_div_eq_div_mul, ← Nat.pow_add]

/-! ### TABLE_WRITE (R142, R161, R170) -/

section Write
variable {s : State} {c : Cmd} {x : Nat}

theorem tableWriteBody_refused (h : (s.tableCheck c x true false).1 ≠ stOk) :
    tableWriteBody s c x = .fail s (s.tableCheck c x true false).1 := if_pos h

variable (hok : (s.tableCheck c x true false).1 = stOk)
include hok

/-- Any table but the TCAM: the record is staged when the table has room for what it adds. -/
theorem tableWriteBody_pooled {t : Nat} (ht : bits x 0 8 = t) (h1 : t ≠ 1) :
    let key := tblKey t (s.tableCheck c x true false).2
    let r := x / 2 ^ 128
    let ep := (s.stageEpoch c).1
    tableWriteBody s c x =
      if s.hasSpace c.part t (s.tableUsed c.part t) (if stagedIn (s.versions key) ep = true then 0 else tableNeed t r) = true then
        .ok ((s.withoutStaged key ep).stages c.part t key ep r)
      else .fail s stNoSpace := by
  intro key r ep
  subst ht
  refine (if_neg (not_not.2 hok)).trans ((if_neg h1).trans ?_)
  exact (if_congr ((Bool.not_eq_true' _).to_iff.trans (Bool.not_eq_true _).to_iff.symm) rfl rfl).trans (ite_not _ _ _)

/-- The TCAM: the placement of the row decides. -/
theorem tableWriteBody_tcam (ht : bits x 0 8 = 1) :
    let key := tblKey 1 (s.tableCheck c x true false).2
    let r := x / 2 ^ 128
    let bank := bits r 0 4
    let ep := (s.stageEpoch c).1
    let u := s.withoutStaged key ep
    tableWriteBody s c x = match s.tcamPlacement bank key (recPriority r) ep with
      | .full => if stagedIn (s.versions key) ep = true then
          .ok ((u.settleRow bank key ep r 16384).setVersions key (stageWrite (u.versions key) ep r)) else .fail s stNoSpace
      | .move _ _ => .wait (s.takeOrder c.part (s.stageEpoch c).2) (.tcamMove bank ep (s.stageEpoch c).2)
      | .slot i => .ok ((u.putRow bank i key ep r).setVersions key (stageWrite (u.versions key) ep r)) := by
  intro key r bank ep u
  refine (if_neg (not_not.2 hok)).trans ((if_pos ht).trans ?_)
  rw [ht]
  rfl

end Write

section ExecWrite
variable (a : Accepted tableWriteSpec)

theorem exec_tableWrite_refused (h : (a.t.tableCheck (a.s.cmdOf a.i a.d) a.x true false).1 ≠ stOk) :
    exec (.tableWrite a.i) a.s = .next (a.ends a.t (a.t.tableCheck (a.s.cmdOf a.i a.d) a.x true false).1 0 []) :=
  congrArg Host.Outcome.next (a.run_of (tableWriteBody_refused h))

variable (hok : (a.t.tableCheck (a.s.cmdOf a.i a.d) a.x true false).1 = stOk)
include hok

theorem exec_tableWrite_pooled {t : Nat} (ht : bits a.x 0 8 = t) (h1 : t ≠ 1) :
    let c := a.s.cmdOf a.i a.d
    let key := tblKey t (a.t.tableCheck c a.x true false).2
    let r := a.x / 2 ^ 128
    let ep := (a.t.stageEpoch c).1
    let need := if stagedIn (a.t.versions key) ep = true then 0 else tableNeed t r
    exec (.tableWrite a.i) a.s = .next (if a.t.hasSpace c.part t (a.t.tableUsed c.part t) need = true then
        a.ends ((a.t.withoutStaged key ep).stages c.part t key ep r) stOk 0 []
      else a.ends a.t stNoSpace 0 []) :=
  congrArg Host.Outcome.next ((a.run_of (tableWriteBody_pooled hok ht h1)).trans (apply_ite a.does _ _ _))

theorem exec_tableWrite_tcam (ht : bits a.x 0 8 = 1) :
    let c := a.s.cmdOf a.i a.d
    let key := tblKey 1 (a.t.tableCheck c a.x true false).2
    let r := a.x / 2 ^ 128
    let bank := bits r 0 4
    let ep := (a.t.stageEpoch c).1
    let u := a.t.withoutStaged key ep
    exec (.tableWrite a.i) a.s = .next (match a.t.tcamPlacement bank key (recPriority r) ep with
      | .full => if stagedIn (a.t.versions key) ep = true then
          a.ends ((u.settleRow bank key ep r 16384).setVersions key (stageWrite (u.versions key) ep r)) stOk 0 []
        else a.ends a.t stNoSpace 0 []
      | .move _ _ => a.waits (a.t.takeOrder c.part (a.t.stageEpoch c).2) (.tcamMove bank ep (a.t.stageEpoch c).2)
      | .slot i => a.ends ((u.putRow bank i key ep r).setVersions key (stageWrite (u.versions key) ep r)) stOk 0 []) := by
  intro c key r bank ep u
  refine congrArg Host.Outcome.next ((a.run_of (tableWriteBody_tcam hok ht)).trans ?_)
  cases a.t.tcamPlacement bank key (recPriority r) ep with
  | full => exact apply_ite a.does _ _ _
  | move _ _ => rfl
  | slot _ => rfl

end ExecWrite

/-! ### TABLE_DELETE and TABLE_READ (R142, R384) -/

theorem exec_tableDelete (a : Accepted tableDeleteSpec) :
    let c := a.s.cmdOf a.i a.d
    let chk := a.t.tableCheck c a.x false false
    let key := tblKey (bits a.x 0 8) chk.2
    exec (.tableDelete a.i) a.s = .next (if chk.1 ≠ stOk then a.ends a.t chk.1 0 []
      else match stageDelete (a.t.versions key) (a.t.epochs c.part).cur (a.t.pendingEp c.part) with
        | none => a.ends a.t stBadArg 0 []
        | some vs => a.ends (a.t.replaceVersions key vs) stOk 0 []) := by
  intro c chk key
  refine congrArg Host.Outcome.next ((a.run_of rfl).trans ((apply_ite a.does _ _ _).trans (if_congr Iff.rfl rfl ?_)))
  change a.does (match stageDelete (a.t.versions key) (a.t.epochs c.part).cur (a.t.pendingEp c.part) with
    | none => .fail a.t stBadArg
    | some vs => .ok (a.t.replaceVersions key vs)) = _
  cases stageDelete (a.t.versions key) (a.t.epochs c.part).cur (a.t.pendingEp c.part) <;> rfl

theorem exec_tableRead (a : Accepted tableReadSpec) :
    let c := a.s.cmdOf a.i a.d
    let chk := a.t.tableCheck c a.x false true
    exec (.tableRead a.i) a.s = .next (if chk.1 ≠ stOk then a.ends a.t chk.1 0 []
      else a.ends a.t stOk 0 (tableReadResp a.t c a.x)) :=
  congrArg Host.Outcome.next ((a.run_of rfl).trans (apply_ite a.does _ _ _))

/-! ### TCAM banks (R152, R161, R163) -/

theorem tcamBankFormatBody_eq {s : State} {c : Cmd} {x : Nat} (hb : bits x 0 4 < 12) (h4 : bits x 4 4 = 0) (h10 : bits x 10 54 = 0)
    (hp : s.partOn = false) : tcamBankFormatBody s c x =
      if s.lookup.bankRows.get [] (bits x 0 4) ≠ [] then .fail s stBadArg
      else .ok { s with lookup := { s.lookup with bankWidth := s.lookup.bankWidth.put 0 (bits x 0 4) (bits x 8 2) } } := by
  have hform : ¬ (12 ≤ bits x 0 4 ∨ bits x 4 4 ≠ 0 ∨ bits x 10 54 ≠ 0) := by omega
  have hown : ¬ (s.partOn = true ∧ s.bankPart (bits x 0 4) ≠ c.part) := by simp [hp]
  simp only [tcamBankFormatBody, if_neg hform, if_neg hown, Bool.not_eq_true', List.isEmpty_eq_false_iff]

theorem exec_tcamScrub (s : State) (dt : Nat) (bank : Fin 12) (row : Fin 16384) (bad : Bool) :
    let u := s.pass dt
    exec (.tcamScrub dt bank row bad) s = .next
      (if bit (u.reg 0x00A00010) 8 = true ∧ bad = true then u.tcamRepair (u.bankPart bank) bank row else u) := by
  change execTcamScrub dt bank row bad s = _
  simp only [execTcamScrub, Bool.and_eq_true, ans, apply_ite Host.Outcome.next]

/-- One row moves, for the first command that waits on the bank; the command goes on when its own row has a slot. -/
theorem exec_tcamRowMove {s : State} {dt fn r x ep order src dst : Nat} {run : Running} {l l' : List (Nat × Nat × Running)}
    {xs : List Nat} {bank : Fin 12} (hwait : (s.pass dt).waiting = l ++ (fn, r, run) :: l')
    (hfirst : ∀ w ∈ l, ∀ e o, w.2.2.wait ≠ .tcamMove bank e o) (hrun : run.wait = .tcamMove bank ep order)
    (hxs : tableWriteSpec.split (s.pass dt) run.desc.entries run.payloadLen run.payload = some xs)
    (hx : xs[run.doneEntries]? = some x)
    (hmove : (s.pass dt).tcamPlacement bank (tcamKey bank (bits (x / 2 ^ 128) 16 14)) (recPriority (x / 2 ^ 128)) ep = .move src dst) :
    let v := (s.pass dt).shiftRow bank src dst
    exec (.tcamRowMove dt bank) s = .next (
      match v.tcamPlacement bank (tcamKey bank (bits (x / 2 ^ 128) 16 14)) (recPriority (x / 2 ^ 128)) ep with
      | .move _ _ => v
      | _ => (v.resume [tableWriteSpec] fn r).resumeWaits [epochDiscardSpec] Wait.isDiscard) := by
  intro v
  change execTcamRowMove dt bank s = _
  unfold execTcamRowMove
  dsimp only
  rw [List.find?_eq_some_iff_append (b := (fn, r, run)) |>.2 ⟨?self, l, l', hwait, ?others⟩]
  case self => simp only [hrun, beq_self_eq_true]
  case others =>
    intro w hw
    have hother := hfirst w hw
    split
    · rename_i k e o hk
      rw [Bool.not_eq_true']
      exact beq_false_of_ne fun hb => hother e o (hb ▸ hk)
    · rfl
  simp only [hxs, Option.bind_some, hx, hrun, hmove]
  cases v.tcamPlacement bank (tcamKey bank (bits (x / 2 ^ 128) 16 14)) (recPriority (x / 2 ^ 128)) ep <;> rfl

/-! ### The parse graph (R117, R119, R121) -/

theorem parseGraphWriteBody_eq {s : State} {c : Cmd} {x : Nat} (h1 : bits x 1 3 = 0) (h8 : bits x 8 8 = 0) (h48 : bits x 48 16 = 0)
    (hn : bits x 16 16 + bits x 32 16 ≤ graphEntries (bits x 4 4))
    (hlen : x / 2 ^ (8 * (8 + bits x 32 16 * graphBytes (bits x 4 4))) = 0) (hp : s.partOn = false) : parseGraphWriteBody s c x =
      if bits x 0 1 = s.activeBank c.part then .fail s stBadArg
      else .ok { s with parse := { s.parse with graph := (List.range (bits x 32 16)).foldl (fun g i =>
        NMap.put g 0 (graphKey (bits x 0 1) (bits x 4 4) (bits x 16 16 + i))
          (bits x (64 + 8 * graphBytes (bits x 4 4) * i) (8 * graphBytes (bits x 4 4)))) s.parse.graph } } := by
  have hform : ¬ (bits x 1 3 ≠ 0 ∨ bits x 8 8 ≠ 0 ∨ bits x 48 16 ≠ 0 ∨
      graphEntries (bits x 4 4) < bits x 16 16 + bits x 32 16 ∨ x / 2 ^ (8 * (8 + bits x 32 16 * graphBytes (bits x 4 4))) ≠ 0) := by
    simp [h1, h8, h48, hlen, hn]
  unfold parseGraphWriteBody
  simp only [if_neg hform, hp, Bool.false_eq_true, false_and, if_false]

theorem parseGraphActivateBody_eq {s : State} {c : Cmd} {x : Nat} (h1 : bits x 1 63 = 0) (hp : s.partOn = false) :
    parseGraphActivateBody s c x = if s.graphOk (bits x 0 1) c.part = true then
        .ok { s with parse := { s.parse with activeA := bits x 0 1, activeB := bits x 0 1 } }
      else .fail s stBadArg := by
  cases hg : s.graphOk (bits x 0 1) c.part <;> simp [parseGraphActivateBody, h1, hp, hg]

/-- Settles O29: the rows' lemmas; what a write has staged before in its epoch says which state it stages in and how much it adds. -/
theorem tableCommandsStageDeleteAndRead : Obligations.TableCommandsStageDeleteAndRead := by
  refine ⟨exec_tableWrite_refused, fun a hok hfresh ht => ?indexed, fun a hok hfresh ht => ?route, fun a hok hfresh ht => ?exactMatch,
    fun a hok hfresh ht => ?tcam, fun a hok hagain => ⟨fun ht => ?pooledAgain, fun ht => ?tcamAgain⟩, exec_tableDelete, exec_tableRead,
    fun a hb h4 h10 hp => ?format, exec_tcamScrub, fun s dt fn r x ep order src dst run l l' xs bank => exec_tcamRowMove,
    fun a h1 h8 h48 hn hlen hp => ?graph, fun a h1 hp => ?activate⟩
  case indexed =>
    have hnew := stagedIn_of_fresh hfresh
    have h3 : bits a.x 0 8 ≠ 3 := by omega
    have h4 : bits a.x 0 8 ≠ 4 := by omega
    rw [exec_tableWrite_pooled a hok rfl (by omega)]
    simp only [hnew, State.withoutStaged_of_fresh hnew, State.stages_of_ne h4, State.tableUsed_eq, h3, h4, tableNeed_indexed h3 h4,
      Bool.false_eq_true, if_false]
  case route =>
    have hnew := stagedIn_of_fresh hfresh
    rw [exec_tableWrite_pooled a hok ht (by decide), ← bits_family]
    simp only [hnew, State.withoutStaged_of_fresh hnew, Bool.false_eq_true, if_false]
    rfl
  case exactMatch =>
    have hnew := stagedIn_of_fresh hfresh
    rw [exec_tableWrite_pooled a hok ht (by decide)]
    simp only [hnew, State.withoutStaged_of_fresh hnew, Bool.false_eq_true, if_false]
    rfl
  case tcam =>
    have hnew := stagedIn_of_fresh hfresh
    have h := exec_tableWrite_tcam a hok ht
    simp only [hnew, State.withoutStaged_of_fresh hnew, Bool.false_eq_true, if_false] at h
    exact h
  case pooledAgain =>
    have hold := (stagedIn_eq_any _ _).trans hagain
    rw [exec_tableWrite_pooled a hok rfl ht]
    simp only [hold, State.withoutStaged_of_staged hold, State.tableUsed_eq, if_true]
    rfl
  case tcamAgain =>
    rw [ht] at hagain ⊢
    have hold := (stagedIn_eq_any _ _).trans hagain
    have h := exec_tableWrite_tcam a hok ht
    simp only [hold, State.withoutStaged_of_staged hold, if_true] at h
    exact h
  case format =>
    exact congrArg Host.Outcome.next ((a.run_of (tcamBankFormatBody_eq hb h4 h10 hp)).trans (apply_ite a.does _ _ _))
  case graph =>
    exact congrArg Host.Outcome.next ((a.run_of (parseGraphWriteBody_eq h1 h8 h48 hn hlen hp)).trans (apply_ite a.does _ _ _))
  case activate =>
    exact congrArg Host.Outcome.next ((a.run_of (parseGraphActivateBody_eq h1 hp)).trans (apply_ite a.does _ _ _))

end Sys2Proof.Machine
end

section
/-! PROOF. O51: the prefilter maps of the TCAM's blocks. -/

namespace Sys2Proof

theorem bits_and (a b lo w : Nat) : bits (a &&& b) lo w = bits a lo w &&& bits b lo w := by
  unfold bits
  rw [Nat.shiftRight_and_distrib, Nat.and_mod_two_pow]

theorem bits_lt (x lo w : Nat) : bits x lo w < 2 ^ w := Nat.mod_lt _ (Nat.two_pow_pos w)

/-- Two bytes are the same under a mask byte when they agree in the bits that it holds. -/
theorem and_byte_eq_iff {m : Nat} (hm : m < 256) (v v0 : Nat) :
    v &&& m = v0 &&& m ↔ ∀ b < 8, bit m b = true → bit v b = bit v0 b := by
  simp only [bit]
  constructor
  · intro h b _ hmb
    simpa [Nat.testBit_and, hmb] using congrArg (·.testBit b) h
  · intro h
    refine Nat.eq_of_testBit_eq fun b => ?_
    rw [Nat.testBit_and, Nat.testBit_and]
    cases hmb : m.testBit b with
    | false => rw [Bool.and_false, Bool.and_false]
    | true =>
      have hb : b < 8 := by
        by_contra hb
        have hlt : m < 2 ^ b := hm.trans_le (Nat.pow_le_pow_right Nat.two_pos (Nat.le_of_not_lt hb) : 2 ^ 8 ≤ 2 ^ b)
        rw [Nat.testBit_lt_two_pow hlt] at hmb
        exact absurd hmb (by decide)
      rw [h b hb hmb]

end Sys2Proof

namespace Sys2Proof.Machine

/-! ### The map of one byte -/

/-- The bytes whose bit `b` is `one`: what `byteMap` keeps for a bit of MASK. -/
def bitMap (b : Nat) (one : Bool) : Nat :=
  let clear := (2 ^ 256 - 1) / (2 ^ 2 ^ b + 1)
  if one then clear * 2 ^ 2 ^ b else clear

theorem bit_bitMap : ∀ b < 8, ∀ one : Bool, ∀ v < 256, bit (bitMap b one) v = (bit v b == one) := by decide +kernel

theorem byteMap_eq (v0 m : Nat) : byteMap v0 m =
    (List.range 8).foldl (fun a b => if bit m b then a &&& bitMap b (bit v0 b) else a) (2 ^ 256 - 1) := rfl

/-- Each bit of MASK in the list leaves the bytes that agree with VALUE in it. -/
theorem bit_foldl_bitMap (v0 m : Nat) {v : Nat} (hv : v < 256) {l : List Nat} (hl : ∀ b ∈ l, b < 8) (a : Nat) :
    bit (l.foldl (fun a b => if bit m b then a &&& bitMap b (bit v0 b) else a) a) v = true ↔
      bit a v = true ∧ ∀ b ∈ l, bit m b = true → bit v b = bit v0 b := by
  induction l generalizing a with
  | nil => simp
  | cons b l ih =>
    have hb := bit_bitMap b (hl b List.mem_cons_self) (bit v0 b) v hv
    have hand : bit (a &&& bitMap b (bit v0 b)) v = (bit a v && (bit v b == bit v0 b)) := by
      rw [← hb]
      exact Nat.testBit_and ..
    rw [List.foldl_cons, ih (fun c hc => hl c (List.mem_cons_of_mem _ hc)), List.forall_mem_cons]
    by_cases hm : bit m b = true
    · simp [hm, hand, and_assoc]
    · simp [hm]

theorem bit_byteMap (v0 : Nat) {m v : Nat} (hm : m < 256) (hv : v < 256) :
    bit (byteMap v0 m) v = true ↔ v &&& m = v0 &&& m := by
  have hall : bit (2 ^ 256 - 1) v = true := (Nat.testBit_two_pow_sub_one 256 v).trans (decide_eq_true hv)
  rw [byteMap_eq, bit_foldl_bitMap v0 m hv (fun b => List.mem_range.1), and_byte_eq_iff hm]
  simp only [hall, true_and, List.mem_range]

/-! ### The maps of a bank's rows -/

/-- Bits that are set one key after the other: a bit is there when it was, or when one of the keys sets it. -/
theorem NMap.bit_get_foldl_or (key g : Nat → Nat) (k v : Nat) (l : List Nat) (m : NMap Nat) :
    bit ((l.foldl (fun m j => m.upd 0 (key j) (· ||| g j)) m).get 0 k) v = true ↔
      bit (m.get 0 k) v = true ∨ ∃ j ∈ l, key j = k ∧ bit (g j) v = true := by
  induction l generalizing m with
  | nil => simp
  | cons j l ih =>
    rw [List.foldl_cons, ih, List.exists_mem_cons_iff, ← or_assoc]
    by_cases hk : key j = k
    · subst hk
      simp [bit]
    · simp [hk, get_upd_ne m 0 _ 0 (Ne.symm hk)]

/-- The maps of a slot's block let through every key that the record matches, whatever key byte the profile names. -/
def State.Covers (s : State) (bank slot rec_ : Nat) : Prop :=
  ∀ j < keyBytes (s.bankWidth bank), ∀ v < 256,
    v &&& bits (recMask rec_ (s.bankWidth bank)) (8 * j) 8 =
      bits (recValue rec_ (s.bankWidth bank)) (8 * j) 8 &&& bits (recMask rec_ (s.bankWidth bank)) (8 * j) 8 →
    bit (s.blockMap bank (s.rowBlock bank slot) j) v = true

section MapRow
variable {s : State} {bank slot rec_ : Nat}

@[simp] theorem State.bankWidth_mapRow (b : Nat) : (s.mapRow bank slot rec_).bankWidth b = s.bankWidth b := rfl
@[simp] theorem State.rowBlock_mapRow (b n : Nat) : (s.mapRow bank slot rec_).rowBlock b n = s.rowBlock b n := rfl
@[simp] theorem State.rowRecord_mapRow (r : Nat × Nat × Nat) : (s.mapRow bank slot rec_).rowRecord r = s.rowRecord r := rfl

theorem State.bit_blockMap_mapRow (b block i v : Nat) : bit ((s.mapRow bank slot rec_).blockMap b block i) v = true ↔
    bit (s.blockMap b block i) v = true ∨ ∃ j ∈ List.range (keyBytes (s.bankWidth bank)),
      mapKey bank (s.rowBlock bank slot) j = mapKey b block i ∧
        bit (byteMap (bits (recValue rec_ (s.bankWidth bank)) (8 * j) 8) (bits (recMask rec_ (s.bankWidth bank)) (8 * j) 8)) v = true :=
  NMap.bit_get_foldl_or ..

/-- R158: a row that is written or moved into a slot clears no bit. -/
theorem State.bit_blockMap_mapRow_of_bit {b block i v : Nat} (h : bit (s.blockMap b block i) v = true) :
    bit ((s.mapRow bank slot rec_).blockMap b block i) v = true := (bit_blockMap_mapRow ..).2 (.inl h)

/-- R158: and sets its block's. -/
theorem State.mapRow_covers : (s.mapRow bank slot rec_).Covers bank slot rec_ := fun j hj _ hv hmatch =>
  (bit_blockMap_mapRow ..).2 (.inr ⟨j, List.mem_range.2 hj, rfl, (bit_byteMap _ (bits_lt ..) hv).2 hmatch⟩)

/-- A row that is covered stays so. -/
theorem State.Covers.mapRow {b n x : Nat} (h : s.Covers b n x) : (s.mapRow bank slot rec_).Covers b n x :=
  fun j hj v hv hmatch => bit_blockMap_mapRow_of_bit (h j hj v hv hmatch)

end MapRow

/-- The rows of a list enter the maps. -/
def State.mapRows (s : State) (bank : Nat) (rows : List (Nat × Nat × Nat)) : State :=
  rows.foldl (fun s r => s.mapRow bank r.1 (s.rowRecord r)) s

theorem State.remapBank_eq (s : State) (bank : Nat) : s.remapBank bank = State.mapRows
    { s with lookup := { s.lookup with blockMaps := s.lookup.blockMaps.filter fun (k, _) => k / (32 * 128) != bank } } bank
    (s.lookup.bankRows.get [] bank) := rfl

theorem State.Covers.mapRows {s : State} {b n x : Nat} (h : s.Covers b n x) (bank : Nat) (rows : List (Nat × Nat × Nat)) :
    (s.mapRows bank rows).Covers b n x := by
  induction rows generalizing s with
  | nil => exact h
  | cons r rows ih => exact ih h.mapRow

theorem State.mapRows_covers (s : State) (bank : Nat) {rows : List (Nat × Nat × Nat)} {r : Nat × Nat × Nat} (hr : r ∈ rows) :
    (s.mapRows bank rows).Covers bank r.1 (s.rowRecord r) := by
  induction rows generalizing s with
  | nil => exact absurd hr List.not_mem_nil
  | cons q rows ih =>
    rcases List.mem_cons.1 hr with rfl | hr
    · exact State.mapRow_covers.mapRows bank rows
    · exact ih (s.mapRow bank q.1 (s.rowRecord q)) hr

theorem State.bankWidth_mapRows (s : State) (bank b : Nat) (rows : List (Nat × Nat × Nat)) :
    (s.mapRows bank rows).bankWidth b = s.bankWidth b := by
  induction rows generalizing s with
  | nil => rfl
  | cons r rows ih => exact ih _

@[simp] theorem State.bankWidth_remapBank (s : State) (bank b : Nat) : (s.remapBank bank).bankWidth b = s.bankWidth b :=
  bankWidth_mapRows ..

@[simp] theorem State.rowBlock_remapBank (s : State) (bank b slot : Nat) : (s.remapBank bank).rowBlock b slot = s.rowBlock b slot := by
  simp only [State.rowBlock, bankWidth_remapBank]

/-- R158: recomputation covers every row of the bank. -/
theorem State.remapBank_covers {s : State} {bank : Nat} {r : Nat × Nat × Nat} (hr : r ∈ s.lookup.bankRows.get [] bank) :
    (s.remapBank bank).Covers bank r.1 (s.rowRecord r) := mapRows_covers _ bank hr

/-! ### The search -/

theorem State.powered_zero (s : State) (bank slot key : Nat) : s.powered 0 bank slot key = true := rfl

/-- A search powers the block of a row that its key matches. -/
theorem State.Covers.powered {s : State} {bank slot rec_ key : Nat} (h : s.Covers bank slot rec_)
    (hmatch : key &&& recMask rec_ (s.bankWidth bank) = recValue rec_ (s.bankWidth bank) &&& recMask rec_ (s.bankWidth bank))
    (profile : Nat) :
    s.powered profile bank slot key = true := by
  have hbyte (j : Nat) : bits key (8 * j) 8 &&& bits (recMask rec_ (s.bankWidth bank)) (8 * j) 8 =
      bits (recValue rec_ (s.bankWidth bank)) (8 * j) 8 &&& bits (recMask rec_ (s.bankWidth bank)) (8 * j) 8 := by
    rw [← bits_and, ← bits_and, hmatch]
  unfold State.powered
  by_cases hj : bits profile 15 7 < keyBytes (s.bankWidth bank)
  · simp only [h _ hj _ (bits_lt ..) (hbyte _), Bool.or_true]
  · simp only [decide_eq_true (Nat.le_of_not_lt hj), Bool.or_true, Bool.true_or]

/-- While the maps cover the versions of a bank's rows, no block that a search leaves out holds a match. -/
theorem State.bankHits_eq_unfiltered {s : State} {bank : Nat} (h : ∀ r ∈ s.lookup.bankRows.get [] bank, ∀ x ∈ s.versions r.2.1,
    x.birth = r.2.2 → s.Covers bank r.1 x.data) (profile key ep : Nat) :
    s.bankHits profile bank (s.bankWidth bank) key ep = s.bankHits 0 bank (s.bankWidth bank) key ep := by
  refine List.filterMap_congr fun ⟨slot, k, birth⟩ hr => ?_
  cases hv : (s.versions k).find? fun v => v.birth == birth && v.seenAt ep with
  | none => simp only [hv]
  | some x =>
    have hbirth : x.birth = birth := by
      have hfound := List.find?_some hv
      rw [Bool.and_eq_true, beq_iff_eq] at hfound
      exact hfound.1
    have hcovers := h _ hr x (List.mem_of_find?_eq_some hv) hbirth
    by_cases hmatch : key &&& recMask x.data (s.bankWidth bank) =
        recValue x.data (s.bankWidth bank) &&& recMask x.data (s.bankWidth bank)
    · simp only [hv, hcovers.powered hmatch profile, powered_zero, Bool.not_true, Bool.false_eq_true, if_false]
    · simp only [hv, if_neg hmatch, ite_self]

/-- Settles O51: one predicate, `Covers`, says what a row's write sets, what every later one keeps, and what a search needs. -/
theorem prefilterMapsNeverChangeAResult : Obligations.PrefilterMapsNeverChangeAResult := by
  refine ⟨fun v0 m v _ hm hv => bit_byteMap v0 hm hv, fun s bank slot rec_ j v => ?row, fun s bank j v r => ?recomputed,
    fun s profile bank key ep => ?search⟩
  case row => exact ⟨fun hj hv hmatch => State.mapRow_covers j hj v hv hmatch, fun b block i => State.bit_blockMap_mapRow_of_bit⟩
  case recomputed =>
    intro w x hr hj hv hmatch
    have hcovers := State.remapBank_covers hr
    simp only [State.Covers, State.bankWidth_remapBank, State.rowBlock_remapBank] at hcovers
    exact hcovers j hj v hv hmatch
  case search => exact fun h => State.bankHits_eq_unfiltered h profile key ep

end Sys2Proof.Machine
end

section
/-! PROOF. O30: commits of epochs, their resumption and stall, discards, and the reclaim of versions. -/

namespace Sys2Proof.Machine

/-! ### The order of commands (R143) -/

/-- A command that begins takes the next place. -/
theorem State.takeOrder_next (s : State) (p : Nat) : s.takeOrder p (s.epochs p).nextOrder =
    s.updEpochs p fun e => { e with nextOrder := max e.nextOrder (e.nextOrder + 1) } := by
  unfold State.takeOrder State.updEpochs State.epochs
  split <;> rfl

@[simp] theorem State.writing_updEpochs (s : State) (p : Nat) (f : Epochs → Epochs) (q : Nat) :
    (s.updEpochs p f).writing q = s.writing q := by
  unfold State.updEpochs
  split <;> rfl

/-! ### EPOCH_COMMIT (R143, R144) -/

/-- A commit that has begun with none before it and no write under way. -/
theorem epochCommitBody_first {s : State} {c : Cmd} (x : Nat) (hw : s.waitOf c.fn c.ring = none)
    (hc : (s.takeOrder c.part (s.epochs c.part).nextOrder).commits c.part = [])
    (hq : (s.takeOrder c.part (s.epochs c.part).nextOrder).writing c.part = []) : epochCommitBody s c x =
    let e := s.epochs c.part
    let pend := s.pendingEp c.part
    let t := s.takeOrder c.part e.nextOrder
    if 0 < s.changes c.part pend then
      if t.liveLimit < e.live pend then .wait t (.commit (some pend) e.nextOrder (some t.cyc) false)
      else .okR (t.commitNow c.part pend).1
        ((t.commitNow c.part pend).1.epochNum c.part pend + (t.commitNow c.part pend).2 % 2 ^ 28 * 2 ^ 16)
    else .okR t (t.epochNum c.part e.cur) := by
  have hwriting : s.writing c.part = [] := (State.writing_updEpochs ..).symm.trans hq
  unfold epochCommitBody
  by_cases hn : 0 < s.changes c.part (s.pendingEp c.part)
  · simp only [hw, hn, hc, hq, decide_true, Bool.true_or, if_true, List.any_nil, Bool.or_false, Bool.false_eq_true, if_false,
      Option.getD_none]
  · simp only [hw, hn, hc, hwriting, decide_false, Bool.false_or, List.any_nil, Bool.false_eq_true, if_false]

theorem exec_epochCommit (a : Accepted epochCommitSpec) (hw : a.t.waitOf a.i.fn a.i.ring = none) :
    let p := a.part
    let e := a.t.epochs p
    let pend := a.t.pendingEp p
    let t := a.t.takeOrder p e.nextOrder
    t.commits p = [] → t.writing p = [] →
    exec (.epochCommit a.i) a.s = .next (
      if 0 < a.t.changes p pend then
        if t.liveLimit < e.live pend then a.waits t (.commit (some pend) e.nextOrder (some t.cyc) false)
        else a.ends (t.commitNow p pend).1 stOk
          ((t.commitNow p pend).1.epochNum p pend + (t.commitNow p pend).2 % 2 ^ 28 * 2 ^ 16) []
      else a.ends t stOk (t.epochNum p e.cur) []) := by
  intro p e pend t hc hq
  refine congrArg Host.Outcome.next ((a.run_of (epochCommitBody_first a.x hw hc hq)).trans ?_)
  exact (apply_ite a.does _ _ _).trans (if_congr Iff.rfl (apply_ite a.does _ _ _) rfl)

theorem exec_epochCommitResume {s : State} {dt order : Nat} {fn : Fin 2} {ring : Fin 64} {claim since : Option Nat} {b : Bool}
    (h : (s.pass dt).waitOf fn ring = some (.commit claim order since b)) :
    exec (.epochCommitResume dt fn ring) s = .next ((s.pass dt).resume [epochCommitSpec] fn ring) := by
  change execEpochCommitResume dt fn ring s = _
  simp only [execEpochCommitResume, h, ans]

section Stall
variable {s : State} {dt order : Nat} {fn : Fin 2} {ring : Fin 64} {run : Running} {claim : Option Nat}
  (hrun : ((s.pass dt).ring fn ring).running = some run)
include hrun

theorem exec_epochStall {t0 : Nat} (hwait : run.wait = .commit claim order (some t0) false)
    (hdue : t0 + 100 * cycMs ≤ (s.pass dt).cyc) :
    let u := s.pass dt
    exec (.epochStall dt fn ring) s = .next
      ((u.updRing fn ring fun g => { g with running := some { run with wait := .commit claim order (some t0) true } }).raise
        (u.partOf fn) evEpochStall (u.epochs (u.partOf fn)).oldest) := by
  change execEpochStall dt fn ring s = _
  simp only [execEpochStall, hrun, hwait, if_pos hdue, ans]

/-- Once is enough. -/
theorem exec_epochStall_raised {since : Option Nat} (hwait : run.wait = .commit claim order since true) :
    exec (.epochStall dt fn ring) s = .next (s.pass dt) := by
  change execEpochStall dt fn ring s = _
  simp only [execEpochStall, hrun, hwait, ans]

end Stall

/-! ### EPOCH_DISCARD (R149) -/

/-- It waits for the writes that began before it, and takes the pending epoch's changes back. -/
theorem exec_epochDiscard (a : Accepted epochDiscardSpec) (hw : a.t.waitOf a.i.fn a.i.ring = none) :
    let n := (a.t.epochs a.part).nextOrder
    let ep := a.t.pendingEp a.part
    let es := (a.t.entriesOf a.part).filter fun (_, vs) => changedAt vs ep
    exec (.epochDiscard a.i) a.s = .next (if ∃ w ∈ a.t.writing a.part, w.2 < n then a.waits (a.t.takeOrder a.part n) (.discard n)
      else a.ends (es.foldl (fun s (k, vs) => s.replaceVersions k (unstage vs ep)) a.t) stOk es.length []) := by
  intro n ep es
  have hbody : epochDiscardBody a.t (a.s.cmdOf a.i a.d) a.x =
      if ∃ w ∈ a.t.writing a.part, w.2 < n then .wait (a.t.takeOrder a.part n) (.discard n)
      else .okR (es.foldl (fun s (k, vs) => s.replaceVersions k (unstage vs ep)) a.t) es.length := by
    unfold epochDiscardBody
    have hw' : a.t.waitOf (a.s.cmdOf a.i a.d).fn (a.s.cmdOf a.i a.d).ring = none := hw
    simp only [hw']
    exact if_congr (List.any_eq_true.trans (exists_congr fun _ => and_congr_right fun _ => decide_eq_true_iff)) rfl rfl
  exact congrArg Host.Outcome.next ((a.run_of hbody).trans (apply_ite a.does _ _ _))

/-! ### Reclaim (R148) -/

theorem exec_versionReclaim (s : State) (dt : Nat) (p : Fin 2) :
    let u := s.pass dt
    let o := (u.epochs p).oldest
    exec (.versionReclaim dt p) s = .next (if (u.epochs p).reclaimed < o then
        ((u.entriesOf p).foldl (fun s (k, vs) => s.reclaimEntry o k vs) u).updEpochs p fun e => { e with reclaimed := o }
      else u) := by
  change execVersionReclaim dt p s = _
  simp only [execVersionReclaim, ans, apply_ite Host.Outcome.next]

/-- Settles O30: the rows' lemmas; a commit and a discard that begin wait or end as `exec_epochCommit` and `exec_epochDiscard` say. -/
theorem epochCommandsCommitStallAndReclaim : Obligations.EpochCommandsCommitStallAndReclaim := by
  refine ⟨fun a => ?commit, fun s dt order fn ring claim since b => exec_epochCommitResume,
    fun s dt order t0 fn ring claim run hrun => exec_epochStall hrun,
    fun s dt order fn ring claim since run hrun => exec_epochStall_raised hrun, fun a hw hnone => ?discard, fun a hw hsome => ?discardWaits,
    fun s dt p h => ?reclaim, fun s dt p h => ?nothingToReclaim⟩
  case commit =>
    intro p e pend t hw hc hq
    have horder : a.t.takeOrder p e.nextOrder = t := a.t.takeOrder_next p
    rw [← horder] at hc hq
    have hexec := exec_epochCommit a hw hc hq
    rw [horder] at hexec
    refine ⟨fun hn _ => ?nothing, fun hn hlive => ?commits, fun hn hlive => ?waits⟩
    case nothing => exact hexec.trans (congrArg _ (if_neg (Nat.not_lt.2 hn.le)))
    case commits => exact hexec.trans (congrArg _ ((if_pos hn).trans (if_neg (Nat.not_lt.2 hlive))))
    case waits => exact hexec.trans (congrArg _ ((if_pos hn).trans (if_pos hlive)))
  case discard =>
    have hbefore : ¬ ∃ w ∈ a.t.writing a.part, w.2 < (a.t.epochs a.part).nextOrder := fun ⟨w, hmem, hlt⟩ =>
      Nat.not_lt.2 (hnone w hmem) hlt
    exact ⟨_, rfl, (exec_epochDiscard a hw).trans (congrArg _ (if_neg hbefore))⟩
  case discardWaits => exact (exec_epochDiscard a hw).trans (congrArg _ (if_pos hsome))
  case reclaim => exact (exec_versionReclaim s dt p).trans (congrArg _ (if_pos h))
  case nothingToReclaim => exact (exec_versionReclaim s dt p).trans (congrArg _ (if_neg (Nat.not_lt.2 h)))

end Sys2Proof.Machine
end

section
/-! PROOF. O31: the multicast commands, Caravan's two stages, and the Ledger's next packet of a writer port. -/

namespace Sys2Proof.Machine

/-! ### The commands (R195), while PARTITION is not ON -/

section Commands
variable {s : State} (hp : s.partOn = false) (c : Cmd) (x : Nat)
include hp

theorem mcastGroupBody_eq :
    let e := bits x 64 128
    let g := bits x 0 20
    let t := ({ s with caravan := { s.caravan with groups := s.caravan.groups.put 0 g e } }).recRewritten structGroup g
    let chains := (t.caravan.copies.filter fun k => k.2.2.1 == g).map fun k => k.2.1
    mcastGroupBody s c x =
      if bits x 20 44 ≠ 0 ∨ bits e 61 67 ≠ 0 ∨ 16384 < grpCount e ∨ 8388608 < grpBase e + grpCount e then .fail s stBadArg
      else if chains.isEmpty = true then .ok t else .wait t (.mcast g (s.caravan.groups.get 0 g) chains) := by
  simp only [mcastGroupBody, hp, Bool.false_and, Bool.false_eq_true, if_false]

theorem mcastReadBody_eq : mcastReadBody s c x =
    if bits x 20 44 ≠ 0 then .fail s stBadArg else .okResp s 0 (leBytes 16 (s.caravan.groups.get 0 (bits x 0 20))) := by
  have hst : mcastReadOk s c x = if bits x 20 44 ≠ 0 then stBadArg else stOk := by
    simp only [mcastReadOk, hp, Bool.false_and, Bool.false_eq_true, if_false]
  unfold mcastReadBody
  rw [hst]
  by_cases hx : bits x 20 44 ≠ 0
  · simp only [if_pos hx]
    exact if_pos (by decide)
  · simp only [if_neg hx]
    exact if_neg (not_not.2 rfl)

theorem mcastMembersBody_formed (h23 : bits x 23 9 = 0) (h45 : bits x 45 19 = 0) (hend : bits x 0 23 + bits x 32 13 ≤ 8388608)
    (hports : ∀ e ∈ memberList x, bits e.2 0 8 < 48) : mcastMembersBody s c x = .ok ((memberList x).foldl (fun s e =>
      ({ s with caravan := { s.caravan with members := s.caravan.members.put 0 e.1 e.2 } }).recRewritten structMember e.1) s) := by
  have hany : ¬ ((memberList x).any fun e => decide (48 ≤ bits e.2 0 8)) = true := by
    simpa only [List.any_eq_true, decide_eq_true_eq, not_exists, not_and, Nat.not_le] using hports
  have hformed : ¬ (bits x 23 9 ≠ 0 ∨ bits x 45 19 ≠ 0 ∨ 8388608 < bits x 0 23 + bits x 32 13 ∨
      ((memberList x).any fun e => decide (48 ≤ bits e.2 0 8)) = true) := by
    rintro (h | h | h | h)
    exacts [h h23, h h45, Nat.not_lt.2 hend h, hany h]
  unfold mcastMembersBody
  rw [if_neg hformed, hp]
  rfl

theorem mcastEsetBody_eq : mcastEsetBody s c x =
    if bits x 16 48 ≠ 0 then .fail s stBadArg
    else .ok (({ s with caravan := { s.caravan with
      esets := s.caravan.esets.put 0 (bits x 0 16) (bits x 64 4096) } }).recRewritten structEset (bits x 0 16)) := by
  simp only [mcastEsetBody, hp, Bool.false_and, Bool.false_eq_true, if_false]

end Commands

/-! ### The first stage (R196; the copies' places in the input are log 113's) -/

section FirstStage
variable {s : State} {dt : Nat}

theorem exec_caravanFirstStage_nil (h : (s.pass dt).caravan.first = []) : exec (.caravanFirstStage dt) s = .next (s.pass dt) := by
  simp only [exec, execCaravanFirstStage, h, ans]

variable {i : Nat} {rest : List Nat} (h : (s.pass dt).caravan.first = i :: rest)
  {v : State} (hv : v = { s.pass dt with caravan := { (s.pass dt).caravan with first := rest } })
include h hv

theorem exec_caravanFirstStage_none (hk : (v.inputOf i).find? (·.first) = none) : exec (.caravanFirstStage dt) s = .next v := by
  subst hv
  simp only [exec, execCaravanFirstStage, h, hk, ans]

theorem exec_caravanFirstStage_some {k : Pkt} (hk : (v.inputOf i).find? (·.first) = some k) :
    exec (.caravanFirstStage dt) s = .next (v.replicate i k) := by
  subst hv
  simp only [exec, execCaravanFirstStage, h, hk, ans]

end FirstStage

/-! ### The second stage (R197 to R199) -/

/-- What one member adds to the copies of chain `c`: its copy, which holds the source's epoch, or, when its entry reads
uncorrectable, a count and one share of the chain less. -/
def addMember (w c : Nat) (k : Pkt) (r : State × List (Nat × Nat × Nat × Pkt)) :
    Option Nat → State × List (Nat × Nat × Nat × Pkt)
  | none => ((r.1.bump (groupCtr 4) k.pp.dest).releaseChain c agentCaravan, r.2)
  | some m => (r.1.takeRef k.part k.ep, r.2 ++ [(w, c, k.pp.dest, r.1.memberCopy k m)])

/-- The model's test for a group without members. -/
theorem noMembers_iff (e : Nat) : (!grpValid e || grpCount e == 0) = true ↔ grpValid e = false ∨ grpCount e = 0 := by
  rw [Bool.or_eq_true, Bool.not_eq_true', beq_iff_eq]

section SecondStage
variable {s : State} {dt w : Nat} {k : Pkt} {rest : List (Nat × Pkt)} (h : (s.pass dt).caravan.second = (w, k) :: rest)
  {v : State} (hv : v = { s.pass dt with caravan := { (s.pass dt).caravan with second := rest } })
include h hv

theorem exec_caravanSecondStage_empty (he : grpValid (v.groupEntry k.pp.dest) = false ∨ grpCount (v.groupEntry k.pp.dest) = 0) :
    exec (.caravanSecondStage dt) s = .next (((v.bump (groupCtr 4) k.pp.dest).capturePkt 10 k).dropRef k) := by
  have hno := (noMembers_iff (v.groupEntry k.pp.dest)).2 he
  subst hv
  simp only [exec, execCaravanSecondStage, h, if_pos hno, ans]

variable (he : ¬ (grpValid (v.groupEntry k.pp.dest) = false ∨ grpCount (v.groupEntry k.pp.dest) = 0)) {t : State}
include he

theorem exec_caravanSecondStage_noRoom (ht : v.allocChain (grpPool (v.groupEntry k.pp.dest)) (roomsOf k.data.length) = (t, none)) :
    exec (.caravanSecondStage dt) s =
      .next (((t.bump (groupCtr 3) k.pp.dest (grpCount (v.groupEntry k.pp.dest))).capturePkt 10 k).dropRef k) := by
  have hsome := mt (noMembers_iff (v.groupEntry k.pp.dest)).1 he
  subst hv
  simp only [exec, execCaravanSecondStage, h, if_neg hsome, ht, ans]

theorem exec_caravanSecondStage_copies {c : Nat}
    (ht : v.allocChain (grpPool (v.groupEntry k.pp.dest)) (roomsOf k.data.length) = (t, some c)) :
    let y := t.updChain c fun h => { h with share := grpCount (v.groupEntry k.pp.dest) }
    let r := (y.groupMembers (v.groupEntry k.pp.dest)).foldl (addMember w c k) (y, y.caravan.copies)
    let z : State := { r.1 with caravan := { r.1.caravan with copies := r.2 } }
    exec (.caravanSecondStage dt) s = .next (if (r.2.any fun e => e.2.1 == c) = true then z else z.dropRef k) := by
  have hsome := mt (noMembers_iff (v.groupEntry k.pp.dest)).1 he
  subst hv
  simp only [exec, execCaravanSecondStage, h, if_neg hsome, ht, ans]
  rfl

end SecondStage

/-! ### The Ledger's next packet of a writer port (R199, R256; its evaluation slot is log 125's) -/

section Admission
variable {s : State} {dt : Nat} {w : Fin 8}

theorem exec_ledgerAdmission_copy {c g : Nat} {k : Pkt} {rest : List (Nat × Nat × Nat × Pkt)}
    (h : takeCopy w (s.pass dt).caravan.copies = some ((c, g, k), rest)) :
    let u := s.pass dt
    (u.evalSlot w k.pp.queue = none → exec (.ledgerAdmission dt w) s = .next u) ∧
    (∀ j, u.evalSlot w k.pp.queue = some j → exec (.ledgerAdmission dt w) s = .next
      (((({ u with caravan := { u.caravan with copies := rest } }).evaluated j w k.pp.queue).decideCopy c g k).endReplications)) :=
  ⟨fun hslot => by simp only [exec, execLedgerAdmission, h, hslot, ans],
    fun j hslot => by simp only [exec, execLedgerAdmission, h, hslot, ans]⟩

variable (h : takeCopy w (s.pass dt).caravan.copies = none)
include h

theorem exec_ledgerAdmission_nil (hout : (s.pass dt).outputOf (24 + w) = []) :
    exec (.ledgerAdmission dt w) s = .next (s.pass dt) := by
  simp only [exec, execLedgerAdmission, h, hout, ans]

variable {k : Pkt} {rest : List Pkt} (hout : (s.pass dt).outputOf (24 + w) = k :: rest)
include hout

theorem exec_ledgerAdmission_multicast (hk : k.pp.kind = kindMulticast) :
    exec (.ledgerAdmission dt w) s = .next (((s.pass dt).updOutput (24 + w) fun _ => rest).pushSecond w k) := by
  simp only [exec, execLedgerAdmission, h, hout, if_pos hk, ans]

theorem exec_ledgerAdmission_packet (hk : k.pp.kind ≠ kindMulticast) :
    let u := s.pass dt
    (u.evalSlot w k.pp.queue = none → exec (.ledgerAdmission dt w) s = .next u) ∧
    (∀ j, u.evalSlot w k.pp.queue = some j → exec (.ledgerAdmission dt w) s = .next
      (((u.updOutput (24 + w) fun _ => rest).evaluated j w k.pp.queue).offer none k).1) :=
  ⟨fun hslot => by simp only [exec, execLedgerAdmission, h, hout, if_neg hk, hslot, ans],
    fun j hslot => by simp only [exec, execLedgerAdmission, h, hout, if_neg hk, hslot, ans]⟩

end Admission

/-- Settles O31: a lemma for each command's own execution, and for each way that a stage or the Ledger goes. -/
theorem multicastCommandsAndStagesMakeCopies : Obligations.MulticastCommandsAndStagesMakeCopies := by
  refine ⟨fun a => ?group, fun a hp => ?read, fun a hp h23 h45 hend hports => ?members, fun a hp => ?eset,
    fun s dt i rest => ?first, fun s i k => rfl, fun s dt w k rest => ?second,
    fun s dt c g w k rest => exec_ledgerAdmission_copy, fun s dt w k rest => ?packet,
    fun s dt w => exec_ledgerAdmission_nil⟩
  case group =>
    intro e g t chains hp
    refine congrArg Host.Outcome.next ((a.run_of (mcastGroupBody_eq hp _ _)).trans ?_)
    exact (apply_ite a.does _ _ _).trans (if_congr Iff.rfl rfl (apply_ite a.does _ _ _))
  case read => exact congrArg Host.Outcome.next ((a.run_of (mcastReadBody_eq hp _ _)).trans (apply_ite a.does _ _ _))
  case members => exact congrArg Host.Outcome.next (a.run_of (mcastMembersBody_formed hp _ _ h23 h45 hend hports))
  case eset => exact congrArg Host.Outcome.next ((a.run_of (mcastEsetBody_eq hp _ _)).trans (apply_ite a.does _ _ _))
  case first =>
    intro u v
    refine ⟨exec_caravanFirstStage_nil, fun h => ?_⟩
    cases hk : (v.inputOf i).find? (·.first) with
    | none => exact exec_caravanFirstStage_none h rfl hk
    | some k => exact exec_caravanFirstStage_some h rfl hk
  case second =>
    intro u v e h
    have hmembers (hvalid : grpValid e = true) (hcount : grpCount e ≠ 0) : ¬ (grpValid e = false ∨ grpCount e = 0) :=
      not_or.2 ⟨ne_false_of_eq_true hvalid, hcount⟩
    refine ⟨exec_caravanSecondStage_empty h rfl, fun hvalid hcount hnone => ?_, fun c hvalid hcount hsome => ?_⟩
    · exact exec_caravanSecondStage_noRoom h rfl (hmembers hvalid hcount) (Prod.ext rfl hnone)
    · exact ⟨_, _, rfl, rfl, exec_caravanSecondStage_copies h rfl (hmembers hvalid hcount) (Prod.ext rfl hsome)⟩
  case packet =>
    intro u v h hout
    exact ⟨exec_ledgerAdmission_multicast h hout, fun hk => (exec_ledgerAdmission_packet h hout hk).1,
      fun j hk => (exec_ledgerAdmission_packet h hout hk).2 j⟩

end Sys2Proof.Machine
end

section
/-! PROOF. O32: the commands of the Inn and the end of its audit, the spill and the pull of a page. -/

namespace Sys2Proof.Machine

/-! ### INN_POOL_SET (R204, R215) -/

theorem innPoolSetBody_reserved {x : Nat} (h : bits x 5 3 ≠ 0 ∨ bits x 37 3 ≠ 0 ∨ bits x 56 8 ≠ 0) (s : State) (c : Cmd) :
    innPoolSetBody s c x = .fail s stBadArg := if_pos h

/-- A reserve below a page's sixteen rooms suits a pool that no spilling queue draws from. -/
theorem innPoolSetBody_formed {s : State} {x : Nat} (hp : s.partOn = false) (h5 : bits x 5 3 = 0) (h37 : bits x 37 3 = 0)
    (h56 : bits x 56 8 = 0) (hres : 16 ≤ bits x 40 16 ∨ ∀ q ∈ s.tm.queues, q.2.spillEn = true → q.2.pool ≠ bits x 0 5) (c : Cmd) :
    innPoolSetBody s c x = if (s.roomRange c.part).2 < s.poolSum c.part (bits x 0 5) (bits x 8 29) then .fail s stNoSpace
      else .ok (s.updPool (bits x 0 5) fun q => { q with rooms := bits x 8 29, reserve := bits x 40 16 }) := by
  have hform : ¬ (bits x 5 3 ≠ 0 ∨ bits x 37 3 ≠ 0 ∨ bits x 56 8 ≠ 0) := by
    rintro (h | h | h)
    exacts [h h5, h h37, h h56]
  have hreserve : ¬ (bits x 40 16 < 16 ∧ (s.tm.queues.any fun (_, q) => q.spillEn && q.pool == bits x 0 5) = true) := by
    rintro ⟨hlow, hany⟩
    obtain ⟨q, hq, hdraws⟩ := List.any_eq_true.1 hany
    obtain ⟨hspill, hpool⟩ := (Bool.and_eq_true _ _).mp hdraws
    exact hres.elim (Nat.not_le.2 hlow) fun h => h q hq hspill (beq_iff_eq.1 hpool)
  unfold innPoolSetBody
  rw [if_neg hform, hp, Bool.false_and, if_neg Bool.false_ne_true, if_neg hreserve]

/-! ### INN_QUEUE_SET (R215, R217) -/

/-- Queue `bits x 0 20` has the memory record of payload `x`. -/
def State.setQueueRecord (s : State) (x : Nat) : State := s.updQueue (bits x 0 20) fun u =>
  { u with pool := bits x 24 5, spillEn := bit x 29, spillPages := bits x 32 20, pullAhead := bits x 52 8, markKib := bits x 64 24 }

theorem innQueueSetBody_eq {s : State} (hp : s.partOn = false) (c : Cmd) (x : Nat) :
    let t := s.setQueueRecord x
    let part := s.queuePart (bits x 0 20)
    innQueueSetBody s c x = if innQueueOk s x = false then .fail s stBadArg
      else if bit x 29 = true ∧ t.pullLimit part < t.spillSum part false then .fail s stOvercommit
      else if bit x 29 = true ∧ t.pullLimit part < t.spillSum part true then .wait s .capacity else .ok t.landed := by
  simp only [innQueueSetBody, hp, Bool.not_eq_true', Bool.false_and, Bool.false_eq_true, if_false, Bool.and_eq_true,
    decide_eq_true_eq]
  rfl

/-! ### The end of INN_AUDIT (R209) -/

theorem exec_innAuditDone {s : State} {dt : Nat} {fn : Fin 2} {ring : Fin 64} (h : (s.pass dt).waitOf fn ring = some .audit) :
    let u := s.pass dt
    let live := u.inn.chains.flatMap fun (c, _) => u.chainRooms c
    let back := u.inn.quarantined.filter fun (r, p) =>
      u.poolPart p == u.partOf fn && !live.contains r && !u.roomRetired r
    let v : State := { u with inn := { u.inn with quarantined := u.inn.quarantined.filter fun e => !back.contains e } }
    exec (.innAuditDone dt fn ring) s = .next ((((back.foldl (fun (s : State) (r, p) => s.returnRoom p r false) v).lowerQuarantined
      (u.partOf fn) back.length)).endWait fn ring stOk 0 back.length []) := by
  have hwait : ((s.pass dt).waitOf fn ring != some .audit) = false := by rw [h, bne_self_eq_false]
  exact if_neg (ne_true_of_eq_false hwait)

/-! ### Spill (R211, R214; the channels' order and the shared chains' rooms are log 116's and log 60's) -/

/-- R211: what a queue needs to spill a page. -/
theorem State.spillDue_iff (s : State) (k : Queue) : s.spillDue k = true ↔ s.isOn .cellar = true ∧ k.spillEn = true ∧
    k.spillPages * 4096 < k.depth ∧ 16 ≤ k.tailRooms ∧ 16 * k.spillPages + 16 ≤ k.allRooms := by
  simp only [State.spillDue, State.spills, Bool.and_eq_true, decide_eq_true_eq, and_assoc]

theorem State.spillDue_eq_false_iff (s : State) (k : Queue) : s.spillDue k = false ↔ s.isOn .cellar = false ∨ k.spillEn = false ∨
    k.depth ≤ k.spillPages * 4096 ∨ k.tailRooms < 16 ∨ k.allRooms < 16 * k.spillPages + 16 := by
  simp only [← Bool.not_eq_true, State.spillDue_iff, not_and_or, Nat.not_le, Nat.not_lt]

section Spill
variable {s : State} {dt : Nat} {q : Fin 1048576} {out : Fin 3}

theorem exec_cellarSpill_notDue (h : (s.pass dt).spillDue ((s.pass dt).queue q) = false) :
    exec (.cellarSpill dt ⟨q, out⟩) s = .next (s.pass dt) := if_pos ((Bool.not_eq_true' _).mpr h)

variable (h : (s.pass dt).spillDue ((s.pass dt).queue q) = true)
include h

theorem exec_cellarSpill_blocked (hpage : (s.pass dt).findPage ((s.pass dt).queuePart q) q = none) :
    exec (.cellarSpill dt ⟨q, out⟩) s = .next ((s.pass dt).spillBlocked ((s.pass dt).queuePart q) q) := by
  simp only [exec, execCellarSpill, h, hpage, Bool.not_true, Bool.false_eq_true, if_false, ans]

theorem exec_cellarSpill_page {page : Nat} (hpage : (s.pass dt).findPage ((s.pass dt).queuePart q) q = some page) :
    let u := s.pass dt
    let part := u.queuePart q
    let v := u.spillPage part q page out
    exec (.cellarSpill dt ⟨q, out⟩) s = .next (
      if u.trafficFits part 0 32768 = false ∨ u.pullBefore part none = true ∨ u.spillsNow part q = false then u
      else if v.findPage part q = none then v.cellarState part true else v) := by
  simp only [exec, execCellarSpill, h, hpage, Bool.not_true, Bool.false_eq_true, if_false, ans, Bool.or_eq_true, Bool.not_eq_true',
    or_assoc, Option.isNone_iff_eq_none, apply_ite Host.Outcome.next]

end Spill

/-! ### Pull (R212, R214, R216) -/

/-- R212: C holds a page and H less than PULL_AHEAD pages. -/
theorem Queue.pullDue_iff (u : Queue) : u.pullDue = true ↔ u.cpages ≠ [] ∧ u.hRooms < 16 * u.pullAheadActs := by
  simp only [Queue.pullDue, Bool.and_eq_true, Bool.not_eq_true', List.isEmpty_eq_false_iff, decide_eq_true_eq]

theorem State.pullFits_iff (s : State) (needs : List (Nat × Nat × Nat)) : s.pullFits needs = true ↔ s.pullShort needs = [] :=
  List.isEmpty_iff

section Pull
variable {s : State} {dt : Nat} {q : Fin 1048576} {out : Fin 3}

theorem exec_pullBack_nothing (h : ((s.pass dt).queue q).pullDue = false) : exec (.pullBack dt q out) s = .next (s.pass dt) := by
  change execPullBack dt q out s = _
  unfold execPullBack
  cases hpages : ((s.pass dt).queue q).cpages with
  | nil => simp only [hpages, ans]
  | cons e rest => simp only [hpages, h, Bool.not_false, if_true, ans]

variable {page n : Nat} {rest : List (Nat × Nat)} (hpages : ((s.pass dt).queue q).cpages = (page, n) :: rest)
  (hdue : ((s.pass dt).queue q).pullDue = true)
include hpages hdue

/-- A pool that cannot give the rooms counts the pull once. -/
theorem exec_pullBack_short (hshort : (s.pass dt).pullShort ((s.pass dt).pullNeeds ((s.pass dt).queue q) n) ≠ []) :
    let u := s.pass dt
    exec (.pullBack dt q out) s = .next (if (u.queue q).pullStalled = true then u
      else ((u.pullShort (u.pullNeeds (u.queue q) n)).foldl (fun s p => s.bump ⟨0x0E, 0, 1⟩ p) u).updQueue q fun x =>
        { x with pullStalled := true }) := by
  have hfits := eq_false_of_ne_true (mt (State.pullFits_iff ..).1 hshort)
  simp only [exec, execPullBack, hpages, hdue, hfits, Bool.not_true, Bool.not_false, Bool.false_eq_true, if_false, if_true, ans,
    apply_ite Host.Outcome.next]

variable (hshort : (s.pass dt).pullShort ((s.pass dt).pullNeeds ((s.pass dt).queue q) n) = [])
include hshort

theorem exec_pullBack_later (hlater : (s.pass dt).trafficFits ((s.pass dt).queuePart q) 1 32768 = false ∨
      (s.pass dt).pullBefore ((s.pass dt).queuePart q) (some ((s.pass dt).queue q)) = true) :
    exec (.pullBack dt q out) s = .next (s.pass dt) := by
  have hfits := (State.pullFits_iff ..).2 hshort
  simp only [exec, execPullBack, hpages, hdue, hfits, Bool.not_true, Bool.false_eq_true, if_false, ans, Bool.or_eq_true,
    Bool.not_eq_true', if_pos hlater]

/-- The page is read in the state `w`, which has its rooms at the end of H; `hit` are the packets that hold data of it. -/
theorem exec_pullBack_page (hlimit : (s.pass dt).trafficFits ((s.pass dt).queuePart q) 1 32768 = true)
    (hturn : (s.pass dt).pullBefore ((s.pass dt).queuePart q) (some ((s.pass dt).queue q)) = false) :
    let u := s.pass dt
    let k := u.queue q
    let part := u.queuePart q
    let o := if u.inn.poisonPages.contains page = true then 2 else out.val
    let hit := (unitsIn k.hRooms k.hRooms (k.hRooms + n) 0 k.pkts).map (·.1)
    let w := ((u.pullNeeds k n).foldl (fun (s : State) (c, i, m) => s.growChain c i m) (u.noteTraffic part 1 32768)).updQueue q fun x =>
      { x with
        cpages := rest, pullStalled := false, tRooms := if rest.isEmpty then 0 else x.tRooms
        pkts := if o = 2 then x.pkts.map fun p => if hit.contains p then { p with poisoned := true } else p else x.pkts }
    exec (.pullBack dt q out) s = .next
      (((w.readOne part (w.pageUnit page) structPage page o).freePage q page (o == 2)).bump (innPart 4) part) := by
  have hfits := (State.pullFits_iff ..).2 hshort
  simp only [exec, execPullBack, hpages, hdue, hfits, hlimit, hturn, Bool.not_true, Bool.or_self, Bool.false_eq_true, if_false, ans]

end Pull

/-- Settles O32: a lemma for each command's own execution, and for each way that a spill or a pull goes. -/
theorem innCommandsSpillPullAndAudit : Obligations.InnCommandsSpillPullAndAudit := by
  refine ⟨fun a hp h5 h37 h56 hres => ?pool, fun a h => ?poolReserved, fun a => ?queue, fun a => ?audit,
    fun s dt fn ring => exec_innAuditDone, fun s dt q out => ?spill, fun s part q page out => rfl, fun s dt page n q out rest => ?pull,
    fun s dt q out => ?nothing⟩
  case pool =>
    exact congrArg Host.Outcome.next ((a.run_of (innPoolSetBody_formed hp h5 h37 h56 hres _)).trans (apply_ite a.does _ _ _))
  case poolReserved => exact congrArg Host.Outcome.next (a.run_of (innPoolSetBody_reserved h _ _))
  case queue =>
    intro q t lim hp
    refine congrArg Host.Outcome.next ((a.run_of (innQueueSetBody_eq hp _ _)).trans ((apply_ite a.does _ _ _).trans ?_))
    refine if_congr Iff.rfl rfl ((apply_ite a.does _ _ _).trans ?_)
    exact if_congr Iff.rfl rfl (apply_ite a.does _ _ _)
  case audit => exact congrArg Host.Outcome.next (a.run_waits rfl)
  case spill =>
    intro u k part
    refine ⟨fun h => exec_cellarSpill_notDue ((State.spillDue_eq_false_iff ..).2 h), fun hon hen hdepth htail hall => ?_⟩
    have hdue : u.spillDue k = true := (State.spillDue_iff ..).2 ⟨hon, hen, hdepth, htail, hall⟩
    exact ⟨exec_cellarSpill_blocked hdue, fun page => exec_cellarSpill_page hdue⟩
  case pull =>
    intro u k part needs o hpages hahead
    have hdue : k.pullDue = true := k.pullDue_iff.2 ⟨hpages ▸ List.cons_ne_nil _ _, hahead⟩
    refine ⟨fun hshort hfirst => ?_, fun hshort hagain => ?_, exec_pullBack_later hpages hdue, fun hshort hlimit hturn => ?_⟩
    · exact (exec_pullBack_short hpages hdue hshort).trans (congrArg _ (if_neg (ne_true_of_eq_false hfirst)))
    · exact (exec_pullBack_short hpages hdue hshort).trans (congrArg _ (if_pos hagain))
    · exact ⟨_, _, rfl, rfl, exec_pullBack_page hpages hdue hshort hlimit hturn⟩
  case nothing =>
    intro u h
    refine exec_pullBack_nothing (eq_false_of_ne_true fun hdue => ?_)
    obtain ⟨hpages, hahead⟩ := (Queue.pullDue_iff _).1 hdue
    exact h.elim hpages (Nat.not_le.2 hahead)

end Sys2Proof.Machine
end

section
/-! PROOF. O21: what a CAP cell does in each state of a link, and the version of a link that it brings UP. -/

namespace Sys2Proof.Machine

/-! ### Versions (R231, R232) -/

theorem highestVersion_le (mask n : Nat) : highestVersion mask n ≤ n := by
  induction n with
  | zero => exact Nat.le_refl 0
  | succ n ih =>
    unfold highestVersion
    split
    · exact Nat.le_refl _
    · exact Nat.le_succ_of_le ih

theorem bit_highestVersion {mask n : Nat} (h : highestVersion mask n ≠ 0) : bit mask (highestVersion mask n) = true := by
  induction n with
  | zero => exact absurd rfl h
  | succ n ih =>
    unfold highestVersion at h ⊢
    split at h
    · rename_i hset; rw [if_pos hset]; exact hset
    · rename_i hclear; rw [if_neg hclear]; exact ih h

theorem bit_above_highestVersion {mask n v : Nat} (habove : highestVersion mask n < v) (hle : v ≤ n) : bit mask v = false := by
  induction n with
  | zero => omega
  | succ n ih =>
    unfold highestVersion at habove
    split at habove
    · omega
    · rename_i hclear
      rcases Nat.le_succ_iff.1 hle with hlow | rfl
      · exact ih habove hlow
      · exact eq_false_of_ne_true hclear

theorem bit_capVersions_high (w : Nat) {v : Nat} (h : 8 ≤ v) : bit (capVersions w) v = false :=
  Nat.testBit_lt_two_pow (lt_of_lt_of_le (Nat.mod_lt _ (by decide)) (Nat.pow_le_pow_right (by decide) h))

/-- The stepping offers no version above 3. -/
theorem State.le_three_of_offered {s : State} {j v : Nat} (h : bit (s.offered j) v = true) : v ≤ 3 := by
  have hstep : bit (if s.chip.stepping = 1 then 0x0E else 0x06) v = true := by
    unfold State.offered at h
    simp only [bit] at h ⊢
    split at h <;> simp only [Nat.testBit_and, Bool.and_eq_true] at h
    · exact h.1.1
    · exact h.1
  have hlt : (if s.chip.stepping = 1 then 0x0E else 0x06) < 2 ^ 4 := by split <;> decide
  by_contra hv
  rw [bit, Nat.testBit_lt_two_pow (lt_of_lt_of_le hlt (Nat.pow_le_pow_right (by decide) (by omega)))] at hstep
  exact Bool.false_ne_true hstep

/-- R232: `v` is the highest version that both ends offer. -/
structure State.Highest (s : State) (j w v : Nat) : Prop where
  pos : 1 ≤ v
  offers : bit (s.offered j) v = true
  received : bit (capVersions w) v = true
  above : ∀ x, v < x → bit (s.offered j) x = false ∨ bit (capVersions w) x = false

theorem State.commonVersion_highest {s : State} {j w : Nat} (h : s.commonVersion j w ≠ 0) :
    s.Highest j w (s.commonVersion j w) := by
  have hboth : ∀ v, bit (s.offered j &&& capVersions w) v = (bit (s.offered j) v && bit (capVersions w) v) := Nat.testBit_and _ _
  have hset := bit_highestVersion h
  rw [hboth, Bool.and_eq_true] at hset
  refine ⟨Nat.one_le_iff_ne_zero.2 h, hset.1, hset.2, fun x hx => ?_⟩
  rcases Nat.lt_or_ge x 8 with hlow | hhigh
  · exact Bool.and_eq_false_iff.1 ((hboth x).symm.trans (bit_above_highestVersion hx (Nat.le_of_lt_succ hlow)))
  · exact .inr (bit_capVersions_high w hhigh)

/-! ### The decision (R232, R233) -/

theorem State.capCause_eq_zero {s : State} {j w : Nat} (h : s.capCause j w = 0) :
    s.commonVersion j w ≠ 0 ∧ (24 ≤ j → s.commonVersion j w ≠ 1) := by
  simp only [State.capCause] at h
  split_ifs at h with _ _ _ hnone hone
  exact ⟨hnone, fun hj hv => hone ⟨hv, .inr (decide_eq_true hj)⟩⟩

/-- Check 5 on the twin link, behind the checks before it. -/
theorem State.capCause_twin_one {s : State} {j w : Nat} (hj : 24 ≤ j) (hfe : capFe w = false) (hep : capEndpoint w ≠ s.ownEndpoint)
    (hv : s.commonVersion j w = 1) : s.capCause j w = 5 := by
  simp [State.capCause, hj, hfe, hep, hv]

theorem State.Beside.link {s t : State} (h : s.Beside t) (j : Nat) : t.link j = s.link j :=
  show t.aside.link j = s.aside.link j by rw [h.rest]

@[simp] theorem State.link_raise (s : State) (p : Nat) (e : EvName) (i x j : Nat) : (s.raise p e i x).link j = s.link j :=
  (State.raise_beside ..).link j

@[simp] theorem State.link_bump (s : State) (c : CtrName) (ix n j : Nat) : (s.bump c ix n).link j = s.link j :=
  (State.bump_beside ..).link j

theorem State.decideLink_up {s : State} {j w : Nat} (h : s.capCause j w = 0) :
    ((s.decideLink j w).link j).st = .up ∧ ((s.decideLink j w).link j).version = s.commonVersion j w := by
  simp only [State.decideLink, if_pos h, State.link_raise, State.link_updLink, and_self]

theorem State.decideLink_noCommon {s : State} {j w : Nat} (h : s.capCause j w ≠ 0) :
    ((s.decideLink j w).link j).st = .noCommon ∧ ((s.decideLink j w).link j).cause = s.capCause j w := by
  simp only [State.decideLink, if_neg h, State.link_raise, State.link_updLink, and_self]

/-- A link that its decision brings UP has the highest common version, on the twin link not 1. -/
theorem State.highest_of_decideLink_up {s : State} {j w : Nat} (h : ((s.decideLink j w).link j).st = .up) :
    s.Highest j w ((s.decideLink j w).link j).version ∧ (24 ≤ j → ((s.decideLink j w).link j).version ≠ 1) := by
  by_cases hc : s.capCause j w = 0
  · obtain ⟨hsome, htwin⟩ := State.capCause_eq_zero hc
    rw [(State.decideLink_up hc).2]
    exact ⟨State.commonVersion_highest hsome, htwin⟩
  · rw [(State.decideLink_noCommon hc).1] at h
    cases h

/-! ### A CAP cell (R229, R232) -/

theorem State.st_toCap {s : State} {j : Nat} (h : (s.link j).st ≠ .up) : ((s.toCap j).link j).st = .cap := by
  simp only [State.toCap, beq_eq_false_iff_ne.2 h, Bool.false_eq_true, if_false, State.link_updLink]

@[simp] theorem State.st_goodCell (s : State) (j : Nat) (counted : Bool) : ((s.goodCell j counted).link j).st = (s.link j).st := by
  cases counted <;> simp [State.goodCell]

/-- Counting and raising events leave the versions that the device offers as they are. -/
theorem State.Beside.offered {s t : State} (h : s.Beside t) (j : Nat) : t.offered j = s.offered j := by
  have hchip : t.chip = s.chip := (congrArg State.chip h.rest :)
  have htwin : t.twin = s.twin := (congrArg State.twin h.rest :)
  have hon : t.isOn .twin = s.isOn .twin := (congrArg (State.isOn · .twin) h.rest :)
  simp only [State.offered, State.regF, h.regs 0x01C01000 (by decide), hchip, htwin, hon]

/-- What a link has received does not change what the device offers on it. -/
theorem State.offered_goodCell (s : State) (i : Nat) (counted : Bool) (j : Nat) : (s.goodCell i counted).offered j = s.offered j := by
  cases counted with
  | false => rfl
  | true => exact (State.bump_beside ..).offered j

/-- How many CAP cells in a row have brought the word `w`, with this one (R232). -/
def Link.capRunWith (l : Link) (w : Nat) : Nat := if l.capRun ≠ 0 ∧ l.capWord = w then l.capRun + 1 else 1

/-- The same of a changed word in NO_COMMON (R229). -/
def Link.changedRunWith (l : Link) (w : Nat) : Nat := if l.changedRun ≠ 0 ∧ l.changed = w then l.changedRun + 1 else 1

section CapCell
variable {s : State} {dt : Nat} {j : Fin 26} {word : BitVec 64}

theorem exec_capCellReceived_ignored (h : ((s.pass dt).link j).st = .down ∨ (s.pass dt).chip.d2dDown = true) :
    exec (.capCellReceived dt j word) s = .next (s.pass dt) := by
  change execCapCellReceived dt j word s = _
  unfold execCapCellReceived
  rcases h with h | h <;> simp only [h, ans, ite_self, if_true]

variable (hd : (s.pass dt).chip.d2dDown = false)
include hd

/-- The third equal word in a row decides the link. -/
theorem exec_capCellReceived_cap (h : ((s.pass dt).link j).st = .cap) :
    let u := s.pass dt
    let l := u.link j
    let w := word.toNat
    let run := l.capRunWith w
    let v := (u.goodCell j true).updLink j fun l => { l with capWord := w, capRun := run }
    exec (.capCellReceived dt j word) s = .next (if run = 3 then v.decideLink j w else v) := by
  simp only [exec, execCapCellReceived, hd, h, Bool.false_eq_true, if_false]
  exact (apply_ite Host.Outcome.next _ _ _).symm

/-- The third equal word in a row that is not the decided one starts the negotiation again (log 54). -/
theorem exec_capCellReceived_noCommon (h : ((s.pass dt).link j).st = .noCommon) :
    let u := s.pass dt
    let l := u.link j
    let w := word.toNat
    let g := u.goodCell j true
    let run := l.changedRunWith w
    let v := g.updLink j fun l => { l with changed := w, changedRun := run }
    exec (.capCellReceived dt j word) s = .next (if w = l.word then g.updLink j fun l => { l with changedRun := 0 }
      else if run = 3 then v.toCap j else v) := by
  simp only [exec, execCapCellReceived, hd, h, Bool.false_eq_true, if_false, apply_ite Host.Outcome.next]
  rfl

theorem exec_capCellReceived_up (h : ((s.pass dt).link j).st = .up) :
    let u := s.pass dt
    let g := u.goodCell j true
    exec (.capCellReceived dt j word) s = .next (if word.toNat = (u.link j).word then g else g.toCap j) := by
  simp only [exec, execCapCellReceived, hd, h, Bool.false_eq_true, if_false, ans, apply_ite Host.Outcome.next]

end CapCell

/-- A CAP cell brings a link UP only by the decision in CAP. -/
theorem decided_of_capCellReceived {s t : State} {dt : Nat} {j : Fin 26} {word : BitVec 64}
    (hexec : exec (.capCellReceived dt j word) s = .next t) (hbefore : (s.link j).st ≠ .up) (hafter : (t.link j).st = .up) :
    ∃ v : State, t = v.decideLink j word.toNat ∧ ∀ i, v.offered i = s.offered i := by
  have hu : ((s.pass dt).link j).st ≠ .up := hbefore
  have hsame : t ≠ s.pass dt := fun h => hu (h ▸ hafter)
  cases hd : (s.pass dt).chip.d2dDown with
  | true => exact absurd (Host.Outcome.next.inj (hexec.symm.trans (exec_capCellReceived_ignored (.inr hd)))) hsame
  | false =>
    cases hst : ((s.pass dt).link j).st with
    | down => exact absurd (Host.Outcome.next.inj (hexec.symm.trans (exec_capCellReceived_ignored (.inl hst)))) hsame
    | cap =>
      have ht := Host.Outcome.next.inj (hexec.symm.trans (exec_capCellReceived_cap hd hst))
      split at ht
      · exact ⟨_, ht, fun i => State.offered_goodCell (s.pass dt) j true i⟩
      · rw [ht] at hafter; simp [hst] at hafter
    | noCommon =>
      have ht := Host.Outcome.next.inj (hexec.symm.trans (exec_capCellReceived_noCommon hd hst))
      rw [ht] at hafter
      split_ifs at hafter
      · simp [hst] at hafter
      · rw [State.st_toCap (by simp [hst])] at hafter; cases hafter
      · simp [hst] at hafter
    | up => exact absurd hst hu

/-- Settles O21: the link comes UP by its decision alone, and the decision takes the highest common version (R232). -/
theorem theTwinLinkRunsVersionTwoOrThree : Obligations.TheTwinLinkRunsVersionTwoOrThree := by
  refine ⟨fun s t dt j word hexec hbefore hafter => ?comesUp, fun s j w hj hfe hep hv => ?checkFive⟩
  case comesUp =>
    obtain ⟨v, rfl, hoffered⟩ := decided_of_capCellReceived hexec hbefore hafter
    obtain ⟨⟨hpos, hoffers, hreceived, habove⟩, htwin⟩ := State.highest_of_decideLink_up hafter
    have hthree := State.le_three_of_offered hoffers
    rw [hoffered] at hoffers
    simp only [hoffered] at habove
    exact ⟨_, rfl, hpos, hthree, hoffers, hreceived, habove, fun hj => by have := htwin hj; omega⟩
  case checkFive =>
    have hcause := State.capCause_twin_one hj hfe hep hv
    have hfails := State.decideLink_noCommon (hcause.trans_ne (by decide))
    exact ⟨hfails.1, hfails.2.trans hcause⟩

end Sys2Proof.Machine
end

section
/-! PROOF. O27: FAB_REACH_WRITE, and the rows that negotiate a fabric link, keep it alive and put it in electrical idle. -/

namespace Sys2Proof.Machine

/-! ### FAB_REACH_WRITE (R239) -/

theorem exec_fabReachWrite (a : Accepted fabReachSpec) : exec (.fabReachWrite a.i) a.s = .next (a.does (
    if bits a.x 12 20 ≠ 0 ∨ bits a.x 56 8 ≠ 0 then .fail a.t stBadArg
    else .ok { a.t with fabric := { a.t.fabric with reach := a.t.fabric.reach.put 0 (bits a.x 0 12) (bits a.x 32 24) } })) :=
  congrArg Host.Outcome.next a.run_does

/-! ### Rows that act when their time has come (R229, R232, R238, R242, R244) -/

section Timed
variable (s : State) (dt : Nat) (j : Fin 26)

/-- The first CAP cell goes at once, the next ones 10 µs apart. -/
theorem exec_capCellSend : let u := s.pass dt
    let l := u.link j
    exec (.capCellSend dt j) s = .next (
      if (l.st = .cap ∨ l.st = .noCommon) ∧ (∀ t, l.lastCap = some t → t + 10 * cycUs ≤ u.cyc) then
        (u.sendCell j (u.controlCell j 1 (u.capWord j))).updLink j fun l => { l with lastCap := some u.cyc }
      else u) := by
  simp only [exec, execCapCellSend, Bool.and_eq_true, Bool.or_eq_true, beq_iff_eq, Option.all_eq_true, decide_eq_true_eq, ans,
    apply_ite Host.Outcome.next]

theorem exec_reneg (hu : (s.pass dt).hostUp = true) : let u := s.pass dt
    exec (.reneg dt 0 j) s = .next (if (u.link j).st = .noCommon ∨ (u.link j).st = .up then u.toCap j else u) := by
  refine congrArg Host.Outcome.next ((State.sharedWrite_served hu rfl ..).trans ((if_neg (by decide)).trans (if_congr ?_ rfl rfl)))
  simp only [Bool.or_eq_true, beq_iff_eq]

theorem exec_creditSyncSend : let u := s.pass dt
    let l := u.link j
    exec (.creditSyncSend dt j) s = .next (if l.st = .up ∧ l.txIdle = false ∧ l.lastSync + 100 * cycUs ≤ u.cyc then
        (u.sendCell j (u.controlCell j 2 (l.sentUnits + l.returnedUnits * 2 ^ 32))).updLink j fun l => { l with lastSync := u.cyc }
      else u) := by
  simp only [exec, execCreditSyncSend, Bool.and_eq_true, beq_iff_eq, Bool.not_eq_true', decide_eq_true_eq, and_assoc, ans,
    apply_ite Host.Outcome.next]

theorem exec_keepaliveSend : let u := s.pass dt
    let l := u.link j
    exec (.keepaliveSend dt j) s = .next (if l.st = .up ∧ l.txIdle = false ∧ l.lastSent + 100 * cycUs ≤ u.cyc then
      u.sendCell j (u.controlCell j 4 0) else u) := by
  simp only [exec, execKeepaliveSend, Bool.and_eq_true, beq_iff_eq, Bool.not_eq_true', decide_eq_true_eq, and_assoc, ans,
    apply_ite Host.Outcome.next]

theorem exec_receiveTimeout : let u := s.pass dt
    let l := u.link j
    exec (.receiveTimeout dt j) s = .next (if l.st = .up ∧ l.rxIdle = false ∧ l.lastGood + cycMs ≤ u.cyc then
      u.linkDown j 1 else u) := by
  simp only [exec, execReceiveTimeout, Bool.and_eq_true, beq_iff_eq, Bool.not_eq_true', decide_eq_true_eq, and_assoc, ans,
    apply_ite Host.Outcome.next]

theorem exec_idleEnter : let u := s.pass dt
    let l := u.link j
    exec (.idleEnter dt j) s = .next (if l.st = .up ∧ l.txIdle = false ∧ u.idleUs ≠ 0 ∧ l.lastSent + u.idleUs * cycUs ≤ u.cyc ∧
        u.txWaits j = false ∧ u.cyc < l.lastSync + 100 * cycUs then
        (u.sendCell j (u.controlCell j 3 0)).updLink j fun l => { l with txIdle := true } else u) := by
  simp only [exec, execIdleEnter, Bool.and_eq_true, beq_iff_eq, bne_iff_ne, Bool.not_eq_true', decide_eq_true_eq, and_assoc, ans,
    apply_ite Host.Outcome.next]

theorem exec_idleEnterReceived : let u := s.pass dt
    exec (.idleEnterReceived dt j) s = .next (if (u.link j).st = .up ∧ u.chip.d2dDown = false then
      (u.goodCell j true).updLink j fun l => { l with rxIdle := true } else u) := by
  simp only [exec, execIdleEnterReceived, Bool.and_eq_true, beq_iff_eq, Bool.not_eq_true', ans, apply_ite Host.Outcome.next]

theorem exec_idleExit : let u := s.pass dt
    let l := u.link j
    exec (.idleExit dt j) s = .next (if l.txIdle = true ∧ u.txWaits j = true then
      u.updLink j fun l => { l with txIdle := false } else u) := by
  simp only [exec, execIdleExit, Bool.and_eq_true, ans, apply_ite Host.Outcome.next]

theorem exec_idleExitTimeout : let u := s.pass dt
    let l := u.link j
    exec (.idleExitTimeout dt j) s = .next (if l.st = .up ∧ l.rxIdle = true then u.linkDown j 1 else u) := by
  simp only [exec, execIdleExitTimeout, Bool.and_eq_true, beq_iff_eq, ans, apply_ite Host.Outcome.next]

end Timed

/-! ### CREDIT_SYNC and the credit stall (R242) -/

/-- Cells and returns that were lost come back as units to return and as credit. -/
theorem exec_creditSyncReceived (s : State) (dt : Nat) (j : Fin 26) (sent returned : BitVec 32) : let u := s.pass dt
    let g := u.goodCell j true
    let d := (sent.toNat + 2 ^ 32 - (g.link j).unitsRecv) % 2 ^ 32
    let e := (returned.toNat + 2 ^ 32 - (g.link j).returnsRecv) % 2 ^ 32
    let v := if 0 < d ∧ d < 2 ^ 31 then g.updLink j fun l => { l with toReturn := l.toReturn + d, unitsRecv := sent.toNat } else g
    exec (.creditSyncReceived dt j sent returned) s = .next (if (u.link j).st ≠ .up ∨ u.chip.d2dDown = true then u
      else if 0 < e ∧ e < 2 ^ 31 then (v.addCredit j e).updLink j fun l => { l with returnsRecv := returned.toNat } else v) := by
  simp only [exec, execCreditSyncReceived, Bool.or_eq_true, bne_iff_ne, ans, apply_ite Host.Outcome.next]

section Stall
variable {s : State} {dt : Nat} {j : Fin 26}

theorem exec_fabCreditStall_covered (h : (((s.pass dt).noteCredit j).link j).shortSince = none) :
    exec (.fabCreditStall dt j) s = .next ((s.pass dt).noteCredit j) := by
  simp only [exec, execFabCreditStall, h, ans]

/-- Data has lacked credit since cycle `t`. -/
theorem exec_fabCreditStall_short {t : Nat} (h : (((s.pass dt).noteCredit j).link j).shortSince = some t) :
    let u := (s.pass dt).noteCredit j
    exec (.fabCreditStall dt j) s = .next (if (u.link j).stalled = false ∧ t + u.stallCyc ≤ u.cyc then
        (u.updLink j fun l => { l with stalled := true }).raise 0 evFabCreditStall j else u) := by
  simp only [exec, execFabCreditStall, h, Bool.and_eq_true, Bool.not_eq_true', decide_eq_true_eq, ans, apply_ite Host.Outcome.next]

end Stall

/-- Settles O27: a lemma for each row, and for a CAP cell one for each state of the link. -/
theorem fabricLinksNegotiateAndKeepAlive : Obligations.FabricLinksNegotiateAndKeepAlive :=
  ⟨exec_fabReachWrite,
    fun _ _ _ _ => ⟨exec_capCellReceived_ignored, exec_capCellReceived_cap, exec_capCellReceived_noCommon, exec_capCellReceived_up⟩,
    fun s dt j => ⟨exec_capCellSend s dt j, exec_reneg s dt j, exec_creditSyncSend s dt j, exec_keepaliveSend s dt j,
      exec_receiveTimeout s dt j, exec_idleEnter s dt j, exec_idleEnterReceived s dt j, exec_idleExit s dt j,
      exec_idleExitTimeout s dt j⟩,
    exec_creditSyncReceived, fun _ _ _ => ⟨exec_fabCreditStall_covered, fun _ => exec_fabCreditStall_short⟩⟩

end Sys2Proof.Machine
end

section
/-! PROOF. O28: the cells that a fabric group sends and receives, and the timeout of a reassembly context. -/

namespace Sys2Proof.Machine

/-! ### Sending (R240, R241; the order of owed returns and the next packet is log 57's) -/

/-- A cell that carries no data, when units are owed. -/
def State.returnOwed (s : State) (j : Nat) : State := if (s.link j).toReturn = 0 then s else s.sendReturn j

section Transmit
variable {s : State} {dt : Nat} {j : Fin 26}

theorem exec_fabricCellTransmit_silent (h : (((s.pass dt).noteCredit j).link j).st ≠ .up ∨
      (((s.pass dt).noteCredit j).link j).txIdle = true) :
    exec (.fabricCellTransmit dt j) s = .next ((s.pass dt).noteCredit j) := by
  rcases h with h | h <;> simp [exec, execFabricCellTransmit, h, ans]

variable (hup : (((s.pass dt).noteCredit j).link j).st = .up) (hawake : (((s.pass dt).noteCredit j).link j).txIdle = false)
include hup hawake

/-- The packet in transmission keeps the link until its last cell. -/
theorem exec_fabricCellTransmit_sending {k : Pkt} {bs : List Byte}
    (hk : (((s.pass dt).noteCredit j).link j).sending = some (k, bs)) :
    let u := (s.pass dt).noteCredit j
    exec (.fabricCellTransmit dt j) s = .next (if cellBytes (u.link j).version bs.length / 64 ≤ (u.link j).credit then
      u.sendData j k bs false else u.returnOwed j) := by
  simp only [exec, execFabricCellTransmit, hup, hawake, hk, bne_self_eq_false, Bool.or_self, Bool.false_eq_true, if_false, ans,
    apply_ite Host.Outcome.next, State.returnOwed]

theorem exec_fabricCellTransmit_between (hk : (((s.pass dt).noteCredit j).link j).sending = none) :
    let u := (s.pass dt).noteCredit j
    exec (.fabricCellTransmit dt j) s = .next (if (u.link j).version = 1 ∧ (u.link j).toReturn ≠ 0 then u.sendReturn j
      else match u.pickPkt j with
        | none => u.returnOwed j
        | some k => (u.updOutput (linkOutput j) fun o => o.erase k).sendData j k (linkBytes (u.link j).version k) true) := by
  cases hp : ((s.pass dt).noteCredit j).pickPkt j <;>
    simp only [exec, execFabricCellTransmit, hup, hawake, hk, hp, bne_self_eq_false, Bool.or_self, Bool.false_eq_true, if_false, ans,
      apply_ite Host.Outcome.next, State.returnOwed]

end Transmit

/-! ### Receiving (R237, R238, R241, R243) -/

theorem State.countCell_eq (s : State) (j : Nat) (err : CellErr) : s.countCell j err =
    let c := if err.corrCw = 0 then s else s.bump ⟨2, 1, 0⟩ (48 + j) err.corrCw
    let c := if err.uncorrCw = 0 then c else c.bump ⟨2, 1, 1⟩ (48 + j) err.uncorrCw
    (err.symErrs.take 4).zipIdx.foldl (fun s e => if e.1 = 0 then s else s.bump ⟨2, 0, 1⟩ (48 + 4 * j + e.2) e.1) c := rfl

/-- The checks of a received cell in their order: the link, its FEC and HCRC, its length, and then what it carries. -/
theorem exec_dataCellReceived (s : State) (dt : Nat) (j : Fin 26) (cell : List Byte) (err : CellErr) :
    let u := s.pass dt
    let l := u.link j
    let c := u.countCell j err
    let v := if l.st = .up then l.version else 1
    let hdr := cellHeader v cell
    let g := c.goodCell j (hdrType hdr != 3)
    let r := g.gotReturn j (hdrReturn v hdr)
    let n := cell.length / 64
    exec (.dataCellReceived dt j cell err) s = .next (
      if l.st = .down ∨ u.chip.d2dDown = true then u
      else if err.lost = true ∨ hcrcGood v cell = false then c.bump (fabCtr 2) j
      else if cell.length ≠ cellLength v hdr then g.bump (fabCtr 2) j
      else if l.st ≠ .up then g
      else if hdrType hdr ≠ 0 then r
      else (r.updLink j fun l => { l with unitsRecv := (l.unitsRecv + n) % 2 ^ 32 }).takeCell j v hdr n (cell.drop (hdrBytes v))) := by
  simp only [exec, execDataCellReceived, Bool.or_eq_true, beq_iff_eq, bne_iff_ne, Bool.not_eq_true', ans, apply_ite Host.Outcome.next]

theorem exec_reassemblyTimeout_closed {s : State} {dt : Nat} {j : Fin 26} {src : Fin 4096}
    (h : ((s.pass dt).link j).ctxs.find? src = none) : exec (.reassemblyTimeout dt j src) s = .next (s.pass dt) := by
  simp only [exec, execReassemblyTimeout, h, ans]

theorem exec_reassemblyTimeout_open {s : State} {dt : Nat} {j : Fin 26} {src : Fin 4096} {c : Reasm}
    (h : ((s.pass dt).link j).ctxs.find? src = some c) : let u := s.pass dt
    exec (.reassemblyTimeout dt j src) s = .next (
      if c.last + 100 * cycUs ≤ u.cyc then (u.reasmErr j c.units).updCtxs j (·.del src) else u) := by
  simp only [exec, execReassemblyTimeout, h, ans, apply_ite Host.Outcome.next]

/-- An idle, credit or keepalive cell: of these the idle cell alone is not counted. -/
theorem exec_idleOrCreditCellReceived (s : State) (dt : Nat) (j : Fin 26) (kind : Fin 3) (units : Nat) : let u := s.pass dt
    let g := u.goodCell j (kind != 0)
    exec (.idleOrCreditCellReceived dt j kind units) s = .next (if (u.link j).st = .down ∨ u.chip.d2dDown = true then u
      else if (g.link j).st = .up then g.gotReturn j units else g) := by
  simp only [exec, execIdleOrCreditCellReceived, Bool.or_eq_true, beq_iff_eq, ans, apply_ite Host.Outcome.next]

/-- Settles O28: a lemma for each way that a group sends its next cell, and the checks of a received one in order. -/
theorem fabricCellsCarryPacketsAndCredit : Obligations.FabricCellsCarryPacketsAndCredit :=
  ⟨fun _ _ _ => ⟨exec_fabricCellTransmit_silent, fun hup hawake =>
      ⟨fun _ _ => exec_fabricCellTransmit_sending hup hawake, exec_fabricCellTransmit_between hup hawake⟩⟩,
    exec_dataCellReceived, State.countCell_eq, fun _ _ _ _ => ⟨exec_reassemblyTimeout_closed, fun _ => exec_reassemblyTimeout_open⟩,
    exec_idleOrCreditCellReceived, fun _ _ _ => rfl⟩

end Sys2Proof.Machine
end

section
/-! PROOF. O34: the Ledger's commands, and the end of a rate reduction. -/

namespace Sys2Proof.Machine

theorem State.foreignPort_iff (s : State) (c : Cmd) (p : Nat) :
    s.foreignPort c p = true ↔ s.partOn = true ∧ s.portPart p ≠ c.part := by
  simp only [State.foreignPort, Bool.and_eq_true, bne_iff_ne]

/-! ### Rate conditions (R261, R262) -/

/-- A change passes, waits for held capacity alone, or is refused. -/
theorem State.checked_eq (s t : State) (result : Nat) : s.checked t result =
    if t.ratesOk true = true then .okR t.landed result
    else if t.ratesOk false = true then .wait s .capacity
    else .fail s stOvercommit := by
  unfold State.checked State.rateVerdict
  cases t.ratesOk true with
  | true => rfl
  | false => cases t.ratesOk false <;> rfl

/-- A change to which the conditions apply only if `p` does not hold. -/
theorem State.checked_unless (s t : State) (p : Prop) [Decidable p] : (if p then .ok t.landed else s.checked t 0) =
    if p ∨ t.ratesOk true = true then .ok t.landed
    else if t.ratesOk false = true then .wait s .capacity
    else .fail s stOvercommit := by
  rw [State.checked_eq]
  by_cases hp : p
  · rw [if_pos hp, if_pos (.inl hp)]
  · rw [if_neg hp]
    exact if_congr (or_iff_right hp).symm rfl rfl

/-! ### LEDGER_CLASS_SET (R266) -/

theorem classSetOk_iff (x : Nat) : classSetOk x = true ↔ bits x 4 4 = 0 ∧ bits x 9 23 = 0 ∧ (bit x 8 = true → bits x 0 4 = 0) ∧
    (if bit x 8 = true then 100000 else 2000) ≤ bits x 32 32 ∧ bits x 32 32 ≤ 500000000 := by
  simp only [classSetOk, Bool.and_eq_true, Bool.or_eq_true, Bool.not_eq_true', ← Bool.not_eq_true, beq_iff_eq, decide_eq_true_eq,
    and_assoc, imp_iff_not_or]

theorem ledgerClassBody_eq (s : State) (c : Cmd) (x : Nat) : ledgerClassBody s c x =
    let v := bits x 32 32
    if ¬ (bits x 4 4 = 0 ∧ bits x 9 23 = 0 ∧ (bit x 8 = true → bits x 0 4 = 0) ∧
        (if bit x 8 = true then 100000 else 2000) ≤ v ∧ v ≤ 500000000) then .fail s stBadArg
    else if bit x 8 = true then
      if s.isOn .cellar = false ∧ s.classAbove c.part v = true then .fail s stOvercommit
      else .ok { s with tm := { s.tm with hbmTime := s.tm.hbmTime.put 0 c.part v } }.landed
    else .ok { s with tm := { s.tm with deadlines := s.tm.deadlines.put 0 (c.part * 16 + bits x 0 4) v } }.landed := by
  simp only [ledgerClassBody, ← classSetOk_iff, Bool.not_eq_true', Bool.not_eq_true, Bool.and_eq_true]

/-! ### LEDGER_PORT_SET (R267) -/

theorem ledgerPortBody_eq (s : State) (c : Cmd) (x : Nat) : ledgerPortBody s c x =
    let p := bits x 0 8
    if 48 ≤ p ∨ signed 8 (bits x 8 8) < -64 ∨ bits x 32 32 ≠ 0 then .fail s stBadArg
    else if s.partOn = true ∧ s.portPart p ≠ c.part then .fail s stProtected
    else .ok (s.updEgress p fun e => { e with oPort := signed 8 (bits x 8 8), downHold := bits x 16 16 }).landed := by
  simp only [ledgerPortBody, State.foreignPort_iff]

/-! ### LEDGER_QUEUE_SET (R250, R262, R268) -/

theorem State.spillOk_iff (s : State) (n q : Nat) : s.spillOk n q = true ↔ q ≠ n ∧ (s.queue q).gRate = 0 ∧
    ∀ p r, s.queuePort n = some p → s.queuePort q = some r → p = r := by
  unfold State.spillOk
  cases s.queuePort n with
  | none => simp
  | some p =>
    cases s.queuePort q with
    | none => simp
    | some r => simp [and_assoc]

theorem State.isSpillQ_eq_false_iff (s : State) (n : Nat) : s.isSpillQ n = false ↔
    ∀ i q, (i, q) ∈ s.tm.queues → i ≠ n → q.refuse = true → q.spillQ ≠ n := by
  simp [State.isSpillQ]

/-- R250, R268: the reserved bits, the spill queue that the record names, and its guaranteed rate. -/
theorem State.ledgerQueueOk_iff (s : State) (x : Nat) : s.ledgerQueueOk x = true ↔
    bits x 20 4 = 0 ∧ bits x 29 3 = 0 ∧ bits x 84 12 = 0 ∧ bits x 120 8 = 0 ∧
    (bit x 28 = true → bits x 64 20 ≠ bits x 0 20 ∧ (s.queue (bits x 64 20)).gRate = 0 ∧
      ∀ p r, s.queuePort (bits x 0 20) = some p → s.queuePort (bits x 64 20) = some r → p = r) ∧
    (bits x 32 32 ≠ 0 → (∀ i q, (i, q) ∈ s.tm.queues → i ≠ bits x 0 20 → q.refuse = true → q.spillQ ≠ bits x 0 20) ∧
      ∀ p, s.queuePort (bits x 0 20) = some p → bits x 32 32 ≤ s.portRate p) := by
  have hrate : (bits x 32 32 == 0 || (!s.isSpillQ (bits x 0 20) &&
        (s.queuePort (bits x 0 20)).all fun p => decide (bits x 32 32 ≤ s.portRate p))) = true ↔
      (bits x 32 32 ≠ 0 → s.isSpillQ (bits x 0 20) = false ∧
        ∀ p, s.queuePort (bits x 0 20) = some p → bits x 32 32 ≤ s.portRate p) := by
    simp only [Bool.or_eq_true, beq_iff_eq, Bool.and_eq_true, Bool.not_eq_true', Option.all_eq_true, decide_eq_true_eq,
      or_iff_not_imp_left, ne_eq]
  have hspill : (!bit x 28 || s.spillOk (bits x 0 20) (bits x 64 20)) = true ↔
      (bit x 28 = true → s.spillOk (bits x 0 20) (bits x 64 20) = true) := by
    cases bit x 28 <;> simp
  unfold State.ledgerQueueOk
  rw [Bool.and_eq_true, hrate, Bool.and_eq_true, hspill, State.isSpillQ_eq_false_iff, State.spillOk_iff]
  simp only [Bool.and_eq_true, beq_iff_eq, and_assoc]

/-- The state with the new admission record of payload `x`, tagged when a backlogged queue becomes promised (R274). -/
def State.withLedgerQueue (s : State) (x : Nat) : State :=
  let n := bits x 0 20
  let sync := match s.queuePort n with
    | none => s
    | some p => s.syncV p
  let new := sync.updQueue n fun u => s.withLedger u x
  match s.queuePort n, (s.queue n).pkts with
  | some p, k :: _ => if s.heldRate (s.queue n) = 0 then new.tagQueue p n k.pkt.pp.length else new
  | _, _ => new

theorem ledgerQueueBody_eq (s : State) (c : Cmd) (x : Nat) :
    let n := bits x 0 20
    let after := s.withLedgerQueue x
    ledgerQueueBody s c x = if s.ledgerQueueOk x = false then .fail s stBadArg
    else if s.partOn = true ∧ (s.queuePart n ≠ c.part ∨ bit x 28 = true ∧ s.queuePart (bits x 64 20) ≠ c.part) then .fail s stProtected
    else if bits x 32 32 = (s.queue n).gRate ∨ after.ratesOk true = true then .ok after.landed
    else if after.ratesOk false = true then .wait s .capacity
    else .fail s stOvercommit := by
  intro n after
  refine if_congr (Bool.not_eq_true' _).to_iff rfl (if_congr ?_ rfl (State.checked_unless s after _))
  simp only [Bool.and_eq_true, Bool.or_eq_true, bne_iff_ne]
  rfl

/-! ### LEDGER_QUEUE_READ (R269) -/

theorem ledgerReadBody_eq (s : State) (c : Cmd) (x : Nat) : ledgerReadBody s c x =
    let n := bits x 0 20
    if bits x 20 44 ≠ 0 then .fail s stBadArg
    else if s.partOn = true ∧ s.queuePart n ≠ c.part then .fail s stProtected
    else .okResp s 0 (leBytes 16 (ledgerRecord n (s.queue n)) ++ leBytes 8 (s.ledgerState (s.queue n))) := by
  refine (fail_unless_stOk s _ _ _).trans ?_
  simp only [Bool.and_eq_true, bne_iff_ne]

/-! ### The end of a rate reduction (R262) -/

/-- Some held rate is given up when the held rates still ahead are not all. -/
theorem length_filter_eq_iff_any_eq_false (held : List (Nat × Nat)) (d : Nat) :
    (held.filter fun h => decide (d < h.2)).length = held.length ↔ (held.any fun h => decide (h.2 ≤ d)) = false := by
  simp [List.length_filter_eq_length_iff]

theorem exec_rateReductionRelease (s : State) (dt : Nat) (q : Fin 1048576) :
    let u := s.pass dt
    let due := (u.queue q).held.any fun h => decide (h.2 ≤ u.follower)
    let sync := match u.queuePort q with
      | none => u
      | some p => u.syncV p
    exec (.rateReductionRelease dt q) s = .next (if due = false then u else
      (sync.updQueue q fun x => { x with held := (u.queue q).held.filter fun h => decide (u.follower < h.2) }).resumeWaits
        capacitySpecs fun w => w == .capacity) := by
  intro u due sync
  exact (if_congr (length_filter_eq_iff_any_eq_false ..) rfl rfl).trans (apply_ite Host.Outcome.next _ _ _).symm

/-- Settles O34: a lemma for each command's own execution, and one for the end of a reduction. -/
theorem ledgerCommands : Obligations.LedgerCommands :=
  ⟨fun a => congrArg Host.Outcome.next (a.run_of (ledgerClassBody_eq _ _ _)),
    fun a => congrArg Host.Outcome.next (a.run_of (ledgerPortBody_eq _ _ _)),
    fun a => congrArg Host.Outcome.next (a.run_of (ledgerQueueBody_eq _ _ _)), State.ledgerQueueOk_iff,
    fun a => congrArg Host.Outcome.next (a.run_of (ledgerReadBody_eq _ _ _)), exec_rateReductionRelease⟩

end Sys2Proof.Machine
end

section
/-! PROOF. O35: the scheduler's and the policers' records, gate lists, and the start and the entries of a list. -/

namespace Sys2Proof.Machine

/-- A form check that `p` describes fails when `p` does not hold. -/
theorem formCheck_fails_iff {b : Bool} {p : Prop} (h : b = true ↔ p) : (!b) = true ↔ ¬ p := by
  rw [← h, Bool.not_eq_true', Bool.not_eq_true]

/-! ### Changes of the tree (R261, R280) -/

/-- Steps 3 and 4 of R280, and the conditions on rates unless `same` says that nothing which they name changes. -/
theorem State.treeChange_eq (s t : State) (held3 rates : Bool) (p same : Prop) [Decidable p] [Decidable same]
    (hheld : held3 = true ↔ p) (hsame : rates = false ↔ same) : s.treeChange t held3 rates =
      if (s.pathChanges t).1 = true ∨ p then .fail s stBadArg
      else if (s.pathChanges t).2 = true then .fail s stOvercommit
      else if same ∨ t.ratesOk true = true then .ok t.landed
      else if t.ratesOk false = true then .wait s .capacity
      else .fail s stOvercommit := by
  refine if_congr ((Bool.or_eq_true _ _).to_iff.trans (or_congr_right hheld)) rfl (if_congr Iff.rfl rfl ?_)
  rw [← State.checked_unless]
  exact (if_congr ((Bool.not_eq_false _).to_iff.symm.trans (not_congr hsame)) rfl rfl).trans (ite_not _ _ _)

/-! ### SCHED_NODE_SET (R278) -/

theorem nodeSetOk_iff (x : Nat) : nodeSetOk x = true ↔ bits x 2 2 = 0 ∧ bits x 21 3 = 0 ∧ bits x 45 3 = 0 ∧ bits x 58 6 = 0 ∧
    bits x 160 32 = 0 ∧ bits x 4 17 < levelCount (bits x 0 2) ∧
    (bits x 0 2 ≠ 0 → bits x 24 17 < levelCount (bits x 0 2 - 1)) ∧ -64 ≤ signed 8 (bits x 152 8) := by
  simp only [nodeSetOk, Bool.and_eq_true, Bool.or_eq_true, beq_iff_eq, decide_eq_true_eq, and_assoc, or_iff_not_imp_left, ne_eq]

theorem nodeNew_eq (n : Node) (x c : Nat) : nodeNew n x c =
    let burst := bits x 128 24
    let up := bits x 24 17
    let o := n.fill c
    let o := { o with shRate := bits x 96 32, shBurst := burst, shOver := signed 8 (bits x 152 8)
                      tokens := min o.tokens (1024 * (burst : Int)) }
    if bits x 0 2 = 0 then o
    else { o with parent := up, enable := bit x 41, prio := bits x 42 3, weight := bits x 48 10, gRate := bits x 64 32
                  deficit := if up = n.parent then o.deficit else 0 } := by
  simp only [nodeNew, Int.natCast_mul, Nat.cast_ofNat, mul_comm]

/-- `f` writes the new record over the old one. -/
theorem schedNodeBody_eq (s : State) (c : Cmd) (x : Nat) {f : Node → Node} (hf : ∀ n, nodeNew n x s.cyc = f n) :
    let level := bits x 0 2
    let ix := bits x 4 17
    let up := bits x 24 17
    let new := s.syncAllV.updNode (nodeKey level ix) f
    schedNodeBody s c x =
      if ¬ (bits x 2 2 = 0 ∧ bits x 21 3 = 0 ∧ bits x 45 3 = 0 ∧ bits x 58 6 = 0 ∧ bits x 160 32 = 0 ∧ ix < levelCount level ∧
          (level ≠ 0 → up < levelCount (level - 1)) ∧ -64 ≤ signed 8 (bits x 152 8)) then .fail s stBadArg
      else if s.partOn = true ∧ (s.elemPart level ix ≠ c.part ∨ level ≠ 0 ∧ s.elemPart (level - 1) up ≠ c.part) then .fail s stProtected
      else if (s.pathChanges new).1 = true then .fail s stBadArg
      else if (s.pathChanges new).2 = true then .fail s stOvercommit
      else if ((s.nodeAt level ix).parent = (new.nodeAt level ix).parent ∧ (s.nodeAt level ix).enable = (new.nodeAt level ix).enable ∧
          (s.nodeAt level ix).gRate = (new.nodeAt level ix).gRate ∧ (s.nodeAt level ix).shRate = (new.nodeAt level ix).shRate) ∨
        new.ratesOk true = true then .ok new.landed
      else if new.ratesOk false = true then .wait s .capacity
      else .fail s stOvercommit := by
  obtain rfl : (fun n => nodeNew n x s.cyc) = f := funext hf
  intro level ix up new
  refine if_congr (formCheck_fails_iff (nodeSetOk_iff x)) rfl (if_congr ?own rfl ?change)
  case own => simp only [Bool.and_eq_true, Bool.or_eq_true, bne_iff_ne, level, ix, up]
  case change =>
    refine (State.treeChange_eq s new false _ False _ (iff_of_false Bool.false_ne_true id) ?_).trans (if_congr (or_false _).to_iff rfl rfl)
    simp only [Bool.or_eq_false_iff, bne_eq_false_iff_eq, and_assoc, level, ix, new]

/-! ### SCHED_QUEUE_SET (R279) -/

theorem schedQueueOk_iff (x : Nat) : schedQueueOk x = true ↔
    bits x 20 4 = 0 ∧ bits x 59 37 = 0 ∧ bits x 160 32 = 0 ∧ -64 ≤ signed 8 (bits x 152 8) := by
  simp only [schedQueueOk, Bool.and_eq_true, beq_iff_eq, decide_eq_true_eq, and_assoc]

theorem schedQueueNew_eq (q : Queue) (x c : Nat) : schedQueueNew q x c =
    let burst := bits x 128 24
    let up := bits x 24 17
    let o := q.fill c
    { o with parent := up, enable := bit x 41, prio := bits x 42 3, tc := bits x 45 3, weight := bits x 48 10
             excessEn := bit x 58, shRate := bits x 96 32, shBurst := burst, shOver := signed 8 (bits x 152 8)
             tokens := min o.tokens (1024 * (burst : Int)), deficit := if up = q.parent then o.deficit else 0 } := by
  simp only [schedQueueNew, Int.natCast_mul, Nat.cast_ofNat, mul_comm]

/-- `f` writes the new record over the old one. -/
theorem schedQueueBody_eq (s : State) (c : Cmd) (x : Nat) {f : Queue → Queue} (hf : ∀ q, schedQueueNew q x s.cyc = f q) :
    let n := bits x 0 20
    let up := bits x 24 17
    let new := s.syncAllV.updQueue n f
    schedQueueBody s c x =
      if ¬ (bits x 20 4 = 0 ∧ bits x 59 37 = 0 ∧ bits x 160 32 = 0 ∧ -64 ≤ signed 8 (bits x 152 8)) then .fail s stBadArg
      else if s.partOn = true ∧ (s.queuePart n ≠ c.part ∨ s.elemPart 3 up ≠ c.part) then .fail s stProtected
      else if (s.pathChanges new).1 = true ∨ bits x 45 3 ≠ (s.queue n).tc ∧ (s.queue n).pkts ≠ [] then .fail s stBadArg
      else if (s.pathChanges new).2 = true then .fail s stOvercommit
      else if (up = (s.queue n).parent ∧ bit x 41 = (s.queue n).enable ∧ bits x 45 3 = (s.queue n).tc ∧
          bits x 96 32 = (s.queue n).shRate) ∨ new.ratesOk true = true then .ok new.landed
      else if new.ratesOk false = true then .wait s .capacity
      else .fail s stOvercommit := by
  obtain rfl : (fun q => schedQueueNew q x s.cyc) = f := funext hf
  intro n up new
  refine if_congr (formCheck_fails_iff (schedQueueOk_iff x)) rfl (if_congr ?own rfl (State.treeChange_eq s new _ _ _ _ ?tc ?same))
  case own => simp only [Bool.and_eq_true, Bool.or_eq_true, bne_iff_ne, n, up]
  case tc => simp only [Bool.and_eq_true, bne_iff_ne, Bool.not_eq_true', List.isEmpty_eq_false_iff, n]
  case same => simp only [Bool.or_eq_false_iff, bne_eq_false_iff_eq, and_assoc, n, up]

/-! ### POLICER_SET (R282, R283) -/

theorem policerOk_iff (x : Nat) : policerOk x = true ↔ bits x 21 3 = 0 ∧ bits x 24 3 ≤ 4 ∧ bits x 30 2 = 0 ∧ bits x 40 24 = 0 ∧
    bits x 176 16 = 0 ∧ -64 ≤ signed 8 (bits x 32 8) ∧ (3 ≤ bits x 24 3 → bits x 64 32 ≤ bits x 96 32) := by
  simp only [policerOk, Bool.and_eq_true, beq_iff_eq, decide_eq_true_eq, and_assoc, Bool.not_eq_true', Bool.and_eq_false_iff,
    decide_eq_false_iff_not, ← imp_iff_not_or, not_lt]

theorem policerSetBody_eq (s : State) (c : Cmd) (x : Nat) :
    let ix := bits x 0 21
    let mode := bits x 24 3
    policerSetBody s c x =
      if ¬ (bits x 21 3 = 0 ∧ mode ≤ 4 ∧ bits x 30 2 = 0 ∧ bits x 40 24 = 0 ∧ bits x 176 16 = 0 ∧
          -64 ≤ signed 8 (bits x 32 8) ∧ (3 ≤ mode → bits x 64 32 ≤ bits x 96 32)) then .fail s stBadArg
      else if s.partOn = true ∧ s.halfPart 0x100000 ix ≠ c.part then .fail s stProtected
      else .ok (s.updPolicer ix fun p => policerNew p x s.cyc) := by
  intro ix mode
  simp only [policerSetBody, ← policerOk_iff, Bool.not_eq_true', Bool.not_eq_true, Bool.and_eq_true, bne_iff_ne, ix, mode]

/-! ### GATE_LIST_SET (R261, R263, R288; log 63) -/

theorem gateSetBody_eq (s : State) (c : Cmd) (x : Nat) :
    let p := bits x 0 8
    let new := gateListOf x
    let m := s.promisedMask p
    let on := s.isOn .gated
    let up := (s.mode .gated).st != .off && raises ((s.gate p).terms on m) (termsOf on new m)
    let u := s.gatePend p new up
    gateSetBody s c x =
      if gateSetOk s x = false then .fail s stBadArg
      else if s.partOn = true ∧ s.portPart p ≠ c.part then .fail s stProtected
      else if (s.gate p).pending ≠ none then .wait s (.gateTurn p)
      else if up = false ∨ u.ratesOk true = true then .wait u (.gateStart p)
      else if u.ratesOk false = true then .wait s .capacity
      else .fail s stOvercommit := by
  intro p new m on up u
  refine if_congr (Bool.not_eq_true' _).to_iff rfl (if_congr (s.foreignPort_iff c p) rfl
    (if_congr Option.isSome_iff_ne_none rfl ?_))
  change (match if up = true then u.rateVerdict else 0 with
    | 0 => Out.wait u (.gateStart p)
    | 1 => Out.wait s .capacity
    | _ => Out.fail s stOvercommit) = _
  unfold State.rateVerdict
  cases up with
  | false => rfl
  | true =>
    cases u.ratesOk true with
    | true => rfl
    | false => cases u.ratesOk false <;> rfl

/-! ### The start and the entries of a list (R263, R285, R288) -/

theorem exec_gateListStart_none {s : State} {dt : Nat} {port : Fin 48} (h : ((s.pass dt).gate port).pending = none) :
    exec (.gateListStart dt port) s = .next (s.pass dt) := by
  simp only [exec, execGateListStart, h, ans]

theorem exec_gateListStart_some {s : State} {dt : Nat} {port : Fin 48} {c : GateChange}
    (h : ((s.pass dt).gate port).pending = some c) :
    let u := s.pass dt
    let g := u.gate port
    let x := c.start.getD (g.switchAt c)
    let t := g.newStart c x
    exec (.gateListStart dt port) s = .next (if u.follower < x then u else if t ≤ u.follower then u.gateFinish port c t
      else (u.syncV port).updGate port fun g => { g with pending := some { c with start := some t } }) := by
  simp only [exec, execGateListStart, h, ans, apply_ite Host.Outcome.next]

theorem exec_gateEntryBoundary (s : State) (dt : Nat) (port : Fin 48) : let u := s.pass dt
    exec (.gateEntryBoundary dt port) s = .next (match u.gateNow port with
      | none => u
      | some l => (u.syncV port).updGate port fun g => { g with entry := (l.entryAt u.follower).1 }) := by
  simp only [exec, execGateEntryBoundary]
  cases (s.pass dt).gateNow port <;> rfl

theorem Gate.switchAt_eq (g : Gate) (c : GateChange) : g.switchAt c = match (if g.suspended then none else g.cur) with
    | some l => l.startFrom (max c.passed c.bound)
    | none => max c.passed c.bound := by
  unfold Gate.switchAt Gate.counted
  cases (if g.suspended then none else g.cur) <;> rfl

theorem Gate.newStart_eq (g : Gate) (c : GateChange) (x : Nat) : g.newStart c x = match c.new with
    | some l => l.startFrom (max x g.startsAt)
    | none => x := by
  unfold Gate.newStart
  cases c.new <;> rfl

/-- Settles O35: a lemma for each command's own execution, and one for each way that a pending list goes. -/
theorem schedulerGateAndPolicerCommands : Obligations.SchedulerGateAndPolicerCommands :=
  ⟨fun a => congrArg Host.Outcome.next (a.run_of (schedNodeBody_eq _ _ _ fun _ => nodeNew_eq _ _ _)),
    fun a => congrArg Host.Outcome.next (a.run_of (schedQueueBody_eq _ _ _ fun _ => schedQueueNew_eq _ _ _)),
    fun a => congrArg Host.Outcome.next (a.run_of (policerSetBody_eq _ _ _)),
    fun a => congrArg Host.Outcome.next (a.run_of (gateSetBody_eq _ _ _)), fun g c x => ⟨g.switchAt_eq c, g.newStart_eq c x⟩,
    fun _ _ _ => ⟨exec_gateListStart_none, fun _ => exec_gateListStart_some⟩, fun _ _ _ _ => rfl, exec_gateEntryBoundary⟩

end Sys2Proof.Machine
end
namespace Sys2Proof.Machine

/-! PROOF. O3, O4, O5: what every step keeps of the codes, the keys and the fuses. -/

/-- A step keeps legal codes legal and moves the fuses only forward: an idle cycle changes neither, and a command leaves the
queue that the step has cut. -/
theorem step_kept {s t : State} (h : step s = .next t) :
    FuseMoves s.sec.fuseState t.sec.fuseState ∧ (s.vitals.Legal → t.vitals.Legal) := by
  cases hq : s.pending with
  | nil =>
    rw [step_nil hq] at h
    obtain rfl := Host.Outcome.next.inj h
    exact ⟨.inl rfl, fun l => (s.pass_vitals 1).symm ▸ l⟩
  | cons c rest =>
    rw [step_cons hq] at h
    obtain ⟨u, hu, -, hf, hl⟩ := exec_sound c { s with pending := rest }
    obtain rfl := Host.Outcome.next.inj (hu.symm.trans h)
    exact ⟨hf, hl⟩

/-- Settles O3: every row's own lemma (`exec_sound`). -/
theorem everyStepKeepsTheVitalsLegal : Obligations.EveryStepKeepsTheVitalsLegal := fun _ _ l h => (step_kept h).2 l

/-- Settles O4: the fields of the state after reset. -/
theorem resetIsLegal : Obligations.ResetIsLegal := by
  refine ⟨?_, ?_, fun _ => ⟨rfl, fun _ => rfl⟩, ⟨rfl, rfl⟩, ?_, ?_, ?_⟩ <;> decide

/-- Burnt fuses, or fuses that failed to burn, move no more. -/
theorem FuseMoves.eq_of_two_le {a b : Nat} (h : FuseMoves a b) (h2 : 2 ≤ a) : b = a := by
  unfold FuseMoves at h
  omega

/-- Settles O5: every row's own lemma (`exec_sound`). -/
theorem fusesOnlyBurnForward : Obligations.FusesOnlyBurnForward :=
  ⟨fun _ _ h => (step_kept h).1, fun _ _ h2 h => (step_kept h).1.eq_of_two_le h2⟩

end Sys2Proof.Machine

section
/-! PROOF. O18: token buckets. -/

namespace Sys2Proof.Machine

/-- Accrual over two spans in a row is accrual over both (R281). -/
theorem accrue_add (rate m n rem : Nat) :
    (accrue rate m rem).1 + (accrue rate n (accrue rate m rem).2).1 = (accrue rate (m + n) rem).1 ∧
      (accrue rate n (accrue rate m rem).2).2 = (accrue rate (m + n) rem).2 := by
  simp only [accrue, Nat.mul_add]
  omega

/-- A bucket that overflows twice holds what it would hold after one overflow, and spills as much. -/
theorem bucket_add (cap t a b : Nat) :
    min cap (min cap (t + a) + b) = min cap (t + (a + b)) ∧
      (t + a - cap) + (min cap (t + a) + b - cap) = t + (a + b) - cap := by omega

theorem Policer.fill_fill (p : Policer) {a b : Nat} (ha : p.at_ ≤ a) (hb : a ≤ b) : (p.fill a).fill b = p.fill b := by
  have hn : b - p.at_ = a - p.at_ + (b - a) := by omega
  obtain ⟨hc, hcr⟩ := accrue_add p.cir (a - p.at_) (b - a) p.remC
  obtain ⟨hp, hpr⟩ := accrue_add p.pir (a - p.at_) (b - a) p.remP
  obtain ⟨htc, hsp⟩ := bucket_add (p.cbs * 1024) p.tc (accrue p.cir (a - p.at_) p.remC).1
    (accrue p.cir (b - a) (accrue p.cir (a - p.at_) p.remC).2).1
  by_cases hm : p.mode ≤ 2
  · have hte := (bucket_add (p.ebs * 1024) p.te (p.tc + (accrue p.cir (a - p.at_) p.remC).1 - p.cbs * 1024)
      (min (p.cbs * 1024) (p.tc + (accrue p.cir (a - p.at_) p.remC).1) +
        (accrue p.cir (b - a) (accrue p.cir (a - p.at_) p.remC).2).1 - p.cbs * 1024)).1
    simp only [Policer.fill, hm, if_true, hn, ← hc, ← hcr, htc, hte, hsp]
  · have hte := (bucket_add (p.ebs * 1024) p.te (accrue p.pir (a - p.at_) p.remP).1
      (accrue p.pir (b - a) (accrue p.pir (a - p.at_) p.remP).2).1).1
    simp only [Policer.fill, hm, if_false, hn, ← hc, ← hcr, ← hp, ← hpr, htc, hte]

theorem Policer.fill_le (p : Policer) (a : Nat) : (p.fill a).tc ≤ p.cbs * 1024 ∧ (p.fill a).te ≤ p.ebs * 1024 := by
  unfold Policer.fill
  dsimp only
  split <;> exact ⟨Nat.min_le_left .., Nat.min_le_left ..⟩

/-- What a decision takes, by its colour (R282). -/
theorem Policer.decide_takes {p q : Policer} {colour charge r : Nat} (h : p.decide colour charge = (q, r)) :
    r = 0 ∧ preColour p colour = 0 ∧ charge * 1024 ≤ p.tc ∧
        (if p.mode ≤ 2 then q = { p with tc := p.tc - charge * 1024 }
          else charge * 1024 ≤ p.te ∧ q = { p with tc := p.tc - charge * 1024, te := p.te - charge * 1024 }) ∨
      r = 1 ∧ preColour p colour ≤ 1 ∧ (charge * 1024 ≤ p.te ∧ q = { p with te := p.te - charge * 1024 }) ∧
        (preColour p colour = 0 → p.tc < charge * 1024) ∨
      r = 2 ∧ q = p ∧ (preColour p colour = 0 → p.tc < charge * 1024 ∨ p.te < charge * 1024) := by
  unfold Policer.decide at h
  dsimp only at h
  have hpre : preColour p colour ≤ 2 := by
    unfold preColour
    split <;> omega
  generalize preColour p colour = pre at h hpre ⊢
  by_cases hm : p.mode ≤ 2
  · simp only [hm, if_true] at h ⊢
    split at h
    · next hg =>
      cases h
      exact .inl ⟨rfl, hg.1, hg.2, rfl⟩
    · next hg =>
      split at h
      · next hy =>
        cases h
        exact .inr (.inl ⟨rfl, hy.1, ⟨hy.2, rfl⟩, by omega⟩)
      · cases h
        exact .inr (.inr ⟨rfl, rfl, by omega⟩)
  · simp only [hm, if_false] at h ⊢
    split at h
    · cases h
      exact .inr (.inr ⟨rfl, rfl, by omega⟩)
    · next hr =>
      split at h
      · cases h
        exact .inr (.inl ⟨rfl, by omega, ⟨by omega, rfl⟩, by omega⟩)
      · cases h
        exact .inl ⟨rfl, by omega, by omega, by omega, rfl⟩

/-- Settles O18: filling adds up over the spans, and a decision's colour says what it took. -/
theorem policersMeterWithoutLoss : Obligations.PolicersMeterWithoutLoss := by
  refine ⟨fun p a b => p.fill_fill, Policer.fill_le, fun p q colour charge r h => ?_⟩
  have hpre (hm : p.mode = 2 ∨ p.mode = 4) : preColour p colour = min colour 2 := if_pos hm
  have hblind (hm : p.mode = 1 ∨ p.mode = 3) : preColour p colour = 0 := if_neg (by omega)
  rcases Policer.decide_takes h with ⟨rfl, h0, hc, hq⟩ | ⟨rfl, h1, ⟨he, rfl⟩, hc⟩ | ⟨rfl, rfl, hc⟩
  · refine ⟨Nat.zero_le 2, fun hm => (hpre hm ▸ h0).le, fun _ => ?_, nofun, nofun, fun _ _ _ => rfl⟩
    by_cases hm : p.mode ≤ 2
    · rw [if_pos hm] at hq ⊢
      exact ⟨hc, hq ▸ ⟨rfl, rfl⟩⟩
    · rw [if_neg hm] at hq ⊢
      obtain ⟨he, rfl⟩ := hq
      exact ⟨hc, rfl, he, rfl⟩
  · exact ⟨Nat.le_succ 1, fun hm => hpre hm ▸ h1, nofun, fun _ => ⟨he, rfl, rfl⟩, nofun,
      fun hm ht _ => absurd ht (Nat.not_le.2 (hc (hblind hm)))⟩
  · exact ⟨Nat.le_refl 2, fun _ => Nat.min_le_right .., nofun, nofun, fun _ => rfl, fun hm ht hu => by
      have := hc (hblind hm)
      omega⟩

end Sys2Proof.Machine
end

section
/-! PROOF. O19: the promised phase's choice. -/

namespace Sys2Proof.Machine

theorem smallestVf_eq_none {l : List (Nat × Queue)} : smallestVf l = none ↔ l = [] := by
  cases l with
  | nil => simp [smallestVf]
  | cons e t =>
    unfold smallestVf
    split
    · simp
    · split <;> simp

/-- The answer is of the list, and no other of the list has a smaller VF, nor the same and a lower number. -/
theorem smallestVf_least {l : List (Nat × Queue)} {e : Nat × Queue} (hl : (l.map Prod.fst).Pairwise (· < ·))
    (h : smallestVf l = some e) :
    e ∈ l ∧ ∀ w ∈ l, e.2.vf < w.2.vf ∨ (e.2.vf = w.2.vf ∧ e.1 ≤ w.1) := by
  induction l generalizing e with
  | nil => cases h
  | cons d t ih =>
    rw [List.map_cons, List.pairwise_cons] at hl
    obtain ⟨hd, ht⟩ := hl
    have hd' : ∀ w ∈ t, d.1 < w.1 := fun w hw => hd _ (List.mem_map_of_mem hw)
    unfold smallestVf at h
    split at h
    · next hn =>
      cases h
      obtain rfl := smallestVf_eq_none.1 hn
      simp
    · next b hb =>
      obtain ⟨hbt, hbl⟩ := ih ht hb
      split at h
      · next hlt =>
        cases h
        refine ⟨List.mem_cons_of_mem _ hbt, fun w hw => ?_⟩
        rcases List.mem_cons.1 hw with rfl | hw
        · exact .inl hlt
        · exact hbl w hw
      · next hge =>
        cases h
        refine ⟨List.mem_cons_self .., fun w hw => ?_⟩
        rcases List.mem_cons.1 hw with rfl | hw
        · exact .inr ⟨rfl, Nat.le_refl _⟩
        · have := hbl w hw
          have := hd' w hw
          omega

/-- The queues among which the promised phase chooses (R274). -/
def State.promisedSet (s : State) (p : Nat) (ok : Queue → Bool) : List (Nat × Queue) :=
  (s.portQueues p).filter fun e => s.inPromised p (s.vNow p) e.2 && ok e.2

theorem State.mem_promisedSet {s : State} {p : Nat} {ok : Queue → Bool} {e : Nat × Queue} :
    e ∈ s.promisedSet p ok ↔ e ∈ s.portQueues p ∧ s.inPromised p (s.vNow p) e.2 = true ∧ ok e.2 = true := by
  unfold State.promisedSet
  rw [List.mem_filter, Bool.and_eq_true]

theorem State.promisedPick_eq (s : State) (p : Nat) (ok : Queue → Bool) :
    s.promisedPick p ok = if s.portOpen p s.follower = true then (smallestVf (s.promisedSet p ok)).map (·.1) else none := by
  unfold State.promisedPick
  cases s.portOpen p s.follower <;> rfl

/-- Rising numbers stay rising in the choice. -/
theorem State.promisedSet_pairwise {s : State} (p : Nat) (ok : Queue → Bool)
    (h : (s.tm.queues.map Prod.fst).Pairwise (· < ·)) : ((s.promisedSet p ok).map Prod.fst).Pairwise (· < ·) :=
  h.sublist ((List.filter_sublist.trans List.filter_sublist).map _)

/-- Settles O19: the least of the list by VF, first by number. -/
theorem thePromisedPhaseServesTheSmallestFinishTag : Obligations.ThePromisedPhaseServesTheSmallestFinishTag := by
  intro s p ok hs
  have hset := State.promisedSet_pairwise p ok hs
  rw [s.promisedPick_eq]
  refine ⟨fun q hq => ?_, ?_⟩
  · split at hq
    · next ho =>
      obtain ⟨e, he, rfl⟩ := Option.map_eq_some_iff.1 hq
      obtain ⟨hm, hl⟩ := smallestVf_least hset he
      obtain ⟨hp, hi, hk⟩ := State.mem_promisedSet.1 hm
      exact ⟨ho, e.2, hp, hi, hk, fun r w hr hw hw' => hl (r, w) (State.mem_promisedSet.2 ⟨hr, hw, hw'⟩)⟩
    · cases hq
  · have hempty : s.promisedSet p ok = [] ↔
        ∀ r w, (r, w) ∈ s.portQueues p → s.inPromised p (s.vNow p) w = true → ok w = false := by
      rw [List.eq_nil_iff_forall_not_mem]
      constructor
      · intro h r w hr hw
        exact Bool.not_eq_true _ ▸ fun hk => h (r, w) (State.mem_promisedSet.2 ⟨hr, hw, hk⟩)
      · intro h e he
        obtain ⟨hp, hi, hk⟩ := State.mem_promisedSet.1 he
        rw [h e.1 e.2 hp hi] at hk
        cases hk
    rw [← hempty, ← smallestVf_eq_none]
    cases s.portOpen p s.follower <;> simp

end Sys2Proof.Machine
end

section
/-! PROOF. O52: the mapping of addresses to DRAM rows. -/

namespace Sys2Proof

/-- Numbers with the same field, and the same above it, agree from the field on. -/
theorem div_eq_of_bits_eq {a b lo w hi : Nat} (e : lo + w = hi) (h : bits a lo w = bits b lo w)
    (k : a / 2 ^ hi = b / 2 ^ hi) : a / 2 ^ lo = b / 2 ^ lo := by
  rw [bits_eq, bits_eq] at h
  rw [← e, pow_add, ← Nat.div_div_eq_div_mul, ← Nat.div_div_eq_div_mul] at k
  rw [← Nat.div_add_mod (a / 2 ^ lo) (2 ^ w), ← Nat.div_add_mod (b / 2 ^ lo) (2 ^ w), h, k]

end Sys2Proof

namespace Sys2Proof.Machine

/-- Row, bank, bank group, rank and DIMM from bit 14 up: MAP 1 loses no row (R296). -/
theorem dramOf_one_inj {dimms ranks a b hi : Nat} {dense : Bool}
    (e : 19 + (if ranks = 2 then 1 else 0) + (if dimms = 2 then 1 else 0) + (if dense = true then 17 else 16) = hi)
    (top : a / 2 ^ hi = b / 2 ^ hi) (h : dramOf 1 dimms ranks dense a = dramOf 1 dimms ranks dense b) :
    a / 2 ^ 14 = b / 2 ^ 14 := by
  simp only [dramOf, if_true, Dram.mk.injEq] at h
  obtain ⟨hbank, hgroup, hrank, hdimm, hrow⟩ := h
  have hdimm := div_eq_of_bits_eq (by omega) hdimm top
  have hrank := div_eq_of_bits_eq rfl hrank hdimm
  have hgroup := div_eq_of_bits_eq (by omega) hgroup hrank
  have hbank := div_eq_of_bits_eq (by omega) hbank hgroup
  exact div_eq_of_bits_eq rfl hrow hbank

/-- Bank, bank group, rank, DIMM and row from bit 14 up, with or without the exclusive or of row bits: the other orders lose no
row (R296). -/
theorem dramOf_ne_one_inj {map dimms ranks a b hi : Nat} {dense : Bool} (hm : map ≠ 1)
    (e : 19 + (if ranks = 2 then 1 else 0) + (if dimms = 2 then 1 else 0) + (if dense = true then 17 else 16) = hi)
    (top : a / 2 ^ hi = b / 2 ^ hi) (h : dramOf map dimms ranks dense a = dramOf map dimms ranks dense b) :
    a / 2 ^ 14 = b / 2 ^ 14 := by
  simp only [dramOf, hm, if_false, Dram.mk.injEq] at h
  obtain ⟨hbank, hgroup, hrank, hdimm, hrow⟩ := h
  rw [hrow, Nat.xor_left_inj] at hbank hgroup
  have hrow := div_eq_of_bits_eq e hrow top
  have hdimm := div_eq_of_bits_eq rfl hdimm hrow
  have hrank := div_eq_of_bits_eq rfl hrank hdimm
  have hgroup := div_eq_of_bits_eq rfl hgroup hrank
  exact div_eq_of_bits_eq rfl hbank hgroup

theorem dramOf_inj {map dimms ranks a b hi : Nat} {dense : Bool}
    (e : 19 + (if ranks = 2 then 1 else 0) + (if dimms = 2 then 1 else 0) + (if dense = true then 17 else 16) = hi)
    (ha : a < 2 ^ hi) (hb : b < 2 ^ hi) (h : dramOf map dimms ranks dense a = dramOf map dimms ranks dense b) :
    a / 2 ^ 14 = b / 2 ^ 14 := by
  have top : a / 2 ^ hi = b / 2 ^ hi := by rw [Nat.div_eq_of_lt ha, Nat.div_eq_of_lt hb]
  by_cases hm : map = 1
  · subst hm
    exact dramOf_one_inj e top h
  · exact dramOf_ne_one_inj hm e top h

/-- An HBM channel's bank, bank group, stack ID and row from bit 10 up (R296, log 118). -/
theorem hbmOf_inj {a b : Nat} (ha : a < 2 ^ 31) (hb : b < 2 ^ 31) (h : hbmOf a = hbmOf b) : a / 2 ^ 10 = b / 2 ^ 10 := by
  simp only [hbmOf, Dram.mk.injEq] at h
  obtain ⟨hbank, hgroup, hrank, -, hrow⟩ := h
  rw [hrow, Nat.xor_left_inj] at hbank hgroup
  have top : a / 2 ^ 31 = b / 2 ^ 31 := by rw [Nat.div_eq_of_lt ha, Nat.div_eq_of_lt hb]
  have hrow := div_eq_of_bits_eq rfl hrow top
  have hrank := div_eq_of_bits_eq rfl hrank hrow
  have hgroup := div_eq_of_bits_eq rfl hgroup hrank
  exact div_eq_of_bits_eq rfl hbank hgroup

/-- Settles O52: the fields of each order lie side by side, so each in turn gives back the address above it. -/
theorem channelAddressesReachEveryRowOnce : Obligations.ChannelAddressesReachEveryRowOnce := by
  refine ⟨fun dimms ranks addr dense => ⟨?_, rfl, fun map hmap => ?_⟩, fun map dimms ranks a b dense => dramOf_inj rfl,
    fun a b => hbmOf_inj⟩
  · simp [dramOf]
  · have h0 : (map != 0) = true := by simp only [bne_iff_ne]; omega
    simp [dramOf, show map ≠ 1 by omega, h0]

end Sys2Proof.Machine
end

section
/-! PROOF. O16: counting. -/

namespace Sys2Proof.Machine

/-- A flush leaves what a read returns and empties the accumulator. It asks for the event only where the sum saturates for the
first time (R418, R420). -/
theorem Ctr.flush_value (c : Ctr) (sat : Bool) :
    (c.flush sat).1.value sat = c.value sat ∧ (c.flush sat).1.acc = 0 ∧
      ((c.flush sat).2 = true → sat = true ∧ c.spent = false ∧ (c.flush sat).1.spent = true ∧ c.value sat = max64) ∧
      (c.spent = true → (c.flush sat).1.spent = true) := by
  unfold Ctr.flush
  split
  · next h =>
    simp only [Bool.and_eq_true, decide_eq_true_eq] at h
    obtain ⟨rfl, h⟩ := h
    simp [Ctr.value, h.le]
  · next h =>
    cases sat
    · simp [Ctr.value]
    · have h : c.backing + c.acc ≤ max64 := by simpa using h
      simp only [Ctr.value, max64, if_true, Nat.add_zero, Bool.false_eq_true, false_imp_iff, imp_self, and_self, and_true,
        true_and] at h ⊢
      omega

/-- Increments before a flush. -/
theorem Ctr.value_acc (c : Ctr) (sat : Bool) (n : Nat) :
    ({ c with acc := c.acc + n } : Ctr).value sat =
      (if sat then min (c.value sat + n) max64 else (c.value sat + n) % 2 ^ 64) := by
  cases sat <;> simp only [Ctr.value, if_true, Bool.false_eq_true, if_false] <;> omega

theorem Ctr.add_value (c : Ctr) (sat : Bool) (n : Nat) :
    (c.add sat n).1.value sat = (if sat then min (c.value sat + n) max64 else (c.value sat + n) % 2 ^ 64) ∧
      ((c.add sat n).2 = true → sat = true ∧ c.spent = false ∧ (c.add sat n).1.spent = true ∧ (c.add sat n).1.value sat = max64) ∧
      (c.spent = true → (c.add sat n).1.spent = true) := by
  rw [← c.value_acc]
  unfold Ctr.add
  dsimp only
  split
  · obtain ⟨hv, -, he, hs⟩ := Ctr.flush_value { c with acc := c.acc + n } sat
    exact ⟨hv, fun h => hv.symm ▸ he h, hs⟩
  · exact ⟨rfl, nofun, id⟩

@[simp] theorem State.ctr_setCtr (s : State) (set inst item : Nat) (c : Ctr) : (s.setCtr set inst item c).ctr set inst item = c :=
  NMap.get_put_self ..

theorem State.ctr_setCtr_ne (s : State) {set inst item set' inst' item' : Nat} (c : Ctr)
    (h : ctrKey set' inst' item' ≠ ctrKey set inst item) : (s.setCtr set inst item c).ctr set' inst' item' = s.ctr set' inst' item' :=
  NMap.get_put_ne _ _ _ _ h

/-- Settles O16: a flush keeps what a read returns, and increments only join the accumulator. -/
theorem countersLoseNoIncrement : Obligations.CountersLoseNoIncrement := by
  refine ⟨fun c sat n => ?_, fun s set inst item n h => ?_, fun s set inst item n h => ?_,
    fun s set inst item n set' inst' item' h => ?_⟩
  · obtain ⟨hv, he, hs⟩ := c.add_value sat n
    obtain ⟨hf, ha, -⟩ := c.flush_value sat
    exact ⟨hv, hf, ha, he, hs⟩
  · simp only [State.bumpQuiet, h, if_true, State.ctr_setCtr]
    exact ⟨rfl, trivial⟩
  · simp only [State.bumpQuiet, h, Bool.false_eq_true, if_false, State.ctr_setCtr]
  · unfold State.bumpQuiet
    split <;> exact State.ctr_setCtr_ne _ _ h

end Sys2Proof.Machine
end

section
/-! PROOF. O10, O12: what step 5 of R374 lets through, and what the steps and a completion leave alone. -/

namespace Sys2Proof.Machine

theorem State.countAuth_beside (s : State) (k item : Nat) : s.Beside (s.countAuth k item) := State.bump_beside ..

theorem State.countAuth_sec (s : State) (k item : Nat) : (s.countAuth k item).sec = s.sec := State.bump_sec ..

theorem State.raiseRejected_beside (s : State) (fn n slot seq status : Nat) : s.Beside (s.raiseRejected fn n slot seq status) :=
  State.raise_beside ..

theorem State.raiseRejected_sec (s : State) (fn n slot seq status : Nat) : (s.raiseRejected fn n slot seq status).sec = s.sec :=
  State.raise_sec ..

theorem State.slot_of_sec {s t : State} (h : t.sec = s.sec) (k : Nat) : t.slot k = s.slot k := by
  unfold State.slot
  rw [h]

/-- The key under which step 5 checks a tag: the install key once it is burnt, or the slot's own (R394, R396). -/
def State.authKey (s : State) (d : Desc) (underIk : Bool) : Option (List Byte) :=
  if underIk then (if s.sec.fuseState = 2 then some s.installKey else none) else (s.slot d.keySlot).key

/-- The slot takes the command's counter, and its window the pair of counter and tag (R401, R402). -/
def State.acceptTag (s : State) (d : Desc) : State :=
  (s.countAuth d.keySlot 0).updSlot d.keySlot fun p =>
    { p with last := d.counter, window := ({ counter := d.counter, tag := d.tag : WinEntry } :: p.window).take 64 }

/-- Step 5 of R374 is behind a command that was neither critical nor carried a tag. -/
def State.Untagged (s : State) (d : Desc) (critical : Bool) (t : State) (au : Bool) (slot : Option (Nat × Nat × Nat)) : Prop :=
  critical = false ∧ d.auth = false ∧ t = s ∧ au = false ∧ slot = none

/-- Step 5 of R374 is behind a command whose tag is right and new. -/
structure State.Tagged (s : State) (fn : Nat) (d : Desc) (x : Nat) (underIk : Bool) (t : State) (au : Bool)
    (slot : Option (Nat × Nat × Nat)) : Prop where
  auth : d.auth = true
  authed : au = true
  named : slot = some (d.keySlot, d.counter, d.tag)
  own : s.ownSlot fn d.keySlot = true
  tag : ∃ key, s.authKey d underIk = some key ∧ tagNat (cmac key (s.tagMessage d x)) = d.tag
  fresh : (s.slot d.keySlot).last < d.counter
  absent : ∀ e ∈ (s.slot d.keySlot).window, ¬ (e.counter = d.counter ∧ e.tag = d.tag)
  state : t = s.acceptTag d

/-- What each outcome of step 5 says of the command and of the state that it leaves. -/
def State.authMeans (s : State) (fn : Nat) (d : Desc) (x : Nat) (critical underIk : Bool) : AuthRes → Prop
  | .pass t au slot => s.Untagged d critical t au slot ∨ s.Tagged fn d x underIk t au slot
  | .refuse t status _ => (status = stAuthFail ∨ status = stReplay) ∧ s.Beside t ∧ t.sec = s.sec
  | .dup t e k => k = d.keySlot ∧ e ∈ (s.slot k).window ∧ (e.counter = d.counter ∧ e.tag = d.tag) ∧ t = s.countAuth k 3 ∧
      ∃ key, tagNat (cmac key (s.tagMessage d x)) = d.tag

theorem State.rejected_means (s : State) (fn n k : Nat) (d : Desc) (x item seq status : Nat) (critical underIk au : Bool)
    (h : status = stAuthFail ∨ status = stReplay) :
    s.authMeans fn d x critical underIk (.refuse ((s.countAuth k item).raiseRejected fn n k seq status) status au) :=
  ⟨h, (s.countAuth_beside k item).trans (State.raiseRejected_beside ..), (State.raiseRejected_sec ..).trans (s.countAuth_sec k item)⟩

/-- R401, step by step. -/
theorem State.authenticate_means (s : State) (fn n : Nat) (d : Desc) (x : Nat) (critical underIk : Bool) :
    s.authMeans fn d x critical underIk (s.authenticate fn n d x critical underIk) := by
  unfold State.authenticate
  split
  · next h =>
    simp only [Bool.and_eq_true, Bool.not_eq_true'] at h
    exact .inl ⟨h.1, h.2, rfl, rfl, rfl⟩
  · split
    · exact ⟨.inl rfl, State.raiseRejected_beside .., State.raiseRejected_sec ..⟩
    · next h =>
      simp only [Bool.or_eq_true, Bool.not_eq_true', not_or, Bool.not_eq_false] at h
      change s.authMeans fn d x critical underIk (match s.authKey d underIk with | none => _ | some key => _)
      cases hk : s.authKey d underIk with
      | none => exact s.rejected_means _ _ _ _ _ _ _ _ _ _ _ (.inl rfl)
      | some key =>
        dsimp only
        split
        · exact s.rejected_means _ _ _ _ _ _ _ _ _ _ _ (.inl rfl)
        · next ht =>
          rw [not_not] at ht
          split
          · next e he =>
            exact ⟨rfl, List.mem_of_find?_eq_some he, by simpa using List.find?_some he, rfl, key, ht⟩
          · next he =>
            split
            · exact s.rejected_means _ _ _ _ _ _ _ _ _ _ _ (.inr rfl)
            · next hl =>
              refine .inr ⟨h.1, rfl, rfl, h.2, ⟨key, hk, ht⟩, Nat.not_le.1 hl, fun e hm => ?_, rfl⟩
              simpa using List.find?_eq_none.1 he e hm

/-- Settles O10: the outcomes of `authenticate_means` one by one. -/
theorem authenticationAcceptsOnlyAFreshTag : Obligations.AuthenticationAcceptsOnlyAFreshTag := by
  intro s fn n d x critical underIk
  have hm := s.authenticate_means fn n d x critical underIk
  refine ⟨fun t au slot h => ?_, fun t status au h => ?_, fun t e k h => ?_⟩ <;> rw [h] at hm
  · rcases hm with hm | ⟨auth, authed, named, own, tag, fresh, absent, rfl⟩
    · exact .inl hm
    · have hs : (s.acceptTag d).slot d.keySlot =
          { s.slot d.keySlot with last := d.counter, window := ({ counter := d.counter, tag := d.tag : WinEntry } ::
            (s.slot d.keySlot).window).take 64 } := by
        unfold State.acceptTag
        rw [State.slot_updSlot, State.slot_of_sec (s.countAuth_sec ..)]
      refine .inr ⟨auth, authed, named, own, tag, fresh, absent, by rw [hs], by rw [hs], by rw [hs], fun k hk => ?_⟩
      exact (State.slot_updSlot_ne _ _ hk).trans (State.slot_of_sec (s.countAuth_sec ..) k)
  · obtain ⟨hst, hb, hsec⟩ := hm
    exact ⟨hst, hb, State.slot_of_sec hsec⟩
  · obtain ⟨rfl, hw, ⟨hc, ht⟩, rfl, hk⟩ := hm
    exact ⟨rfl, hw, hc, ht, s.countAuth_beside .., State.slot_of_sec (s.countAuth_sec ..), hk⟩

/-- Besides what a count may write, acceptance writes the slot's last counter and its window. -/
theorem State.acceptTag_leaves (s : State) (d : Desc) : (s.acceptTag d).aside = s.aside ∧
    (∀ r, r ∉ fatalRegs → (s.acceptTag d).reg r = s.reg r) ∧ (∀ k, ((s.acceptTag d).slot k).key = (s.slot k).key) ∧
    ∀ k, k ≠ d.keySlot → ((s.acceptTag d).slot k).last = (s.slot k).last := by
  obtain ⟨hrest, hregs, hslots⟩ := s.countAuth_beside d.keySlot 0
  refine ⟨hrest, hregs, fun k => ?_, fun k hk => ?_⟩
  · by_cases hk : k = d.keySlot
    · subst hk
      exact (congrArg Slot.key (State.slot_updSlot ..)).trans (hslots _).1
    · exact (congrArg Slot.key (State.slot_updSlot_ne _ _ hk)).trans (hslots k).1
  · exact (congrArg Slot.last (State.slot_updSlot_ne _ _ hk)).trans (hslots k).2

theorem State.pass_eq (s : State) (n : Nat) :
    s.pass n = { s with time := { s.time with cyc := s.time.cyc + n, master := (s.time.run n).master } } := by
  unfold State.pass
  rw [s.time.run_eq]

/-- Settles O12: the frame of each step is a lemma of its own; authentication adds the slot's last accepted counter. -/
theorem completionsTouchNothingElse : Obligations.CompletionsTouchNothingElse := by
  refine ⟨fun sp a u status result resp w => ⟨State.completes_beside .., State.waits_beside ..⟩, fun sp a => ?_,
    fun s n => ⟨_, s.pass_eq n⟩⟩
  obtain ⟨hrest, hregs, hslots⟩ := a.s.taken_beside a.i a.d a.rest
  have hm := (a.s.taken a.i a.d a.rest).authenticate_means a.i.fn a.i.ring a.d a.x
    (sp.critical (a.s.taken a.i a.d a.rest) (a.s.partOf a.i.fn)) sp.underIk
  rw [a.ok.auth] at hm
  refine ⟨⟨hrest, hregs, hslots⟩, ?_⟩
  rcases hm with ⟨-, -, ht, -, -⟩ | ⟨-, authed, -, -, -, -, -, ht⟩
  · rw [ht]
    exact ⟨hrest, hregs, fun k => (hslots k).1, fun k _ => (hslots k).2⟩
  · rw [ht]
    obtain ⟨ha, hr, hk, hl⟩ := (a.s.taken a.i a.d a.rest).acceptTag_leaves a.d
    exact ⟨ha.trans hrest, fun r h => (hr r h).trans (hregs r h), fun k => (hk k).trans (hslots k).1, fun k h =>
      (hl k (h.resolve_left (by simp [authed]))).trans (hslots k).2⟩

end Sys2Proof.Machine
end

section
/-! PROOF. O6, O7, O8, O9, O11: the seven steps of R374 for the descriptor at a ring's head. -/

namespace Sys2Proof.Machine

/-! ### O6: the ring rows -/

/-- A ring that may not begin a command, or whose head is of another opcode, lets the row's time pass. -/
theorem State.runCommand_idle {s : State} {sp : OpSpec} {i : Issue}
    (h : ∀ d rest, (s.ring i.fn i.ring).fetched = d :: rest → d.opcode = sp.code → (s.pass i.dt).canBegin i.fn i.ring = false) :
    s.runCommand sp i = s.pass i.dt := by
  unfold State.runCommand
  dsimp only [State.ring_pass]
  split
  · rfl
  · next d rest hd =>
    refine if_neg fun ⟨hop, hb⟩ => ?_
    rw [h d rest hd hop] at hb
    cases hb

theorem ringRows_codes : (ringRows.map fun r => r.2.code).Perm knownOpcodes ∧ knownOpcodes.Nodup := by decide

/-- Settles O6: every row runs its opcode's command (`ringRows_run`), accepted or idle. -/
theorem ringRowsRunTheHeadCommand : Obligations.RingRowsRunTheHeadCommand :=
  ⟨fun r hr a => (ringRows_run r hr a.i a.s).trans (congrArg _ a.run_does),
    fun r hr i s h => (ringRows_run r hr i s).trans (congrArg _ (State.runCommand_idle h)), ringRows_codes⟩

/-! ### O7: the SEQ check (R375) -/

theorem Ring.seqCheck_accept {g : Ring} {seq : Nat} (h : g.lastSeq = none ∨ ∃ l, g.lastSeq = some l ∧ seq = (l + 1) % 65536) :
    g.seqCheck seq = .accept := by
  unfold Ring.seqCheck
  obtain h | ⟨l, h, hs⟩ := h
  · rw [h]
  · rw [h]
    exact if_pos hs

theorem Ring.seqCheck_other {g : Ring} {seq l : Nat} (h : g.lastSeq = some l) (hs : seq ≠ (l + 1) % 65536) :
    g.seqCheck seq = (if (l + 65536 - seq) % 65536 < 1024 ∧ (l + 65536 - seq) % 65536 < g.accepted
      then .repost ((l + 65536 - seq) % 65536) else .bad) := by
  unfold Ring.seqCheck
  rw [h]
  exact if_neg hs

@[simp] theorem State.ring_taken (s : State) (i : Issue) (d : Desc) (rest : List Desc) :
    ((s.taken i d rest).ring i.fn i.ring).lastSeq = some d.seq ∧
      ((s.taken i d rest).ring i.fn i.ring).accepted = (s.ring i.fn i.ring).accepted + 1 := by
  simp [State.taken]

theorem neverSkipped_iff {op : Nat} : neverSkipped op = true ↔ op = 2 ∨ op = 3 := by
  simp [neverSkipped, or_comm]

/-- A head that is re-posted or out of order leaves the ring with this completion, and nothing is executed. -/
theorem Draws.turned {sp : OpSpec} {i : Issue} {s : State} {d : Desc} {rest : List Desc} (h : Draws sp i s d rest)
    {status detail result : Nat} (hq : match (s.ring i.fn i.ring).seqCheck d.seq with
      | .accept => False
      | .repost b => status = stDuplicate ∧ detail = ((s.ring i.fn i.ring).history.getD b (0, 0, 0, 0)).2.1 ∧
          result = ((s.ring i.fn i.ring).history.getD b (0, 0, 0, 0)).2.2.2
      | .bad => status = stBadArg ∧ detail = 0xFFFFFFFF ∧ result = 0) :
    s.runCommand sp i = ((s.offRing i d rest).complete i.fn i.ring d status detail result false []).settle i.fn i.ring := by
  rw [h.run]
  congr 1
  unfold State.runHead
  simp only [State.ring_pass, h.head]
  cases hc : (s.ring i.fn i.ring).seqCheck d.seq <;> rw [hc] at hq
  · cases hq
  · obtain ⟨rfl, rfl, rfl⟩ := hq
    rfl
  · obtain ⟨rfl, rfl, rfl⟩ := hq
    rfl

theorem State.offRing_completes_beside (s : State) (i : Issue) (d : Desc) (rest : List Desc) (a b c : Nat) :
    (s.pass i.dt).Beside (((s.offRing i d rest).complete i.fn i.ring d a b c false []).settle i.fn i.ring) :=
  ((State.updRing_beside ..).trans (State.complete_beside ..)).trans (State.settle_beside ..)

/-- Settles O7: the three outcomes of `seqCheck`. -/
theorem ringsCheckSeqAndRecogniseReposts : Obligations.RingsCheckSeqAndRecogniseReposts := by
  refine ⟨fun r hr i s d rest h hs hf => ?_, fun r hr i s d rest l back h hl hs hb h1 h2 => ?_, fun r hr i s d rest l h hl hs hn => ?_⟩ <;>
    simp only [ringRows_run r hr]
  · have hu : ((s.ring i.fn i.ring).st == .fenced && d.ordered && !neverSkipped d.opcode) = false := by
      rw [Bool.eq_false_iff]
      simp only [ne_eq, Bool.and_eq_true, beq_iff_eq, Bool.not_eq_true', Bool.eq_false_iff, neverSkipped_iff]
      exact fun ⟨⟨ht, ho⟩, hn⟩ => hn (hf ht ho)
    exact ⟨congrArg _ (Begins.run ⟨h, Ring.seqCheck_accept hs, hu⟩), s.ring_taken i d rest⟩
  · subst hb
    refine ⟨_, _, _, _, _, rfl, rfl, congrArg _ (h.turned ?_), State.offRing_completes_beside ..⟩
    rw [Ring.seqCheck_other hl hs, if_pos ⟨h1, h2⟩]
    exact ⟨rfl, rfl, rfl⟩
  · refine ⟨_, rfl, congrArg _ (h.turned ?_), State.offRing_completes_beside ..⟩
    rw [Ring.seqCheck_other hl hs, if_neg hn]
    exact ⟨rfl, rfl, rfl⟩

/-! ### O8: a FENCED ring (R407) -/

/-- A head that the fence holds back leaves the ring SKIPPED, whatever its payload is. -/
theorem Draws.skipped {sp : OpSpec} {i : Issue} {s : State} {d : Desc} {rest : List Desc} (h : Draws sp i s d rest)
    (hq : (s.ring i.fn i.ring).seqCheck d.seq = .accept)
    (hf : ((s.ring i.fn i.ring).st == .fenced && d.ordered && !neverSkipped d.opcode) = true) :
    s.runCommand sp i = ((((s.taken i d rest).bump ⟨0x16, 1, 0⟩ (i.ring + (if s.partOn then 32 * (i.fn : Nat) else 0))).finish
      i.fn i.ring { desc := d, seq := d.seq, wait := .audit } stSkipped 0 0 []).settle i.fn i.ring) := by
  rw [h.run]
  congr 1
  unfold State.runHead
  simp only [State.ring_pass, h.head, hq, hf, if_true]
  rfl

theorem State.skipped_beside (s : State) (i : Issue) (d : Desc) (rest : List Desc) (c : CtrName) (ix : Nat) (run : Running) :
    (s.pass i.dt).Beside ((((s.taken i d rest).bump c ix).finish i.fn i.ring run stSkipped 0 0 []).settle i.fn i.ring) :=
  (((State.taken_beside ..).trans (State.bump_beside ..)).trans (State.finish_beside ..)).trans (State.settle_beside ..)

/-- Settles O8: the fence holds an ordered command back or is passed. -/
theorem fencedRingsSkipOrderedCommands : Obligations.FencedRingsSkipOrderedCommands := by
  refine ⟨fun r hr i s d rest h hq hf ho h2 h3 => ?_, fun r hr i s d rest h hq hf hn => ?_⟩ <;> simp only [ringRows_run r hr]
  · have hn : neverSkipped d.opcode = false := by
      rw [Bool.eq_false_iff, ne_eq, neverSkipped_iff]
      exact not_or.2 ⟨h2, h3⟩
    refine ⟨_, _, rfl, rfl, State.skipped_beside .., fun p => congrArg _ ?_⟩
    exact Draws.skipped (i := { i with payload := p }) ⟨h.head, h.code, h.ready⟩ hq (by simp [hf, ho, hn])
  · refine congrArg _ (Begins.run ⟨h, hq, ?_⟩)
    obtain ho | hn := hn
    · simp [ho]
    · simp [neverSkipped_iff.2 hn]

end Sys2Proof.Machine
end

section
/-! PROOF. O9, O11: steps 3 to 7 of R374. -/

namespace Sys2Proof.Machine

section Steps

variable {sp : OpSpec} {s : State} {fn n : Nat} {d : Desc} {mem : Option (List Byte)} {x : Nat} {xs : List Nat}

/-- The record of a command that no step has let through yet. -/
def freshRun (d : Desc) : Running := { desc := d, seq := d.seq, wait := .audit, payloadLen := d.payloadLen }

/-- Step 3: bad form. -/
theorem State.runAccepted_misformed (h : sp.inForm (s.func fn).chosen d = false) :
    s.runAccepted sp fn n d mem = s.finish fn n (freshRun d) stBadArg 0 0 [] := by
  unfold OpSpec.inForm at h
  unfold State.runAccepted
  simp only [h, Bool.not_false, if_true]
  rfl

/-- Step 3: a payload that the host could not supply (log 4). -/
theorem State.runAccepted_unread (h : sp.inForm (s.func fn).chosen d = true) (hm : d.payload mem = none) :
    s.runAccepted sp fn n d mem = s.finish fn n (freshRun d)
      (if versionOk (s.func fn).chosen fn (sp.critical s (s.partOf fn)) d.auth then stMemErr else stVersion) 0 0 [] := by
  unfold OpSpec.inForm at h
  unfold State.runAccepted
  simp only [h, Bool.not_true, Bool.false_eq_true, if_false, hm]
  rfl

/-- Step 3: a payload of the wrong length. -/
theorem State.runAccepted_miscut (h : sp.inForm (s.func fn).chosen d = true) (hm : d.payload mem = some x)
    (hx : sp.split s d.entries d.payloadLen x = none) :
    s.runAccepted sp fn n d mem = s.finish fn n (freshRun d) stBadArg 0 0 [] := by
  unfold OpSpec.inForm at h
  unfold State.runAccepted
  simp only [h, Bool.not_true, Bool.false_eq_true, if_false, hm, hx]
  rfl

/-- Step 4: the version does not have the command. -/
theorem State.runAccepted_unversioned (h : sp.inForm (s.func fn).chosen d = true) (hm : d.payload mem = some x)
    (hx : sp.split s d.entries d.payloadLen x = some xs)
    (hv : versionOk (s.func fn).chosen fn (sp.critical s (s.partOf fn)) d.auth = false) :
    s.runAccepted sp fn n d mem = s.finish fn n (freshRun d) stVersion 0 0 [] := by
  unfold OpSpec.inForm at h
  unfold State.runAccepted
  simp only [h, Bool.not_true, Bool.false_eq_true, if_false, hm, hx, hv, Bool.not_false, if_true]
  rfl

/-- Steps 5 to 7, with step 5's outcome. -/
def State.afterAuth (sp : OpSpec) (fn n part : Nat) (d : Desc) (x : Nat) (xs : List Nat) : AuthRes → State
  | .refuse s st authed => s.finish fn n { freshRun d with authed := authed } st 0 0 []
  | .dup s e k =>
    if e.done then s.finish fn n { freshRun d with authed := true } stDuplicate e.status e.result []
    else s.updRing fn n fun g => { g with running := some { freshRun d with authed := true, wait := .duplicate k e.counter e.tag } }
  | .pass s authed slot =>
    if sp.aOnly && fn == 1 then s.finish fn n (runOf d x authed slot) stProtected 0 0 [] else
    let c : Cmd := { fn := fn, ring := n, part := part, desc := d, seq := d.seq, keySlot := d.keySlot, counter := d.counter }
    if d.respLen < sp.totalResp s c xs then s.finish fn n (runOf d x authed slot) stNoSpace 0 (sp.totalResp s c xs) []
    else s.runEntries sp c (runOf d x authed slot) xs 0 []

theorem State.runAccepted_versioned (h : sp.inForm (s.func fn).chosen d = true) (hm : d.payload mem = some x)
    (hx : sp.split s d.entries d.payloadLen x = some xs)
    (hv : versionOk (s.func fn).chosen fn (sp.critical s (s.partOf fn)) d.auth = true) :
    s.runAccepted sp fn n d mem = State.afterAuth sp fn n (s.partOf fn) d x xs
      (s.authenticate fn n d x (sp.critical s (s.partOf fn)) sp.underIk) := by
  unfold OpSpec.inForm at h
  unfold State.runAccepted
  simp only [h, Bool.not_true, Bool.false_eq_true, if_false, hm, hx, hv]
  cases s.authenticate fn n d x (sp.critical s (s.partOf fn)) sp.underIk <;> rfl

end Steps

/-- Settles O9: each step of `runAccepted` in turn. -/
theorem commandsAreTurnedAwayInTheOrderOfSteps : Obligations.CommandsAreTurnedAwayInTheOrderOfSteps := by
  intro r hr i s d rest hb
  refine ⟨_, _, _, rfl, rfl, rfl, ?_⟩
  simp only [ringRows_run r hr, hb.run]
  have hc : ((s.taken i d rest).func i.fn).chosen = (s.func i.fn).chosen := State.chosen_taken ..
  have hp : (s.taken i d rest).partOf i.fn = s.partOf i.fn := rfl
  rw [← hc, ← hp]
  refine ⟨fun h => ?_, fun h hm => ?_, fun h x hm => ⟨fun hx => ?_, fun xs hx => ⟨fun hv => ?_, fun hv => ?_⟩⟩⟩
  · rw [State.runAccepted_misformed h]; rfl
  · rw [State.runAccepted_unread h hm]; rfl
  · rw [State.runAccepted_miscut h hm hx]; rfl
  · rw [State.runAccepted_unversioned h hm hx hv]; rfl
  · rw [State.runAccepted_versioned h hm hx hv]
    refine ⟨fun t status au ha => ?_, fun t e k ha => ?_, fun t au slot ha => ⟨fun hd => ?_, fun hd hl => ?_⟩⟩ <;> rw [ha]
    · rfl
    · refine ⟨fun he => ?_, fun he => ⟨{ freshRun d with authed := true, wait := .duplicate k e.counter e.tag }, rfl, rfl, rfl, ?_⟩⟩
      · simp only [State.afterAuth, he, if_true]; rfl
      · simp only [State.afterAuth, he, Bool.false_eq_true, if_false]
    · simp only [State.afterAuth, hd, if_true]; rfl
    · exact congrArg (fun u => Host.Outcome.next (State.settle u i.fn i.ring)) ((if_neg (by simp [hd])).trans (if_pos hl))

theorem entries_batch {d : Desc} (h : 2 ≤ d.count) : d.entries = d.count := by
  unfold Desc.entries
  exact if_neg (by omega)

/-- Settles O11: the entries before the end, or before the first failing one, all succeed (`runEntries_allDone`). -/
theorem batchesRunTheirEntriesInOrder : Obligations.BatchesRunTheirEntriesInOrder := by
  intro r hr i s d rest x xs t au slot hb hf h2 hm hx hv ha hd hl
  have hn : (runOf d x au slot).desc.entries ≠ 1 := by
    change d.entries ≠ 1
    rw [entries_batch h2]
    omega
  have hrun : s.runCommand r.2 i = (t.runEntries r.2 (s.cmdOf i d) (runOf d x au slot) xs 0 []).settle i.fn i.ring := by
    have hc : ((s.taken i d rest).func i.fn).chosen = (s.func i.fn).chosen := State.chosen_taken ..
    rw [← hc] at hf hv
    rw [← entries_batch h2] at hx
    rw [hb.run, State.runAccepted_versioned hf hm hx hv]
    change State.settle (State.afterAuth r.2 i.fn i.ring _ d x xs (State.authenticate _ _ _ _ _ (r.2.critical _ (s.partOf i.fn)) _)) _ _ = _
    rw [ha]
    exact congrArg (State.settle · i.fn i.ring) ((if_neg (by simp [hd])).trans (if_neg (Nat.not_lt.2 hl)))
  rw [ringRows_run r hr, hrun]
  refine ⟨fun u out hu => ?_, fun ys y zs u v out status detail result resp hxs hu hv hs => ?_⟩
  · have h := State.runEntries_allDone r.2 (s.cmdOf i d) (runOf d x au slot) hn xs [] t u out [] 0 hu
    rw [List.append_nil] at h
    rw [h, State.runEntries, Nat.zero_add, List.nil_append]
    rfl
  · have h := State.runEntries_allDone r.2 (s.cmdOf i d) (runOf d x au slot) hn ys (y :: zs) t u out [] 0 hu
    rw [hxs, h, State.runEntries, hv]
    simp only [hn, hs, if_false, Nat.zero_add, List.nil_append]
    rfl

end Sys2Proof.Machine
end

section
/-! PROOF. O14, O15: the fields of two responses. -/

namespace Sys2Proof

/-- A field above the lower part of a sum. -/
theorem bits_add_mul_ge (a b lo k w : Nat) (h : a < 2 ^ lo) : bits (a + b * 2 ^ lo) (lo + k) w = bits b k w := by
  rw [bits_eq, bits_eq, pow_add, ← Nat.div_div_eq_div_mul, Nat.add_mul_div_right _ _ (by positivity), Nat.div_eq_of_lt h,
    Nat.zero_add]

/-- Codes written from bit `lo` up over what stands below. -/
theorem codes_foldl_shift (c : Nat → Nat) (lo m n : Nat) :
    (List.range n).foldl (fun x k => x + c k * 2 ^ (lo + 2 * k)) m =
      m + (List.range n).foldl (fun x k => x + c k * 2 ^ (2 * k)) 0 * 2 ^ lo := by
  induction n with
  | zero => simp
  | succ n ih =>
    rw [List.range_succ, List.foldl_append, List.foldl_append, ih]
    simp only [List.foldl_cons, List.foldl_nil, pow_add]
    ring

end Sys2Proof

namespace Sys2Proof.Machine

/-- A command without payload has none. -/
theorem OpSpec.split_none {sp : OpSpec} (h : sp.entryLen = fixedLen 0) {s : State} {len x : Nat} {l : List Nat}
    (hs : sp.split s 1 len x = some l) : len = 0 := by
  by_contra hl
  simp [OpSpec.split, h, fixedLen, pad8, hl] at hs

theorem Accepted.payloadLen_eq_zero {sp : OpSpec} (h : sp.entryLen = fixedLen 0) (a : Accepted sp) : a.d.payloadLen = 0 :=
  OpSpec.split_none h a.ok.whole

theorem leNat_take_lt (l : List Byte) (n : Nat) : leNat (l.take n) < 256 ^ n :=
  (leNat_lt _).trans_le (Nat.pow_le_pow_right (by decide) (List.length_take_le n l))

/-- KCV of R405. -/
def State.kcv (s : State) : Nat := if s.sec.fuseState = 2 then leNat ((cmac s.sec.kek zero16).take 4) else 0

theorem State.kcv_lt (s : State) : s.kcv < 2 ^ 32 := by
  unfold State.kcv
  split
  · exact leNat_take_lt _ 4
  · decide

theorem State.leNat_fuseResponse (s : State) :
    leNat s.fuseResponse = Config.serial.toNat + s.kcv * 2 ^ 64 + s.sec.fuseState % 4 * 2 ^ 96 := by
  unfold State.fuseResponse
  rw [leNat_leBytes]
  have h1 := Config.serial.isLt
  have h2 := s.kcv_lt
  have h3 := Nat.mod_lt s.sec.fuseState (show 0 < 4 by decide)
  unfold State.kcv at h2 ⊢
  exact Nat.mod_eq_of_lt (by omega)

/-- Settles O14: the response is a sum of its fields. -/
theorem fuseReadReturnsItsFields : Obligations.FuseReadReturnsItsFields := by
  refine fun a => ⟨a.t.fuseResponse, congrArg Host.Outcome.next (a.run_ends rfl), a.payloadLen_eq_zero rfl, leBytes_length .., ?_⟩
  change bits _ 0 64 = _ ∧ bits _ 64 32 = a.t.kcv ∧ _
  rw [State.leNat_fuseResponse]
  have h1 := Config.serial.isLt
  have h2 := a.t.kcv_lt
  simp only [bits_eq]
  omega

theorem OnOff.code_lt (x : OnOff) : x.code < 4 := by cases x <;> decide

/-- The codes of the power domains, and of the lane groups, side by side (R442). -/
def State.domainCodes (s : State) : Nat := (List.range 236).foldl (fun n d => n + (s.domainSt d).code * 2 ^ (2 * d)) 0
def State.groupCodes (s : State) : Nat := (List.range 6).foldl (fun n g => n + (s.group g).st.code * 2 ^ (2 * g)) 0

theorem State.domainCodes_spec (s : State) :
    s.domainCodes < 2 ^ 472 ∧ ∀ d < 236, bits s.domainCodes (2 * d) 2 = (s.domainSt d).code := by
  rw [show 472 = 2 * 236 from rfl]
  exact codes_fold (fun d => (s.domainSt d).code) (fun _ => OnOff.code_lt _) 236

theorem State.groupCodes_spec (s : State) : s.groupCodes < 2 ^ 12 ∧ ∀ g < 6, bits s.groupCodes (2 * g) 2 = (s.group g).st.code :=
  codes_fold (fun g => (s.group g).st.code) (fun _ => OnOff.code_lt _) 6

theorem State.leNat_powerStatus (s : State) : leNat s.powerStatus = s.domainCodes + s.groupCodes * 2 ^ 472 := by
  unfold State.powerStatus
  rw [leNat_leBytes, codes_foldl_shift fun g => (s.group g).st.code]
  change (s.domainCodes + s.groupCodes * 2 ^ 472) % 256 ^ 64 = _
  have h1 := s.domainCodes_spec.1
  have h2 := s.groupCodes_spec.1
  exact Nat.mod_eq_of_lt (by omega)

/-- Settles O15: the response is the domains' codes and, above them, the groups'. -/
theorem powerStatusReadReturnsEveryState : Obligations.PowerStatusReadReturnsEveryState := by
  refine fun a => ⟨a.t.powerStatus, congrArg Host.Outcome.next (a.run_ends rfl), a.payloadLen_eq_zero rfl, leBytes_length .., ?_⟩
  rw [State.leNat_powerStatus]
  obtain ⟨hd, hdom⟩ := a.t.domainCodes_spec
  obtain ⟨hg, hgrp⟩ := a.t.groupCodes_spec
  refine ⟨fun d h => ?_, fun g h => ?_, ?_, rfl, rfl, rfl, rfl⟩
  · rw [bits_add_mul_lt _ _ _ _ _ (by omega), hdom d h]
  · rw [bits_add_mul_ge _ _ _ _ _ hd, hgrp g h]
  · rw [bits_add_mul_ge _ _ 472 12 _ hd, bits_eq, Nat.div_eq_of_lt hg, Nat.zero_mod]

end Sys2Proof.Machine
end

section
/-! PROOF. O46: keys, policy and fence. -/

namespace Sys2Proof.Machine

theorem keyInstallBody_eq {s : State} {c : Cmd} {x : Nat} (h : bits x 3 61 = 0) (hk : bits x 0 3 = c.keySlot) :
    keyInstallBody s c x = match keyUnwrap s.sec.kek (leBytes 40 (bits x 64 320)) with
      | none => .fail s stBadArg
      | some key => .ok ((s.updSlot c.keySlot fun p =>
          { p with key := some key, last := c.counter, window := [{ counter := c.counter, tag := c.desc.tag }] }).raise
          c.part evKeyInstalled c.keySlot c.counter) :=
  if_neg (by simp [h, hk])

theorem keyInstallBody_other {s : State} {c : Cmd} {x : Nat} (hk : bits x 0 3 ≠ c.keySlot) :
    keyInstallBody s c x = .fail s stBadArg := if_pos (.inr hk)

theorem keyClearBody_eq {s : State} {c : Cmd} {x : Nat} (h : bits x 3 61 = 0) (hk : bits x 0 3 = c.keySlot) :
    keyClearBody s c x = .ok ((s.updSlot c.keySlot fun p => { p with key := none }).raise c.part evKeyCleared c.keySlot) :=
  if_neg (by simp [h, hk])

theorem authPolicyBody_eq {s : State} {c : Cmd} {x : Nat} (h : bits x 1 63 = 0) :
    authPolicyBody s c x = .ok { s with sec :=
      if c.part = 0 then { s.sec with commitAuthA := bit x 0 } else { s.sec with commitAuthB := bit x 0 } } := by
  unfold authPolicyBody
  rw [if_neg (not_not.2 h)]
  split <;> rfl

theorem fenceClearBody_eq {s : State} {c : Cmd} {x : Nat} (h : bits x 16 48 = 0) :
    fenceClearBody s c x = if (s.ring c.fn c.ring).st ≠ .fenced then .ok s
      else if bits x 0 16 = (s.ring c.fn c.ring).fenceSeq then
        .okR ((s.updRing c.fn c.ring fun g => { g with st := .running }).raise c.part evRingUnfenced c.ring
          (s.ring c.fn c.ring).fenceSeq) ((s.ring c.fn c.ring).fenceSeq + 0x10000)
      else .done s stFenced 0 (s.ring c.fn c.ring).fenceSeq [] := by
  unfold fenceClearBody
  rw [if_neg (not_not.2 h)]
  exact if_congr bne_iff_ne rfl rfl

/-- Settles O46: a lemma for each command's own execution. -/
theorem securityCommandsSetKeysPolicyAndFence : Obligations.SecurityCommandsSetKeysPolicyAndFence := by
  refine ⟨fun a h hk => congrArg Host.Outcome.next ?_, fun a hk => congrArg Host.Outcome.next (a.run_ends (keyInstallBody_other hk)),
    fun a h hk => congrArg Host.Outcome.next (a.run_ends (keyClearBody_eq h hk)),
    fun a h => congrArg Host.Outcome.next (a.run_ends (authPolicyBody_eq h)),
    fun a h hf => congrArg Host.Outcome.next (a.run_ends ((fenceClearBody_eq h).trans (if_pos hf))),
    fun a h hf hq => congrArg Host.Outcome.next (a.run_ends ((fenceClearBody_eq h).trans ((if_neg (not_not.2 hf)).trans (if_pos hq)))),
    fun a h hf hq => congrArg Host.Outcome.next (a.run_ends ((fenceClearBody_eq h).trans ((if_neg (not_not.2 hf)).trans (if_neg hq))))⟩
  refine (a.run_of (keyInstallBody_eq h hk)).trans ?_
  cases keyUnwrap a.t.sec.kek (leBytes 40 (bits a.x 64 320)) <;> rfl

end Sys2Proof.Machine
end

section
/-! PROOF. O50: the power commands. -/

namespace Sys2Proof.Machine

theorem powerOk_eq_false {x : Nat} (h : bits x 2 6 ≠ 0 ∨ bits x 16 48 ≠ 0 ∨ 2 ≤ bits x 0 2 ∨ (bits x 0 2 = 0 ∧ bits x 8 8 < 152) ∨
    236 ≤ bits x 8 8 ∨ (bits x 0 2 = 1 ∧ 6 ≤ bits x 8 8)) : powerOk x = false := by
  rw [Bool.eq_false_iff]
  simp only [powerOk, ne_eq, Bool.and_eq_true, Bool.or_eq_true, beq_iff_eq, decide_eq_true_eq]
  omega

theorem powerBody_bad {on : Bool} {s : State} {c : Cmd} {x : Nat} (h : powerOk x = false) : powerBody on s c x = .fail s stBadArg := by
  unfold powerBody
  rw [h]
  rfl

theorem powerBody_domain {on : Bool} {s : State} {c : Cmd} {x : Nat} (h : powerOk x = true) (hp : s.partOn = false)
    (hk : bits x 0 2 = 0) :
    powerBody on s c x =
      if on = false ∧ (s.domain (bits x 8 8)).wantsOn = true ∧ s.offRefused (bits x 8 8) ≠ stOk then .fail s (s.offRefused (bits x 8 8))
      else powerOut (s.domainSwitch (bits x 8 8) on) 0 (bits x 8 8) ((s.domainSwitch (bits x 8 8) on).domain (bits x 8 8)) := by
  unfold powerBody
  simp only [h, hp, hk, Bool.not_true, Bool.false_and, Bool.false_eq_true, if_false, if_true]
  cases on
  · cases (s.domain (bits x 8 8)).wantsOn <;> simp
  · simp

/-- A group's ON goes through the checks of R57 and R73, and an OFF is refused while it holds a promise (R441). -/
theorem powerBody_group {on : Bool} {s : State} {c : Cmd} {x : Nat} (h : powerOk x = true) (hp : s.partOn = false)
    (hk : bits x 0 2 = 1) :
    powerBody on s c x =
      if s.applied = false then .fail s stBadArg
      else if on = true then
        let r := if (s.group (bits x 8 8)).wantsOn then (s, true) else s.groupEnableCheck (bits x 8 8)
        if r.2 = false then .fail r.1 stBadArg
        else powerOut (r.1.groupSwitch (bits x 8 8) true) 1 (bits x 8 8) ((r.1.groupSwitch (bits x 8 8) true).group (bits x 8 8))
      else if (s.group (bits x 8 8)).wantsOn = true ∧ s.groupPromises (bits x 8 8) = true then .fail s stOvercommit
      else powerOut (s.groupSwitch (bits x 8 8) false) 1 (bits x 8 8) ((s.groupSwitch (bits x 8 8) false).group (bits x 8 8)) := by
  unfold powerBody
  simp only [h, hp, hk, Bool.not_true, Bool.false_and, Bool.false_eq_true, one_ne_zero, if_false, Bool.not_eq_true',
    Bool.and_eq_true]

/-- R413: done at once where the function has settled in the direction, else a wait for its turn. -/
theorem powerOut_eq (s : State) (kind ix : Nat) (d : Domain) :
    powerOut s kind ix d = if d.todo = [] ∧ (d.st = .on ∨ d.st = .off) then .ok s
      else .wait s (.power kind ix (d.turn + d.todo.length)) :=
  if_congr (by simp) rfl rfl

/-- Settles O50: the power commands' common execution, for a domain and for a lane group. -/
theorem powerCommandsSwitchDomainsAndGroups : Obligations.PowerCommandsSwitchDomainsAndGroups := by
  refine ⟨fun a h => congrArg Host.Outcome.next (a.run_ends (powerBody_bad (powerOk_eq_false h))),
    fun a h hp hk => ⟨_, _, rfl, rfl, congrArg Host.Outcome.next ?_⟩,
    fun a h hp hk => ⟨_, _, _, rfl, rfl, rfl, congrArg Host.Outcome.next ?_⟩,
    fun a h hp hk => ⟨_, _, rfl, rfl, congrArg Host.Outcome.next ?_⟩, fun a h hp hk => ⟨_, _, rfl, rfl, congrArg Host.Outcome.next ?_⟩,
    fun a => congrArg Host.Outcome.next (a.run_ends rfl)⟩
  · refine (a.run_of ((powerBody_domain h hp hk).trans (if_neg (by simp)))).trans ?_
    rw [powerOut_eq, apply_ite a.does]
    rfl
  · refine (a.run_of (powerBody_group h hp hk)).trans ?_
    simp only [if_true, powerOut_eq, apply_ite a.does]
    rfl
  · refine (a.run_of (powerBody_domain h hp hk)).trans ?_
    simp only [true_and, powerOut_eq, apply_ite a.does]
    rfl
  · refine (a.run_of (powerBody_group h hp hk)).trans ?_
    simp only [Bool.false_eq_true, if_false, powerOut_eq, apply_ite a.does]
    rfl

end Sys2Proof.Machine
end

section
/-! PROOF. O33: the memory controllers. -/

namespace Sys2Proof.Machine

section Rows

variable (s : State) (dt : Nat)

theorem exec_hbmTrainingDone (k : Fin 4) (ok : Bool) : let u := s.pass dt
    let v := (List.range 4).foldl (fun s g => s.domainOn (184 + 4 * k.val + g)) (u.updStack k fun h => { h with st := 3, boot := false })
    exec (.hbmTrainingDone dt k ok) s = .next (if (u.stack k).boot = false then u
      else if ok = true then (v.startUnits ((List.range 32).map (32 + 32 * k.val + ·)) ((List.range 16).map (8 + 16 * k.val + ·))).refreshRooms.autoOn
      else (u.updStack k fun h => { h with st := 4, boot := false }).raise 0 evMemStackFail k) := by
  simp only [exec, execHbmTrainingDone, Bool.not_eq_true', ans, apply_ite Host.Outcome.next]

theorem exec_dimmProbeDone (c : Fin 8) (dimms ranks : Fin 3) (gib : Fin 129) (conforms readable dense : Bool) : let u := s.pass dt
    exec (.dimmProbeDone dt c dimms ranks gib conforms readable dense) s = .next (if (u.xm c).probed = true then u
      else u.updXm c fun x => { x with
        probed := true, st := if dimms.val = 0 then 0 else 1, dimms := dimms, ranks := if dimms.val = 0 then 0 else ranks.val, dense := dense
        conforms := conforms && (ranks.val == 1 || ranks.val == 2) && decide (gib.val ≤ 128), readable := readable, dimmGib := gib }) := by
  simp only [exec, execDimmProbeDone, ans, apply_ite Host.Outcome.next]

theorem exec_temperatureReading (n : Fin 20) (t : Int) : let u := s.pass dt
    let v : State := { u with mem := { u.mem with readAt := u.mem.readAt.put 0 n (u.readPeriod n) } }
    let r := 4 * ((n.val - 4) / 2) + 2 * ((n.val - 4) % 2)
    exec (.temperatureReading dt n t) s = .next (if u.readPeriod n ≤ u.mem.readAt.get 0 n then u
      else if n.val < 4 then (if v.readingHeld n = true then v.updStack n fun h => { h with deferred := some t } else v.readStack n t)
      else if (v.xm ((n.val - 4) / 2)).dimms ≤ (n.val - 4) % 2 then v
      else ((v.setTemp n t).readUnits [r] t).readUnits [r + 1] t) := by
  simp only [exec, execTemperatureReading, ans, apply_ite Host.Outcome.next]

variable (k : Fin 160)

theorem exec_refreshDue : let u := s.pass dt
    let r := u.unit k
    exec (.refreshDue dt k) s = .next (if u.unitLive k = false ∨ u.cyc < r.dueAt + r.trefi then u
      else u.updUnit k fun r => let r := { r with dueAt := r.dueAt + r.trefi }
        if r.burst ≠ 0 then { r with burstDue := r.burstDue + 1 } else { r with debt := min r.limit (r.debt + 1) }) := by
  simp only [exec, execRefreshDue, Bool.or_eq_true, Bool.not_eq_true', decide_eq_true_eq, ans, apply_ite Host.Outcome.next]

theorem exec_refreshIssue : let u := s.pass dt
    let r := u.unit k
    exec (.refreshIssue dt k) s = .next (if u.unitLive k = true ∧ r.debt ≠ 0 ∧ r.burst = 0 then
      (u.updUnit k fun r => { r with debt := r.debt - 1 }).tryCool k else u) := by
  simp only [exec, execRefreshIssue, Bool.and_eq_true, bne_iff_ne, beq_iff_eq, and_assoc, ans, apply_ite Host.Outcome.next]

theorem exec_refreshBurstEnd : let u := s.pass dt
    let r := u.unit k
    exec (.refreshBurstEnd dt k) s = .next (if r.burst = 0 ∨ u.cyc < r.burstAt + r.burst * u.refreshCyc k then u
      else ((u.updUnit k fun r => { r with burst := 0, burstDue := 0, debt := r.burstDue }).tryCool k).takeDeferred) := by
  simp only [exec, execRefreshBurstEnd, ans, apply_ite Host.Outcome.next]

theorem exec_powerDownEntry : let u := s.pass dt
    let r := u.unit k
    exec (.powerDownEntry dt k) s = .next (if u.unitLive k = true ∧ u.pdEn k = true ∧ r.powerDown = false ∧
      r.lastAccess + u.pdCyc k ≤ u.cyc then u.updUnit k fun r => { r with powerDown := true } else u) := by
  simp only [exec, execPowerDownEntry, Bool.and_eq_true, Bool.not_eq_true', decide_eq_true_eq, and_assoc, ans,
    apply_ite Host.Outcome.next]

/-- A scrub read wakes the unit (R300) and counts in its pass. -/
theorem exec_memScrubRead (addr kind : Nat) (outcome : Fin 3) : let u := s.pass dt
    let v := (u.updUnit k fun r => { r with powerDown := false, lastAccess := u.cyc }).noteScrub k
    exec (.memScrubRead dt k addr kind outcome) s = .next (
      if bit (u.reg 0x02000204) 8 = false ∨ u.unitLive k = false ∨ u.unitHeld k = true ∨ u.locatedIn kind addr k = false ∨
        u.scrubOpen k = false then u
      else if outcome = 0 then v else if outcome = 1 then v.bumpUnit k 0 else v.scrubUe k addr kind) := by
  simp only [exec, execMemScrubRead, Bool.or_eq_true, Bool.not_eq_true', or_assoc, ans, apply_ite Host.Outcome.next]
  refine if_congr Iff.rfl rfl ?_
  fin_cases outcome <;> rfl

variable (ch : Fin 72)

theorem exec_retrainingPause : let u := s.pass dt
    let v : State := { u with mem := { u.mem with
        pauses := u.mem.pauses.ins ch u.cyc, lastPause := u.mem.lastPause.ins ch u.cyc
        lastBuf := if 40 ≤ ch.val then some u.cyc else u.mem.lastBuf } }
    exec (.retrainingPause dt ch) s = .next (if bit (u.reg 0x02000200) 16 = true ∧ u.chanLive ch = true ∧ u.mem.pauses.find? ch = none ∧
      u.pauseAllowed ch = true ∧ u.mem.lastPause.get 0 ch + u.retrainCyc ≤ u.cyc then v.bump ⟨0x13, 2, 0⟩ ch else u) := by
  intro u v
  refine (ite_cond_congr (propext ?_)).trans ((ite_not _ _ _).trans (apply_ite Host.Outcome.next _ _ _).symm)
  simp only [Bool.or_eq_true, Bool.not_eq_true', Option.isSome_iff_ne_none, decide_eq_true_eq, not_and_or, Bool.not_eq_true,
    or_assoc, not_le, ne_eq, u]

theorem exec_retrainingPauseEnd (low : Bool) : let u := s.pass dt
    exec (.retrainingPauseEnd dt ch low) s = .next (if u.mem.pauses.find? ch = none then u
      else if low = true then (u.endRetrain ch).raise 0 evMemRetrainWarn ch else u.endRetrain ch) := by
  simp only [exec, execRetrainingPauseEnd, Option.isNone_iff_eq_none, ans, apply_ite Host.Outcome.next]

end Rows

theorem memTrainBody_eq (s : State) (c : Cmd) (x : Nat) : let m := bits x 0 8
    memTrainBody s c x =
      if bits x 8 56 ≠ 0 ∨ m = 0 then .fail s stBadArg
      else if s.partOn = true ∧ m &&& chanMaskOf (1 - c.part) ≠ 0 then .fail s stProtected
      else if (s.mode .cellar).st ≠ .off then .fail s stBadArg
      else .wait (((List.range 8).filter fun c => bit m c).foldl (fun (s : State) c => let v := s.domainSwitch (200 + c) true
        if (v.xm c).dimms = 0 then v
        else v.updXm c fun x => { x with st := 2, cause := 0, gib := 0, map := v.regF (0x02000000 + 0x20 * c) 0 2 }) s) (.memTrain m) := by
  simp only [memTrainBody, maskChans, Bool.and_eq_true, bne_iff_ne]

theorem exec_memTrainDone {s : State} {dt : Nat} {fn : Fin 2} {ring : Fin 64} {m : Nat} (margin : Nat)
    (h : (s.pass dt).waitOf fn ring = some (.memTrain m)) : let u := s.pass dt
    let l := (List.range 8).filter fun c => bit m c
    let v := l.foldl (fun s c => s.trainChannel c (bit margin c)) u
    let failed := l.filter fun c => (v.xm c).st == 4
    exec (.memTrainDone dt fn ring margin) s = .next (if (l.any fun c => (u.domain (200 + c)).st != .on) = true then u
      else match failed with
        | [] => v.endWait fn ring stOk 0 0 []
        | c :: _ => v.endWait fn ring stMemErr 0 ((failed.map (2 ^ ·)).foldl (· + ·) 0 + (v.xm c).cause * 256) []) := by
  simp only [exec, execMemTrainDone, h, maskChans, apply_ite Host.Outcome.next]
  refine if_congr Iff.rfl rfl ?_
  generalize List.foldl _ _ _ = v
  generalize List.filter (fun c => (v.xm c).st == 4) _ = failed
  cases failed <;> rfl

theorem State.unitHeld_iff (s : State) (k : Nat) :
    s.unitHeld k = true ↔ (s.unit k).burst ≠ 0 ∨ s.mem.pauses.find? (unitChannel k) ≠ none := by
  simp only [State.unitHeld, Bool.or_eq_true, bne_iff_ne, Option.isSome_iff_ne_none]

/-- Settles O33: a lemma for each row of the controllers. -/
theorem memoryControllersTrainRefreshAndScrub : Obligations.MemoryControllersTrainRefreshAndScrub :=
  ⟨exec_hbmTrainingDone, exec_dimmProbeDone, fun a => congrArg Host.Outcome.next (a.run_of (memTrainBody_eq _ _ _)),
    fun _ _ _ _ margin _ => exec_memTrainDone margin, exec_temperatureReading,
    fun s dt k => ⟨exec_refreshDue s dt k, exec_refreshIssue s dt k, exec_refreshBurstEnd s dt k, exec_powerDownEntry s dt k⟩,
    fun s dt ch => ⟨exec_retrainingPause s dt ch, exec_retrainingPauseEnd s dt ch⟩, exec_memScrubRead, State.unitHeld_iff⟩

end Sys2Proof.Machine
end

section
/-! PROOF. O40: device time. -/

namespace Sys2Proof.Machine

theorem timeAdjustBody_eq (s : State) (c : Cmd) (x : Nat) :
    let amount := mkTime (bits x 64 48) (bits x 112 32) (bits x 144 16)
    let ppb := signed 32 (bits x 32 32)
    timeAdjustBody s c x =
      if c.part = 1 then .fail s stProtected
      else if bits x 0 2 = 3 ∨ bits x 2 6 ≠ 0 ∨ bits x 9 23 ≠ 0 ∨ bits x 160 32 ≠ 0 ∨ 999999999 < bits x 112 32 ∨
        bits x 0 2 = 2 ∧ 200000 < ppb.natAbs then .fail s stBadArg
      else if bits x 0 2 = 2 then .ok { s with time := { s.time with freqPpb := ppb } }
      else if bits x 0 2 = 0 then
        .wait (s.decideStep 0 (if bit x 8 = true then -(amount : Int) else amount) none (some (c.fn, c.ring))) .timeStep
      else .wait (s.decideStep 1 0 (some amount) (some (c.fn, c.ring))) .timeStep := by
  intro amount ppb
  refine if_congr Iff.rfl rfl ?_
  by_cases hf : bits x 0 2 = 3 ∨ bits x 2 6 ≠ 0 ∨ bits x 9 23 ≠ 0 ∨ bits x 160 32 ≠ 0 ∨ 999999999 < bits x 112 32
  · rw [if_pos hf, if_pos (by simp only [← or_assoc] at hf ⊢; exact .inl hf)]
  · have hbad : (bits x 0 2 = 3 ∨ bits x 2 6 ≠ 0 ∨ bits x 9 23 ≠ 0 ∨ bits x 160 32 ≠ 0 ∨ 999999999 < bits x 112 32 ∨
        bits x 0 2 = 2 ∧ 200000 < ppb.natAbs) ↔ bits x 0 2 = 2 ∧ 200000 < ppb.natAbs := by tauto
    rw [if_neg hf, if_congr hbad rfl rfl]
    by_cases hk : bits x 0 2 = 2
    · simp only [hk, if_true, true_and]
      rfl
    · simp only [hk, if_false, false_and]
      rfl

theorem tsReadOk_iff (x : Nat) : tsReadOk x = true ↔ bits x 2 6 = 0 ∧ bits x 14 50 = 0 ∧ 1 ≤ bits x 8 6 ∧ bits x 8 6 ≤ 32 := by
  simp only [tsReadOk, Bool.and_eq_true, beq_iff_eq, decide_eq_true_eq, and_assoc]

theorem tsReadBody_eq (s : State) (c : Cmd) (x : Nat) : let k := bits x 0 2
    let es := (s.tsQueue k).entries.take (bits x 8 6)
    tsReadBody s c x =
      if ¬ (bits x 2 6 = 0 ∧ bits x 14 50 = 0 ∧ 1 ≤ bits x 8 6 ∧ bits x 8 6 ≤ 32) then .fail s stBadArg
      else .okResp ((s.updTsQueue k fun q => { q with entries := q.entries.drop es.length }).flushLost k) es.length
        (es.flatMap (leBytes 16)) :=
  if_congr (formCheck_fails_iff (tsReadOk_iff x)) rfl rfl

section Rows

variable {s : State} {dt : Nat}

theorem exec_timeLatch (v : Word32) (hu : (s.pass dt).hostUp = true) : let u := s.pass dt
    exec (.timeLatch dt 0 v) s = .next (if v.getLsbD 0 = true ∧ u.chip.d2dDown = false then { u with time := { u.time with snap := u.now } }
      else u) := by
  refine congrArg Host.Outcome.next ((State.sharedWrite_served hu rfl ..).trans ((if_neg (by decide)).trans (if_congr ?_ rfl rfl)))
  simp only [Bool.and_eq_true, Bool.not_eq_true']

theorem exec_timeInitGo (v : Word32) (hu : (s.pass dt).hostUp = true) : let u := s.pass dt
    exec (.timeInitGo dt 0 v) s = .next (
      if v.getLsbD 0 = true ∧ u.applied = false ∧ u.reg 0x02800048 ≤ 999999999 ∧ u.chip.d2dDown = false then
        u.decideStep 2 0 (some (mkTime (u.reg 0x02800040 + u.reg 0x02800044 * 2 ^ 32) (u.reg 0x02800048) 0)) none
      else u) := by
  refine congrArg Host.Outcome.next ((State.sharedWrite_served hu rfl ..).trans ((if_neg (by decide)).trans (if_congr ?_ rfl rfl)))
  simp only [Bool.and_eq_true, Bool.not_eq_true', decide_eq_true_eq, and_assoc]

theorem exec_stepActivation_nil (h : (s.pass dt).time.steps = []) : exec (.stepActivation dt) s = .next (s.pass dt) := by
  simp only [exec, execStepActivation, h, ans]

theorem exec_stepActivation_cons {o : StepOp} {rest : List StepOp} (h : (s.pass dt).time.steps = o :: rest) : let u := s.pass dt
    let v : State := { u with time := { u.time with steps := rest } }
    exec (.stepActivation dt) s = .next (if u.cyc < o.actAt then u else match u.stepTarget o with
      | some q => (v.applyStep o.cause q).stepOwner o stOk
      | none => v.stepOwner o stBadArg) := by
  simp only [exec, execStepActivation, h, ans, apply_ite Host.Outcome.next]
  cases (s.pass dt).stepTarget o <;> rfl

variable (s dt)

theorem exec_slewEnd : let u := s.pass dt
    exec (.slewEnd dt) s = .next (match u.time.slew with
      | none => u
      | some (_, e) => if e ≤ u.cyc then { u with time := { u.time with slew := none } } else u) := by
  simp only [exec, execSlewEnd, ans]
  cases (s.pass dt).time.slew with
  | none => rfl
  | some p => exact (apply_ite Host.Outcome.next _ _ _).symm

theorem exec_followerCheck (e : Int) : let u := s.pass dt
    let w := u.syncAllV
    let x : State := { w with time := { w.time with follErr := e, follAt := w.cyc } }
    let v : State := { x with tm := { x.tm with
      egress := x.tm.egress.foldl (fun m p => NMap.put m {} p.1 { p.2 with vDev := x.follower }) x.tm.egress } }
    exec (.followerCheck dt e) s = .next (
      if u.time.follAt ≠ 0 ∧ u.cyc < u.time.follAt + 800000 then u
      else if 131072 < e.natAbs then { v with time := { v.time with follSet := true } }.raise 0 evTimeFollowerErr (unsigned 32 e) else v) := by
  simp only [exec, execFollowerCheck, ans, apply_ite Host.Outcome.next]
  rfl

theorem exec_followerErrorCleared : let u := s.pass dt
    exec (.followerErrorCleared dt) s = .next (if u.time.follSet = true ∧ u.follError.natAbs ≤ 131072 then
      { u with time := { u.time with follSet := false } }.raiseSt 0 evTimeFollowerErr (unsigned 32 u.follError) 0 false else u) := by
  simp only [exec, execFollowerErrorCleared, Bool.and_eq_true, decide_eq_true_eq, ans, apply_ite Host.Outcome.next]

theorem exec_ppsInEdge (falling : Bool) : let u := s.pass dt
    let r := ppsOffsetOf u.now
    exec (.ppsInEdge dt falling) s = .next (if falling ≠ bit (u.reg 0x02800000) 2 then u
      else if u.captures r.1 r.2 = true then u.capturePps r.1 r.2 else u.bump ⟨0x14, 0, 0⟩ 0) := by
  simp only [exec, execPpsInEdge, bne_iff_ne, ans, apply_ite Host.Outcome.next]

theorem exec_ppsWindowEnd : let u := s.pass dt
    let b := (u.now - u.ppsWindow * qNs) / qSec
    let miss := if u.time.winCaptured = some b then 0 else u.time.missed + 1
    let v : State := { u with time := { u.time with winDone := b, missed := miss } }
    exec (.ppsWindowEnd dt) s = .next (if u.time.align = 0 ∨ b ≤ u.time.winDone then u
      else if u.time.align = 1 ∧ 2 ≤ miss then v.enterAlign 2 else v) := by
  simp only [exec, execPpsWindowEnd, ans, apply_ite Host.Outcome.next]

theorem exec_holdoverExpiry : let u := s.pass dt
    exec (.holdoverExpiry dt) s = .next (if u.time.align = 2 ∧ u.time.holdAt + u.holdoverCyc ≤ u.cyc then u.enterAlign 0 else u) := by
  simp only [exec, execHoldoverExpiry, ans, apply_ite Host.Outcome.next]

theorem exec_ppsOutPulse : let u := s.pass dt
    let b := u.ppsOutSecond u.now
    let v : State := { u with time := { u.time with ppsOutSec := b.toNat } }
    exec (.ppsOutPulse dt) s = .next (if ¬ (u.ppsOutSecond ((u.now : Int) - maxTick) < b ∧ (u.time.ppsOutSec : Int) < b) then u
      else if bit (u.reg 0x02800000) 3 = true ∧ (bit (u.reg 0x02800000) 4 = true → u.time.align ≠ 0) then
        { v with time := { v.time with ppsOut := true, ppsOutAt := u.cyc + min 500 (max 1 (u.regF 0x02800010 0 9)) * cycMs } }
      else v) := by
  intro u b v
  refine Eq.trans ?_ (apply_ite Host.Outcome.next _ _ _).symm
  refine if_congr ?_ rfl (Eq.trans (if_congr ?_ rfl rfl) (apply_ite Host.Outcome.next _ _ _).symm)
  · simp only [Bool.not_eq_true', ← Bool.decide_and, decide_eq_false_iff_not, u, b]
  · simp only [Bool.and_eq_true, Bool.or_eq_true, Bool.not_eq_true', bne_iff_ne, ← Bool.not_eq_true, ← imp_iff_not_or, u]
    rfl

theorem exec_ppsOutPulseEnd : let u := s.pass dt
    exec (.ppsOutPulseEnd dt) s = .next (if u.time.ppsOut = true ∧ u.time.ppsOutAt ≤ u.cyc then
      { u with time := { u.time with ppsOut := false } } else u) := by
  simp only [exec, execPpsOutPulseEnd, Bool.and_eq_true, decide_eq_true_eq, ans, apply_ite Host.Outcome.next]

end Rows

/-! ### The correction of a captured offset (R318) -/

section Correction

variable {s : State} {dt : Nat}

theorem exec_ppsCorrectionDecision_none (h : (s.pass dt).time.corr = none) : exec (.ppsCorrectionDecision dt) s = .next (s.pass dt) := by
  simp only [exec, execPpsCorrectionDecision, h, ans]

/-- PPS_MODE 1 steps, 2 slews, 3 steps or slews by STEP_THRESH. -/
theorem ppsMode_eq (v : State) (m : Nat) (off : Int) :
    (if m = 1 then if v.alignNs < off.natAbs then ans (v.decideStep 3 (-off * qNs) none none) else ans v
      else if m = 2 then ans (v.slewOff off)
      else if m = 3 then if v.stepThresh ≤ off.natAbs then ans (v.decideStep 3 (-off * qNs) none none) else ans (v.slewOff off)
      else ans v) =
    .next (if m = 1 ∧ v.alignNs < off.natAbs ∨ m = 3 ∧ v.stepThresh ≤ off.natAbs then v.decideStep 3 (-off * qNs) none none
      else if m = 2 ∨ m = 3 then v.slewOff off else v) := by
  by_cases h1 : m = 1
  · simp [h1, ans, apply_ite Host.Outcome.next]
  · by_cases h2 : m = 2
    · simp [h2, ans]
    · simp only [h1, h2, if_false, false_and, false_or, ite_and, ans, apply_ite Host.Outcome.next]
      split <;> rfl

theorem exec_ppsCorrectionDecision_some {off : Int} {at_ : Nat} (h : (s.pass dt).time.corr = some (off, at_)) : let u := s.pass dt
    let v : State := { u with time := { u.time with corr := none } }
    let m := if u.time.steps ≠ [] ∨ v.timeFollower = true then 0 else v.regF 0x02800000 0 2
    exec (.ppsCorrectionDecision dt) s = .next (if u.now < at_ + 250 * 65536 then u
      else if m = 1 ∧ v.alignNs < off.natAbs ∨ m = 3 ∧ v.stepThresh ≤ off.natAbs then v.decideStep 3 (-off * qNs) none none
      else if m = 2 ∨ m = 3 then v.slewOff off else v) := by
  intro u v m
  have hm : (if (!u.time.steps.isEmpty || v.timeFollower) = true then 0 else v.regF 0x02800000 0 2) = m :=
    if_congr (by simp) rfl rfl
  rw [apply_ite Host.Outcome.next, ← ppsMode_eq, ← hm]
  simp only [exec, execPpsCorrectionDecision, h]
  rfl

end Correction

/-- Settles O40: a lemma for each command's own execution and for each row. -/
theorem timeCommandsStepsAndAlignment : Obligations.TimeCommandsStepsAndAlignment :=
  ⟨fun a => congrArg Host.Outcome.next (a.run_of (timeAdjustBody_eq _ _ _)), fun _ _ _ _ _ => rfl,
    fun a => congrArg Host.Outcome.next (a.run_of (tsReadBody_eq _ (a.s.cmdOf a.i a.d) _)),
    fun _ _ v hu => ⟨exec_timeLatch v hu, exec_timeInitGo v hu⟩,
    fun _ _ => ⟨exec_stepActivation_nil, fun _ _ => exec_stepActivation_cons⟩, exec_slewEnd,
    fun s dt e => ⟨exec_followerCheck s dt e, exec_followerErrorCleared s dt⟩, exec_ppsInEdge,
    fun _ _ => ⟨exec_ppsCorrectionDecision_none, fun _ _ => exec_ppsCorrectionDecision_some⟩,
    fun s dt => ⟨exec_ppsWindowEnd s dt, exec_holdoverExpiry s dt⟩, fun s dt => ⟨exec_ppsOutPulse s dt, exec_ppsOutPulseEnd s dt⟩⟩

end Sys2Proof.Machine
end

section
/-! PROOF. O41: pair states, lanterns and the claim. -/

namespace Sys2Proof.Machine

/-! ### Lanterns (R332, R347) -/

theorem lanternGood_iff (hb : Bool) (x : Nat) :
    lanternGood hb x = true ↔ bits x 0 8 = 0xA5 ∧ (hb = true → crc16 (leBytes 12 (x % 2 ^ 96)) = bits x 96 16) := by
  simp only [lanternGood, Bool.and_eq_true, beq_iff_eq, Bool.or_eq_true, Bool.not_eq_true', ← Bool.not_eq_true, ← imp_iff_not_or]

theorem State.ownPairOk_iff (s : State) : s.ownPairOk = true ↔ bits s.twinCfg 8 8 ≠ 0 ∧
    (s.partOn = true → bits s.twinCfg 16 8 ≠ 0 ∧ bits s.twinCfg 16 8 ≠ bits s.twinCfg 8 8) := by
  simp only [State.ownPairOk, Bool.and_eq_true, bne_iff_ne, Bool.or_eq_true, Bool.not_eq_true', ← Bool.not_eq_true, ← imp_iff_not_or]

theorem State.lanternFits_iff (s : State) (m : LanternMsg) : s.lanternFits m = true ↔ bits s.twinCfg 8 8 ≠ 0 ∧
    (s.partOn = true → bits s.twinCfg 16 8 ≠ 0 ∧ bits s.twinCfg 16 8 ≠ bits s.twinCfg 8 8) ∧ m.pairIdA = bits s.twinCfg 8 8 ∧
    (s.partOn = true → m.pairIdB = bits s.twinCfg 16 8) ∧ m.unit ≠ b2n s.unit1 ∧ m.lockMode = s.lockMode ∧
    m.partition = s.partOn := by
  simp only [State.lanternFits, Bool.and_eq_true, State.ownPairOk_iff, beq_iff_eq, bne_iff_ne, Bool.or_eq_true, Bool.not_eq_true',
    ← Bool.not_eq_true, ← imp_iff_not_or, and_assoc]

section Lanterns

variable (s : State) (dt : Nat)

theorem exec_lanternSend : let u := s.pass dt
    let miss (s : State) (hb : Bool) : State :=
      if (s.path hb).lastGood + 100 * cycUs < s.cyc ∨ (s.path hb).count = none then s.bump ⟨0x15, 2, b2n hb⟩ 0 else s
    let v := u.updTwin fun t => { t with lanternAt := u.cyc }
    exec (.lanternSend dt) s = .next (if u.lanternsRun = false ∨ u.cyc < u.twin.lanternAt + 100 * cycUs then u
      else (miss (miss v false) true).lantern) := by
  simp only [exec, execLanternSend, Bool.or_eq_true, Bool.not_eq_true', decide_eq_true_eq, ans, apply_ite Host.Outcome.next]

/-- A lantern acts when TWIN is ON, and it is good and no repetition. -/
theorem exec_lanternReceived (hb : Bool) (word : BitVec 128) : let u := s.pass dt
    let m := lanternFields word.toNat
    let g := u.goodLantern hb m.count
    exec (.lanternReceived dt hb word) s = .next (
      if u.isOn .twin = true ∧ lanternGood hb word.toNat = true ∧ (u.path hb).count ≠ some m.count then
        if g.lanternFits m = true then g.lanternActs hb m else g.configFails
      else u) := by
  intro u m g
  refine Eq.trans ?_ (apply_ite Host.Outcome.next _ _ _).symm
  refine Eq.trans ?_ (ite_not _ _ _)
  refine if_congr ?_ rfl (apply_ite Host.Outcome.next _ _ _).symm
  simp only [Bool.or_eq_true, Bool.not_eq_true', beq_iff_eq, ne_eq, not_and_or, Bool.not_eq_true, not_not, or_assoc, u, m]

theorem exec_lanternReceived_ignored {hb : Bool} {word : BitVec 128} (h : (s.pass dt).isOn .twin = false ∨ bits word.toNat 0 8 ≠ 0xA5 ∨
      hb = true ∧ crc16 (leBytes 12 (word.toNat % 2 ^ 96)) ≠ bits word.toNat 96 16 ∨
      ((s.pass dt).path hb).count = some (lanternFields word.toNat).count) :
    exec (.lanternReceived dt hb word) s = .next (s.pass dt) := by
  refine (exec_lanternReceived s dt hb word).trans (congrArg _ (if_neg ?_))
  rw [lanternGood_iff]
  rintro ⟨hon, ⟨hmagic, hcrc⟩, hcount⟩
  rcases h with h | h | ⟨hhb, h⟩ | h
  · exact absurd hon (Bool.eq_false_iff.1 h)
  · exact h hmagic
  · exact h (hcrc hhb)
  · exact hcount h

theorem exec_lanternReceived_acts {hb : Bool} {word : BitVec 128} (hon : (s.pass dt).isOn .twin = true)
    (hmagic : bits word.toNat 0 8 = 0xA5) (hcrc : hb = true → crc16 (leBytes 12 (word.toNat % 2 ^ 96)) = bits word.toNat 96 16)
    (hcount : ((s.pass dt).path hb).count ≠ some (lanternFields word.toNat).count) :
    let m := lanternFields word.toNat
    let g := (s.pass dt).goodLantern hb m.count
    exec (.lanternReceived dt hb word) s = .next (if g.lanternFits m = true then g.lanternActs hb m else g.configFails) :=
  (exec_lanternReceived s dt hb word).trans (congrArg _ (if_pos ⟨hon, (lanternGood_iff ..).2 ⟨hmagic, hcrc⟩, hcount⟩))

theorem exec_pathLost (hb : Bool) : let u := s.pass dt
    let v := (u.updPath hb fun p => { p with up := false }).raise 0 evTwinPathLost (b2n hb)
    exec (.pathLost dt hb) s = .next (if u.isOn .twin = false ∨ (u.path hb).up = false ∨ u.cyc < (u.path hb).lastGood + 300 * cycUs then u
      else if v.twin.tw.up = false ∧ v.twin.hb.up = false ∧ (v.twin.pair = 1 ∨ v.twin.pair = 2) then v.declareFailed else v) := by
  simp only [exec, execPathLost, Bool.or_eq_true, Bool.and_eq_true, Bool.not_eq_true', beq_iff_eq, decide_eq_true_eq, or_assoc, and_assoc,
    ans, apply_ite Host.Outcome.next]

theorem exec_twinPairReform : let u := s.pass dt
    exec (.twinPairReform dt) s = .next (if u.isOn .twin = true ∧ u.twin.pair = 3 ∧ u.twin.tw.up = true ∧ u.twin.tw.since + cycMs ≤ u.cyc ∧
      u.twin.hb.up = true ∧ u.twin.hb.since + cycMs ≤ u.cyc then u.enterForming else u) := by
  simp only [exec, execTwinPairReform, Bool.and_eq_true, beq_iff_eq, decide_eq_true_eq, and_assoc, ans, apply_ite Host.Outcome.next]

/-! ### The claim's rows (R342, R344 to R346, R349) -/

theorem exec_claimWaitEnd (p : Fin 2) : let u := s.pass dt
    exec (.claimWaitEnd dt p) s = .next (match (u.claim p).waitEnd with
      | none => u
      | some t => if t ≤ u.cyc then u.startSide p else u) := by
  simp only [exec, execClaimWaitEnd, ans]
  cases ((s.pass dt).claim p).waitEnd with
  | none => rfl
  | some t => exact (apply_ite Host.Outcome.next _ _ _).symm

theorem exec_sideEffectsStopped (p : Fin 2) : let u := s.pass dt
    exec (.sideEffectsStopped dt p) s = .next (if (u.claim p).stopping = 0 then u else u.stopSide p) := by
  simp only [exec, execSideEffectsStopped, ans, apply_ite Host.Outcome.next]

theorem exec_twinLockLevelChange (level : Bool) : let u := s.pass dt
    let v := u.updTwin fun t => { t with lock := level }
    let w := v.raise 0 evTwinLockChange (b2n level)
    exec (.twinLockLevelChange dt level) s = .next (if level = u.twin.lock then u
      else if v.isOn .twin = false ∨ v.lockRules = false then v
      else if w.lockMine = true then w.updTwin fun t => { t with lockGain := some (w.cyc + 12 * cycUs) }
      else w.twinParts.foldl (fun s p => if (s.claim p).num = 0 then s else s.yieldClaim p 4) (w.updTwin fun t => { t with lockGain := none })) := by
  simp only [exec, execTwinLockLevelChange, Bool.or_eq_true, Bool.not_eq_true', ans, apply_ite Host.Outcome.next]
  rfl

theorem exec_lockGainStart_none {s : State} {dt : Nat} (h : (s.pass dt).twin.lockGain = none) :
    exec (.lockGainStart dt) s = .next (s.pass dt) := by
  simp only [exec, execLockGainStart, h, ans]

theorem exec_lockGainStart_some {s : State} {dt t : Nat} (h : (s.pass dt).twin.lockGain = some t) : let u := s.pass dt
    let v := u.updTwin fun t => { t with lockGain := none, arbClaim := false }
    exec (.lockGainStart dt) s = .next (if u.cyc < t then u else v.twinParts.foldl State.lockStart v) := by
  simp only [exec, execLockGainStart, h, ans, apply_ite Host.Outcome.next]

theorem exec_arbGrantDeassert : let off := (s.pass dt).updTwin fun t => { t with grant := false }
    exec (.arbGrantDeassert dt) s = .next (if off.isOn .twin = true ∧ off.grantGate = true ∧ off.lockMode = false ∧ off.twin.a.num ≠ 0 ∧
      off.twin.a.stopping = 0 then (off.raise 0 evTwinGrantLost).yieldClaim 0 3 else off) := by
  simp only [exec, execArbGrantDeassert, Bool.and_eq_true, Bool.not_eq_true', bne_iff_ne, beq_iff_eq, and_assoc, ans,
    apply_ite Host.Outcome.next]

theorem exec_arbGrantAssert : let on := (s.pass dt).updTwin fun t => { t with grant := true }
    exec (.arbGrantAssert dt) s = .next (if on.isOn .twin = true ∧ on.twin.pair = 3 ∧ on.twin.a.waitGrant = true then on.autoTake 0 else on) := by
  simp only [exec, execArbGrantAssert, Bool.and_eq_true, beq_iff_eq, and_assoc, ans, apply_ite Host.Outcome.next]

end Lanterns

/-! ### TWIN_CLAIM and TWIN_RELEASE (R344, R346, R348) -/

theorem twinClaimBody_eq (s : State) (c : Cmd) (x : Nat) : let p := c.part
    let n := bits x 0 8
    let k := s.claim p
    let u := s.takeClaim p n
    twinClaimBody s c x =
      if s.isOn .twin = false ∨ s.lockMode = true ∨ n = 0 ∨ bits x 9 55 ≠ 0 ∨ claimHigher n k.num = false ∨
        claimHigher n k.peerClaim = false then .fail s stBadArg
      else if s.grantGate = true ∧ p = 0 ∧ s.twin.grant = false ∨ bit x 8 = false ∧ (k.diverged = true ∨ s.twin.pair = 1) then
        .fail s stNotClaimed
      else if (u.claim p).active = true then .ok u else .wait u .twinClaim := by
  simp only [twinClaimBody, Bool.or_eq_true, Bool.and_eq_true, Bool.not_eq_true', beq_iff_eq, bne_iff_ne, or_assoc, and_assoc]
  refine if_congr Iff.rfl rfl ?_
  split
  · next h => exact (if_pos (.inl h)).symm
  · next h => exact if_congr (or_iff_right h).symm rfl rfl

theorem twinReleaseBody_eq (s : State) (c : Cmd) (x : Nat) : let p := c.part
    let u := s.yieldClaim p 1
    twinReleaseBody s c x = if s.lockMode = true then .fail s stBadArg
      else if (s.claim p).num = 0 then .ok s
      else if (u.claim p).num = 0 then .ok u else .wait u .twinRelease := rfl

/-- Settles O41: a lemma for each row and each command's own execution. -/
theorem twinPairsLanternsAndClaims : Obligations.TwinPairsLanternsAndClaims :=
  ⟨exec_lanternSend, fun s dt _ _ => ⟨exec_lanternReceived_ignored s dt, exec_lanternReceived_acts s dt⟩,
    fun _ => ⟨rfl, rfl, rfl, rfl, rfl, rfl, rfl, rfl, rfl, rfl, rfl⟩, State.lanternFits_iff, exec_pathLost, exec_twinPairReform,
    fun s dt p => ⟨exec_claimWaitEnd s dt p, exec_sideEffectsStopped s dt p⟩, exec_twinLockLevelChange,
    fun _ _ => ⟨exec_lockGainStart_none, fun _ => exec_lockGainStart_some, fun _ _ => rfl⟩,
    fun s dt => ⟨exec_arbGrantDeassert s dt, exec_arbGrantAssert s dt⟩,
    fun a => congrArg Host.Outcome.next (a.run_of (twinClaimBody_eq _ (a.s.cmdOf a.i a.d) _)),
    fun a => congrArg Host.Outcome.next (a.run_of (twinReleaseBody_eq _ (a.s.cmdOf a.i a.d) a.x))⟩

end Sys2Proof.Machine
end

section
/-! PROOF. O42: SYNC, sequence alignment, twin forwarding and the night watch. -/

namespace Sys2Proof.Machine

section Rows

variable (s : State) (dt : Nat)

/-! ### SYNC (R335, R350 to R354) -/

theorem exec_syncSend : let u := s.pass dt
    exec (.syncSend dt) s = .next (if u.isOn .twin = true ∧ u.twin.syncAt + 10 * cycMs ≤ u.cyc ∧ ((u.link 24).st = .up ∨ (u.link 25).st = .up) then
      u.updTwin fun t => { t with syncAt := u.cyc, lastT1 := u.now, lastSync := u.syncBytes } else u) := by
  simp only [exec, execSyncSend, Bool.and_eq_true, Bool.or_eq_true, beq_iff_eq, decide_eq_true_eq, and_assoc, ans,
    apply_ite Host.Outcome.next]

theorem exec_syncReceived (msg : List Byte) : let u := s.pass dt
    let m := syncFields msg
    let a := u.updTwin fun t => { t with echoT1 := m.t1, echoT2 := u.now, peerUarno := m.uarnoVer, peerTimeState := m.timeState }
    let b := if a.twin.pair = 1 ∧ m.echoT1 ≠ 0 then
      (a.twinChange fun s => s.updTwin fun t => { t with pair := 2 }).raise 0 evTwinPairUp else a
    let own := (b.func 0).chosen
    let c := if m.uarnoVer < own ∧ b.twin.versionRaised = false then
      (b.updTwin fun t => { t with versionRaised := true }).raise 0 evTwinVersion own m.uarnoVer else b
    let d := (c.seeRan m.ranMask).seeDigest 0 m.digestA
    let e := if d.partOn = true then d.seeDigest 1 m.digestB else d
    exec (.syncReceived dt msg) s = .next (
      if byteAt msg 0 ≠ 2 ∨ u.isOn .twin = false ∨ ¬ (u.twin.pair = 1 ∨ u.twin.pair = 2) ∨ u.twin.echoT1 = m.t1 then u
      else e.syncTimeActs m u.now) := by
  intro u m a b own c d e
  rw [ite_or, apply_ite Host.Outcome.next, apply_ite Host.Outcome.next]
  refine if_congr Iff.rfl rfl (if_congr ?guard rfl ?acts)
  case guard => simp only [Bool.or_eq_true, Bool.not_eq_true', Bool.or_eq_false_iff, beq_eq_false_iff_ne, beq_iff_eq, not_or, or_assoc,
    ne_eq, u, m]
  case acts => simp only [ans, Bool.not_eq_true', u, m, a, b, own, c, d, e]

theorem exec_divergeTimeout_none {s : State} {dt : Nat} {p : Fin 2} (h : ((s.pass dt).claim p).diffSince = none) :
    exec (.divergeTimeout dt p) s = .next (s.pass dt) := by
  simp only [exec, execDivergeTimeout, h, ans]

theorem exec_divergeTimeout_some {s : State} {dt t : Nat} {p : Fin 2} (h : ((s.pass dt).claim p).diffSince = some t) : let u := s.pass dt
    let c := u.claim p
    exec (.divergeTimeout dt p) s = .next (
      if u.isOn .twin = false ∨ c.diverged = true ∨ u.cyc < t + u.divergeCyc then u
      else (u.updClaim p fun c => { c with diverged := true }).raise p evTwinDiverged 0
        (u.digest p % 2 ^ 160 + c.peerDigest % 2 ^ 160 * 2 ^ 160)) := by
  simp only [exec, execDivergeTimeout, h, Bool.or_eq_true, Bool.not_eq_true', decide_eq_true_eq, or_assoc, ans,
    apply_ite Host.Outcome.next]

/-! ### Sequence samples (R338, R339) -/

/-- The leader's next sample of a port is due. -/
def State.sampleDue (s : State) (p : Nat) : Prop :=
  s.paired = true ∧ s.leads (s.portPart p) = true ∧ s.portExists p = true ∧
    (s.port p).sampleAt + (if bit s.twin.peerAligned p = true then cycMs else 10 * cycUs) ≤ s.cyc

theorem State.not_sampleDue_iff (s : State) (p : Nat) : (!s.paired || !s.leads (s.portPart p) || !s.portExists p
    || decide (s.cyc < (s.port p).sampleAt + if bit s.twin.peerAligned p = true then cycMs else 10 * cycUs)) = true ↔ ¬ s.sampleDue p := by
  simp only [State.sampleDue, Bool.or_eq_true, Bool.not_eq_true', decide_eq_true_eq, not_and_or, Bool.not_eq_true, not_le, or_assoc]

theorem exec_seqSampleSend_notDue {s : State} {dt : Nat} {port : Fin 48} (h : ¬ (s.pass dt).sampleDue port) :
    exec (.seqSampleSend dt port) s = .next (s.pass dt) := if_pos (((s.pass dt).not_sampleDue_iff port).2 h)

theorem exec_seqSampleSend_due {s : State} {dt : Nat} {port : Fin 48} (hd : (s.pass dt).sampleDue port) : let u := s.pass dt
    exec (.seqSampleSend dt port) s = .next (match (u.port port).sample u.cyc with
      | none => u
      | some h => (u.updPort port fun t => { t with sampleAt := u.cyc }).updTwin fun w =>
        { w with lastSample := leBytes 13 (3 + port.val * 2 ^ 8 + h.1 * 2 ^ 16 + h.2.1 * 2 ^ 32 + h.2.2.1 * 2 ^ 64) }) := by
  refine (if_neg (not_not.2 hd ∘ ((s.pass dt).not_sampleDue_iff port).1)).trans ?_
  cases ((s.pass dt).port port).sample (s.pass dt).cyc <;> rfl

theorem exec_seqSampleSend_idle {s : State} {dt : Nat} {port : Fin 48}
    (h : ¬ (s.pass dt).sampleDue port ∨ ((s.pass dt).port port).sample (s.pass dt).cyc = none) :
    exec (.seqSampleSend dt port) s = .next (s.pass dt) := by
  by_cases hd : (s.pass dt).sampleDue port
  · rw [exec_seqSampleSend_due hd, h.resolve_left (not_not.2 hd)]
  · exact exec_seqSampleSend_notDue hd

theorem exec_seqSampleSend_sends {s : State} {dt : Nat} {port : Fin 48} {h : Nat × Nat × Nat × Nat}
    (hd : (s.pass dt).sampleDue port) (hs : ((s.pass dt).port port).sample (s.pass dt).cyc = some h) : let u := s.pass dt
    exec (.seqSampleSend dt port) s = .next ((u.updPort port fun t => { t with sampleAt := u.cyc }).updTwin fun w =>
      { w with lastSample := leBytes 13 (3 + port.val * 2 ^ 8 + h.1 * 2 ^ 16 + h.2.1 * 2 ^ 32 + h.2.2.1 * 2 ^ 64) }) := by
  rw [exec_seqSampleSend_due hd, hs]

theorem exec_seqSampleReceived (x : Byte) (len : BitVec 16) (fcs : BitVec 32) (seq : BitVec 40) : let u := s.pass dt
    let port := x.toNat
    exec (.seqSampleReceived dt x len fcs seq) s = .next (
      if port < 48 ∧ u.paired = true ∧ u.leads (u.portPart port) = false then
        u.updPort port fun t => { t with samples := t.samples ++ [(len.toNat, fcs.toNat, seq.toNat, u.cyc)] } else u) := by
  simp only [exec, execSeqSampleReceived, Bool.not_eq_true', ans, apply_ite Host.Outcome.next]

theorem exec_seqSampleDecide_nil {s : State} {dt : Nat} {port : Fin 48} (h : ((s.pass dt).port port).samples = []) :
    exec (.seqSampleDecide dt port) s = .next (s.pass dt) := by
  simp only [exec, execSeqSampleDecide, h, ans]

theorem exec_seqSampleDecide_cons {s : State} {dt : Nat} {port : Fin 48} {len fcs seq at_ : Nat} {rest : List (Nat × Nat × Nat × Nat)}
    (h : ((s.pass dt).port port).samples = (len, fcs, seq, at_) :: rest) : let u := s.pass dt
    let v := u.updPort port fun t => { t with samples := rest }
    exec (.seqSampleDecide dt port) s = .next (if u.cyc < at_ + 128 * cycUs then u
      else if v.paired = true ∧ v.leads (v.portPart port) = false then v.decideSample port ((v.port port).result len fcs seq at_)
      else v) := by
  simp only [exec, execSeqSampleDecide, h, Bool.and_eq_true, Bool.not_eq_true', ans, apply_ite Host.Outcome.next]

/-! ### Deduplication and the night watch (R337, R357) -/

theorem exec_dedupWindowAge_none {s : State} {dt : Nat} {pairId inPort : Fin 256} {p : Fin 2}
    (h : (s.pass dt).twin.windows.find? (windowKey pairId inPort p) = none) :
    exec (.dedupWindowAge dt pairId inPort p) s = .next (s.pass dt) := by
  simp only [exec, execDedupWindowAge, h, ans]

theorem exec_dedupWindowAge_some {s : State} {dt : Nat} {pairId inPort : Fin 256} {p : Fin 2} {w : Window}
    (h : (s.pass dt).twin.windows.find? (windowKey pairId inPort p) = some w) : let u := s.pass dt
    exec (.dedupWindowAge dt pairId inPort p) s = .next (
      if w.last + u.windowAge ≤ u.cyc then
        { u with twin := { u.twin with windows := u.twin.windows.del (windowKey pairId inPort p) } } else u) := by
  simp only [exec, execDedupWindowAge, h, ans, apply_ite Host.Outcome.next]

theorem exec_nightWatch (p : Fin 2) (pathOk : Bool) : let u := s.pass dt
    let c := u.claim p
    let tests := u.twin.tests.filter fun r => u.portPart r.1 == p.val
    let holder := c.num != 0
    let v := if holder = true then u else u.bump ⟨0x15, 4, 0⟩ p tests.length
    let checks := v.nwChecks p (!holder && !tests.isEmpty && !(pathOk && tests.all u.testPasses))
    let mask := checks.zipIdx.foldl (fun m (b, i) => if b.1 then m + 2 ^ i else m) 0
    let w := checks.zipIdx.foldl (fun s (b, i) => if b.1 && !bit c.failed i then s.raise p evNwFail i b.2 else s) v
    exec (.nightWatch dt p pathOk) s = .next (
      if u.isOn .twin = false ∨ u.twinParts.contains p.val = false ∨ u.chip.thermal.st ≠ 0 ∨ u.cyc < c.nwAt + u.nwCyc then u
      else w.updClaim p fun c =>
        { c with nwAt := w.cyc, ueSeen := w.mem.ueTotal, failed := mask, health := mask + (if mask = 0 then 128 else 0) }) := by
  intro u c tests holder v checks mask w
  refine Eq.trans (if_congr ?_ rfl rfl) (apply_ite Host.Outcome.next _ _ _).symm
  simp only [Bool.or_eq_true, Bool.not_eq_true', bne_iff_ne, decide_eq_true_eq, or_assoc, u, c]

end Rows

/-! ### The commands (R356, R357, R385) -/

theorem twinFwdBody_eq (s : State) (c : Cmd) (x : Nat) : let m := bits x 0 48
    let own (p : Nat) : Bool := s.portPart p == c.part
    let mask := (List.range 48).foldl (fun z p => if bit (if own p = true then m else s.twin.fwdMask) p = true then z + 2 ^ p else z) 0
    let sum := ((List.range 48).map fun p => if (bit mask p && s.portExists p) = true then s.portRate p else 0).foldl (· + ·) 0
    twinFwdBody s c x =
      if bits x 48 16 ≠ 0 then .fail s stBadArg
      else if ((List.range 48).any fun p => bit m p && !own p) = true then .fail s stProtected
      else if 800000000 < sum then .fail s stOvercommit else .ok (s.updTwin fun t => { t with fwdMask := mask }) := rfl

theorem nwLoadBody_eq (s : State) (c : Cmd) (x : Nat) : nwLoadBody s c x =
    if bits x 5 59 ≠ 0 then .fail s stBadArg
    else match nwRecords (bits x 0 5) (x >>> 64) with
      | none => .fail s stBadArg
      | some l => if (l.any fun r => s.portPart r.1 != c.part) = true then .fail s stProtected
        else .ok (s.updTwin fun t => { t with tests := (t.tests.filter fun r => s.portPart r.1 != c.part) ++ l }) := rfl

/-- Settles O42: a lemma for each row and each command's own execution. -/
theorem twinSyncSequenceAndNightWatch : Obligations.TwinSyncSequenceAndNightWatch :=
  ⟨exec_syncSend, exec_syncReceived, fun _ => ⟨rfl, rfl, rfl, rfl, rfl, rfl, rfl, rfl⟩,
    fun _ _ _ => ⟨exec_divergeTimeout_none, fun _ => exec_divergeTimeout_some⟩,
    fun _ _ _ => ⟨exec_seqSampleSend_idle, fun _ => exec_seqSampleSend_sends⟩, exec_seqSampleReceived,
    fun _ _ _ => ⟨exec_seqSampleDecide_nil, fun _ _ _ _ _ => exec_seqSampleDecide_cons⟩,
    fun a => congrArg Host.Outcome.next (a.run_of (twinFwdBody_eq _ (a.s.cmdOf a.i a.d) _)),
    fun a => congrArg Host.Outcome.next a.run_does,
    fun a => congrArg Host.Outcome.next (a.run_of (nwLoadBody_eq _ (a.s.cmdOf a.i a.d) _)), exec_nightWatch,
    fun _ _ _ _ _ => ⟨exec_dedupWindowAge_none, fun _ => exec_dedupWindowAge_some⟩⟩

end Sys2Proof.Machine
end

section
/-! PROOF. O43: the link, the functions' PCIe state and bad accesses. -/

namespace Sys2Proof.Machine

/-! ### The link (R361, R434, R460) -/

section Link

variable {s : State} {dt speed width : Nat}

/-- What the host interface held is written once the link is up; that changes none of the vitals. -/
theorem vitals_of_pcieLinkTrained (hp : s.chip.porst = true) (hr : s.chip.sysrst = true) (ht : s.chip.thermal.st ≠ 2)
    (hs : speed = 1 ∨ speed = 2 ∨ speed = 3) (hw : width = 4 ∨ width = 8 ∨ width = 16) :
    ∃ t, exec (.pcieLinkTrained dt speed width) s = .next t ∧
      t.vitals = { (s.pass dt).vitals with linkUp := true, speed := speed, width := width } := by
  refine ⟨_, if_pos ⟨?_, hs, hw⟩, ?_⟩
  · refine (foldl_vitals _ (fun t fn => foldl_vitals _ (fun t n => (State.settle_vitals ..).trans (State.drainComps_vitals ..)) _ _) _ _).trans ?_
    exact foldl_vitals _ (fun t fn => foldl_vitals _ (fun t n => State.drainEvts_vitals ..) _ _) _ _
  · simp [hp, hr, ht]

theorem exec_pcieLinkTrained_unsupported
    (h : ¬ (speed = 1 ∨ speed = 2 ∨ speed = 3) ∨ ¬ (width = 4 ∨ width = 8 ∨ width = 16)) :
    exec (.pcieLinkTrained dt speed width) s = .next (s.pass dt) := if_neg fun ⟨_, hs, hw⟩ => h.elim (· hs) (· hw)

end Link

/-! ### Bus Master Enable (R364, R392) -/

/-- No entry of the ring waits to be written, and no descriptor stands in it. -/
structure Ring.Quiet (g : Ring) : Prop where
  held : g.held = []
  heldEvts : g.heldEvts = []
  discard : g.discard = none
  fetched : g.fetched = []

theorem State.drainEvts_quiet {s : State} {fn r : Nat} (h : (s.ring fn r).Quiet) (n : Nat) : s.drainEvts fn r n = s := by
  have h1 : s.drainEvt1 fn r = s := by
    unfold State.drainEvt1
    simp only [h.heldEvts, h.discard, ite_self]
  induction n with
  | zero => rfl
  | succ n ih => rw [State.drainEvts, h1, ih]

theorem State.drainComps_settle_quiet {s : State} {fn n : Nat} (h : ∀ r, (s.ring fn r).Quiet) :
    (s.drainComps fn n (s.ring fn (compRing n)).held.length).settle fn n = s := by
  rw [(h _).held, List.length_nil, State.drainComps, State.settle, (h n).fetched]
  rfl

/-- Nothing is written of a function whose rings hold nothing. -/
theorem State.drainAll_quiet {s : State} {fn k : Nat} {l m : List Nat} (h : ∀ r, (s.ring fn r).Quiet) :
    m.foldl (fun s n => (s.drainComps fn n (s.ring fn (compRing n)).held.length).settle fn n)
      (l.foldl (fun s n => s.drainEvts fn (evtRing n) k) s) = s := by
  rw [List.foldl_fixed' (a := s) (f := fun s n => s.drainEvts fn (evtRing n) k) fun n => State.drainEvts_quiet (h _) k]
  exact List.foldl_fixed' (fun n => State.drainComps_settle_quiet h) _

theorem exec_busMasterEnable_quiet {s : State} {dt : Nat} {fn : Fin 2} (h : ∀ r, (s.ring fn r).Quiet) :
    exec (.busMasterEnable dt fn) s = .next ((s.pass dt).updFunc fn fun p => { p with busMaster := true }) := by
  have hr (r : Nat) : (((s.pass dt).updFunc fn fun p => { p with busMaster := true }).ring fn r).Quiet := by
    have e : ((s.pass dt).updFunc fn fun p => { p with busMaster := true }).ring fn r = s.ring fn r := by
      simp [State.ring]
    exact e ▸ h r
  exact congrArg Host.Outcome.next (State.drainAll_quiet hr)

/-! ### Configuration space and MSI-X (R362, R454, R461) -/

theorem exec_configurationRequest (s : State) (dt : Nat) (fn : Fin 2) : let u := s.pass dt
    let sub : Nat := if s.host.subsysTaken = true then s.host.subsys else u.reg 0x03C00010
    exec (.configurationRequest dt fn) s = .next { u with host := { s.host with
      subsysTaken := true, subsys := sub
      cfgOut :=
        { vendor := 0x1F3A, device := if fn.val = 0 then 0x4880 else 0x4881
          revision := if s.chip.stepping = 0 then 0x00 else 0x10, classCode := 0x028000
          subsysVendor := bits sub 0 16, subsysId := (bits sub 16 16 + fn.val) % 0x10000, multiFunction := true } } } := by
  intro u sub
  have ht : u.takeSubsys = { u with host := { u.host with subsysTaken := true, subsys := sub } } := by
    by_cases h : s.host.subsysTaken = true
    · have hs : sub = u.host.subsys := if_pos h
      have h' : u.host.subsysTaken = true := h
      exact (if_pos h).trans (by rw [hs, ← h'])
    · have hs : sub = u.reg 0x03C00010 := if_neg h
      exact (if_neg h).trans (by rw [hs])
  simp only [exec, execConfigurationRequest]
  change ans { u.takeSubsys with host := { u.takeSubsys.host with cfgOut := u.takeSubsys.identity fn } } = _
  rw [ht]
  rfl

/-- Unmasking a vector sends its pending message. -/
theorem exec_msixTableWrite_unmask {s : State} {dt : Nat} {fn : Fin 2} {off : Fin 4096} {value : Word32} (hoff : off.val % 16 = 12)
    (hv : value.getLsbD 0 = false) (hp : ((s.func fn).msix.get {} (off.val / 16)).pending = true) (hu : s.hostUp = true)
    (hw : s.canWrite fn = true) : ∃ t, exec (.msixTableWrite dt fn off value) s = .next t ∧
      (t.func fn).msix.get {} (off.val / 16) =
        { (s.func fn).msix.get {} (off.val / 16) with
          masked := false, pending := false, sent := ((s.func fn).msix.get {} (off.val / 16)).sent + 1 } ∧
      (∀ v, v ≠ off.val / 16 → (t.func fn).msix.get {} v = (s.func fn).msix.get {} v) ∧ t.vitals = s.vitals := by
  let w := (s.pass dt).updFunc fn fun p => { p with msix := p.msix.upd {} (off.val / 16) fun m => { m with masked := false } }
  have hget : (w.func fn).msix.get {} (off.val / 16) = { (s.func fn).msix.get {} (off.val / 16) with masked := false } := by
    simp [w]
  have hwrite : w.canWrite fn = true := by
    have e : (w.func fn).busMaster = (s.func fn).busMaster := by simp [w]
    unfold State.canWrite at hw ⊢
    rw [e]
    exact hw
  refine ⟨w.updFunc fn fun p => { p with msix := p.msix.upd {} (off.val / 16) fun m => { m with pending := false, sent := m.sent + 1 } },
    ?_, ?_, fun v hne => ?_, ?_⟩
  · refine (if_neg (by simp only [not_or, Bool.not_eq_true', Bool.not_eq_false]; exact ⟨by omega, hu⟩)).trans ?_
    simp only [hoff, hv, OfNat.ofNat_ne_zero, Nat.reduceEqDiff, if_false]
    refine if_pos ?_
    change (((w.func fn).msix.get {} (off.val / 16)).pending && !((w.func fn).msix.get {} (off.val / 16)).masked && w.canWrite fn) = true
    rw [hget, hwrite]
    simpa using hp
  · rw [State.func_updFunc, NMap.get_upd_self, hget]
  · simp [w, NMap.get_upd_ne _ _ _ _ hne]
  · simp [w, State.updFunc_vitals, State.pass_vitals]

/-! ### Version negotiation and bad accesses (R6, R365, R370) -/

theorem exec_versionOffer {s : State} {dt : Nat} {fn : Fin 2} (value : Word32) (hu : s.hostUp = true) (hi : (s.func fn).idle = true) :
    exec (.versionOffer dt fn value) s = .next ((s.pass dt).updFunc fn fun p =>
      { p with offer := value.toNat % 256, chosen := highestVersion s.supported (min (value.toNat % 256) 7) }) :=
  if_pos ((Bool.and_eq_true _ _).mpr ⟨hu, hi⟩)

theorem exec_versionOffer_busy {s : State} {dt : Nat} {fn : Fin 2} (value : Word32) (hi : (s.func fn).idle = false) :
    exec (.versionOffer dt fn value) s = .next (s.pass dt) := if_neg (by simp [hi])

theorem exec_mw2BadWrite {s : State} {dt off size : Nat} {fn : Fin 2} (hu : s.hostUp = true) (hs : s.serves fn = true) :
    exec (.mw2BadWrite dt fn off size) s = .next ((s.pass dt).raise (s.partOf fn) evHifBadAccess off) :=
  if_pos ((Bool.and_eq_true _ _).mpr ⟨hu, hs⟩)

theorem exec_mw0BadAccess {s : State} {dt off size : Nat} {fn : Fin 2} {write : Bool} (hu : s.hostUp = true) :
    exec (.mw0BadAccess dt fn off size write) s = .next (if write then (s.pass dt).raise (s.partOf fn) evHifBadAccess off
      else { s.pass dt with chip := { s.chip with mw0Read := BitVec.allOnes 32 } }.raise (s.partOf fn) evHifBadAccess off) := by
  have hup : (s.pass dt).hostUp = true := hu
  refine (if_neg (by simp [hup])).trans ?_
  cases write <;> rfl

/-- Settles O43: a lemma for each row. -/
theorem linkAndFunctionRowsSetTheFunction : Obligations.LinkAndFunctionRowsSetTheFunction :=
  ⟨fun _ _ _ _ hp hr ht hs hw => vitals_of_pcieLinkTrained hp hr ht hs hw, fun _ _ _ _ h => exec_pcieLinkTrained_unsupported h,
    fun _ _ => rfl, fun _ _ _ h => exec_busMasterEnable_quiet fun r => have ⟨hc, he, hd, hf⟩ := h r; ⟨hc, he, hd, hf⟩, fun _ _ _ => rfl,
    exec_configurationRequest, fun _ _ _ _ _ hoff hv hp hu hw => exec_msixTableWrite_unmask hoff hv hp hu hw,
    fun _ _ _ value hu hi => exec_versionOffer value hu hi, fun _ _ _ value hi => exec_versionOffer_busy value hi,
    fun _ _ _ _ _ hu hs => exec_mw2BadWrite hu hs, fun _ _ _ _ _ _ hu => exec_mw0BadAccess hu⟩

end Sys2Proof.Machine
end

section
/-! PROOF. O44: doorbells. -/

namespace Sys2Proof.Machine

theorem length_take_of_le {α : Type} {l : List α} {n : Nat} (h : n ≤ l.length) : ¬ (l.take n).length < n := by
  rw [List.length_take_of_le h]
  exact Nat.lt_irrefl n

section Doorbells

variable {s : State} {dt : Nat} {fn : Fin 2} {value : BitVec 64}

/-- A ring whose doorbell counts: the page is live and the ring is not DISABLED. -/
theorem doorbell_open {r : Nat} (hl : s.doorbellLive fn = true) (hd : (s.ring fn r).st ≠ .disabled) :
    ¬ (!(s.pass dt).doorbellLive fn || ((s.pass dt).ring fn r).st == .disabled) = true := by
  have hl' : (s.pass dt).doorbellLive fn = true := hl
  simp [hl', hd]

/-- A producer index that the ring takes. -/
theorem producer_taken {g : Ring} (hv : value.toNat < 2 ^ 32) (ho : g.producerOk value.toNat = true) :
    ¬ (2 ^ 32 ≤ value.toNat ∨ (!g.producerOk value.toNat) = true) := by
  simp only [ho, Bool.not_true, Bool.false_eq_true, or_false]
  omega

theorem consumer_taken {g : Ring} (hv : value.toNat < 2 ^ 32) (ho : g.consumerOk value.toNat = true) :
    ¬ (2 ^ 32 ≤ value.toNat ∨ (!g.consumerOk value.toNat) = true) := by
  simp only [ho, Bool.not_true, Bool.false_eq_true, or_false]
  omega

/-! ### Command rings (R372, R373) -/

theorem commandDoorbell_open {ring : Fin 64} (hl : s.doorbellLive fn = true)
    (hst : (s.ring fn ring).st = .running ∨ (s.ring fn ring).st = .fenced) :
    ¬ (!(s.pass dt).doorbellLive fn || ((s.pass dt).ring fn ring).st == .disabled || ((s.pass dt).ring fn ring).st == .stopping) = true := by
  have hl' : (s.pass dt).doorbellLive fn = true := hl
  rcases hst with h | h <;> simp [hl', h]

theorem exec_commandDoorbell {ring : Fin 64} {entries : List (BitVec 512)} (hl : s.doorbellLive fn = true)
    (hst : (s.ring fn ring).st = .running ∨ (s.ring fn ring).st = .fenced) (hv : value.toNat < 2 ^ 32)
    (ho : (s.ring fn ring).producerOk value.toNat = true) (hf : (s.ring fn ring).fetchStop = false)
    (hn : (s.ring fn ring).newly value.toNat ≤ entries.length) : let g := s.ring fn ring
    exec (.commandDoorbell dt fn ring value entries) s = .next
      ((((s.pass dt).updRing fn ring fun g => { g with hostIndex := value.toNat }).updRing fn ring fun h =>
        { h with fetched := h.fetched ++ (takeDescs g.partialDesc (entries.take (g.newly value.toNat))).1
                 partialDesc := (takeDescs g.partialDesc (entries.take (g.newly value.toNat))).2 }).settle fn ring) := by
  refine (if_neg (commandDoorbell_open hl hst)).trans ((if_neg (producer_taken hv ho)).trans ((if_neg ?_).trans ?_))
  · rw [State.ring_pass, hf]
    exact Bool.false_ne_true
  · exact congrArg (fun u => Host.Outcome.next (State.settle u fn ring)) (if_neg (length_take_of_le hn))

theorem exec_commandDoorbell_bad {ring : Fin 64} {entries : List (BitVec 512)} (hl : s.doorbellLive fn = true)
    (hst : (s.ring fn ring).st = .running ∨ (s.ring fn ring).st = .fenced)
    (hv : 2 ^ 32 ≤ value.toNat ∨ (s.ring fn ring).producerOk value.toNat = false) :
    exec (.commandDoorbell dt fn ring value entries) s = .next
      (((s.pass dt).updRing fn ring fun g => { g with err := 3 }).raise (s.partOf fn) evRingDoorbellBad ring value.toNat) := by
  refine (if_neg (commandDoorbell_open hl hst)).trans ((if_pos (hv.imp_right ?_)).trans (congrArg _ (if_pos ?_)))
  · exact fun h => (Bool.not_eq_true' _).mpr h
  · rcases hst with h | h <;> simp [h]

theorem exec_commandDoorbell_closed {ring : Fin 64} {entries : List (BitVec 512)}
    (hst : (s.ring fn ring).st = .disabled ∨ (s.ring fn ring).st = .stopping) :
    exec (.commandDoorbell dt fn ring value entries) s = .next (s.pass dt) := by
  refine if_pos ?_
  rcases hst with h | h <;> simp [h]

/-! ### Completion and event rings (R379, R388) -/

theorem exec_completionDoorbell {ring : Fin 64} (hl : s.doorbellLive fn = true) (hd : (s.ring fn (compRing ring)).st ≠ .disabled)
    (hv : value.toNat < 2 ^ 32) (ho : (s.ring fn (compRing ring)).consumerOk value.toNat = true) : let g := s.ring fn (compRing ring)
    exec (.completionDoorbell dt fn ring value) s = .next
      ((((s.pass dt).updRing fn (compRing ring) fun h =>
        { h with hostIndex := value.toNat, comps := h.comps.drop (h.newly value.toNat) }).drainComps fn ring g.held.length).settle
          fn ring) :=
  (if_neg (doorbell_open hl hd)).trans (if_neg (consumer_taken hv ho))

theorem exec_eventDoorbell {ring : Fin 16} (hl : s.doorbellLive fn = true) (hd : (s.ring fn (evtRing ring)).st ≠ .disabled)
    (hv : value.toNat < 2 ^ 32) (ho : (s.ring fn (evtRing ring)).consumerOk value.toNat = true) :
    exec (.eventDoorbell dt fn ring value) s = .next
      (((s.pass dt).updRing fn (evtRing ring) fun h =>
        { h with hostIndex := value.toNat, evts := h.evts.drop (h.newly value.toNat) }).drainEvts fn (evtRing ring) 257) :=
  (if_neg (doorbell_open hl hd)).trans (if_neg (consumer_taken hv ho))

/-! ### Punt and inject rings (R390, R391) -/

theorem exec_puntDoorbell {ring : Fin 32} {entries : List (BitVec 128)} (hl : s.doorbellLive fn = true)
    (hd : (s.ring fn (144 + ring.val)).st ≠ .disabled) (hv : value.toNat < 2 ^ 32)
    (ho : (s.ring fn (144 + ring.val)).producerOk value.toNat = true) (hf : (s.ring fn (144 + ring.val)).fetchStop = false)
    (hn : (s.ring fn (144 + ring.val)).newly value.toNat ≤ entries.length) : let g := s.ring fn (144 + ring.val)
    exec (.puntDoorbell dt fn ring value entries) s = .next
      (((s.pass dt).updRing fn (144 + ring.val) fun h => { h with hostIndex := value.toNat }).updRing fn (144 + ring.val) fun h =>
        { h with posted := h.posted ++ (entries.take (g.newly value.toNat)).map (·.truncate 64) }) := by
  refine (if_neg (doorbell_open hl hd)).trans ((if_neg (producer_taken hv ho)).trans ((if_neg ?_).trans (congrArg _ (if_neg (length_take_of_le hn)))))
  rw [State.ring_pass, hf]
  exact Bool.false_ne_true

theorem exec_injectDoorbell {ring : Fin 32} {entries : List (BitVec 256)} (hl : s.doorbellLive fn = true)
    (hd : (s.ring fn (176 + ring.val)).st ≠ .disabled) (hv : value.toNat < 2 ^ 32)
    (ho : (s.ring fn (176 + ring.val)).producerOk value.toNat = true) (hf : (s.ring fn (176 + ring.val)).fetchStop = false)
    (hn : (s.ring fn (176 + ring.val)).newly value.toNat ≤ entries.length) : let g := s.ring fn (176 + ring.val)
    exec (.injectDoorbell dt fn ring value entries) s = .next
      (((s.pass dt).updRing fn (176 + ring.val) fun h => { h with hostIndex := value.toNat }).updRing fn (176 + ring.val) fun h =>
        { h with injects := h.injects ++ entries.take (g.newly value.toNat) }) := by
  refine (if_neg (doorbell_open hl hd)).trans ((if_neg (producer_taken hv ho)).trans ((if_neg ?_).trans (congrArg _ (if_neg (length_take_of_le hn)))))
  rw [State.ring_pass, hf]
  exact Bool.false_ne_true

end Doorbells

/-- Settles O44: a lemma for each of the five rings, and for a command ring's bad and ignored doorbells. -/
theorem doorbellsMoveTheHostIndex : Obligations.DoorbellsMoveTheHostIndex :=
  ⟨fun _ _ _ _ _ _ hl hst hv ho hf hn => exec_commandDoorbell hl hst hv ho hf hn, fun _ _ _ _ _ _ hl hst hv => exec_commandDoorbell_bad hl hst hv,
    fun _ _ _ _ _ _ hst => exec_commandDoorbell_closed hst, fun _ _ _ _ _ hl hd hv ho => exec_completionDoorbell hl hd hv ho,
    fun _ _ _ _ _ hl hd hv ho => exec_eventDoorbell hl hd hv ho, fun _ _ _ _ _ _ hl hd hv ho hf hn => exec_puntDoorbell hl hd hv ho hf hn,
    fun _ _ _ _ _ _ hl hd hv ho hf hn => exec_injectDoorbell hl hd hv ho hf hn⟩

end Sys2Proof.Machine
end

section
/-! PROOF. O45: enabling and disabling rings, moderation and progress reports. -/

namespace Sys2Proof.Machine

/-! ### A write of CTRL (R368) -/

section Control

variable {s : State} {dt : Nat} {fn : Fin 2} {r : Fin 208} {value : Word32}

theorem exec_ringCtrl_down (hu : s.hostUp = false) :
    exec (.ringEnable dt fn r value) s = .next (s.pass dt) ∧ exec (.ringDisable dt fn r value) s = .next (s.pass dt) :=
  have hup : (s.pass dt).hostUp = false := hu
  ⟨congrArg Host.Outcome.next (State.mw0_down hup ..), congrArg Host.Outcome.next (State.mw0_down hup ..)⟩

theorem exec_ringCtrl_unserved (hu : s.hostUp = true) (hs : s.serves fn = false) :
    let t := (s.pass dt).raise (s.partOf fn) evHifBadAccess (0x1008 + 0x20 * r)
    exec (.ringEnable dt fn r value) s = .next t ∧ exec (.ringDisable dt fn r value) s = .next t :=
  have hup : (s.pass dt).hostUp = true := hu
  have hse : (s.pass dt).serves fn = false := hs
  ⟨congrArg Host.Outcome.next (State.mw0_unserved hup hse ..), congrArg Host.Outcome.next (State.mw0_unserved hup hse ..)⟩

@[simp] theorem Ring.shape_control_st (g : Ring) (v : Nat) : ((g.shape v).control v).st = g.st := by
  unfold Ring.shape Ring.control
  split <;> rfl

theorem Ring.shape_control_of_disabled {g : Ring} (h : g.st = .disabled) (v : Nat) :
    ((g.shape v).control v).log2 = bits v 4 5 ∧ ((g.shape v).control v).bufCode = bits v 12 3 := by
  simp [Ring.shape, Ring.control, h]

theorem Ring.shape_control_of_enabled {g : Ring} (h : g.st ≠ .disabled) (v : Nat) :
    ((g.shape v).control v).log2 = g.log2 ∧ ((g.shape v).control v).bufCode = g.bufCode := by
  simp [Ring.shape, Ring.control, h]

/-- The checks of an enable, on the state that the write of CTRL leaves (R367, R369). -/
theorem State.enableErr_control (s : State) (fn r v : Nat) (hd : (s.ring fn r).st = .disabled) :
    (s.updRing fn r fun g => (g.shape v).control v).enableErr fn r =
      if bits v 4 5 < 6 ∨ 16 < bits v 4 5 then 1 else if (s.func fn).chosen = 0 then 2
      else if s.partOn && ringBeyond r then 6 else if r < 64 ∧ (s.ring fn (64 + r)).st ≠ .running then 7 else 0 := by
  have hc : ((s.updRing fn r fun g => (g.shape v).control v).func fn).chosen = (s.func fn).chosen := by
    simp [State.updRing]
  have hp : (s.updRing fn r fun g => (g.shape v).control v).ring fn (compRing r) = s.ring fn (64 + r) :=
    State.ring_updRing_ne _ _ (by simp [compRing])
  unfold State.enableErr
  simp only [State.ring_updRing, (Ring.shape_control_of_disabled hd v).1, hc, hp]
  rfl

theorem exec_ringEnable : let u := s.pass dt
    let w := u.updRing fn r fun g => (g.shape value.toNat).control value.toNat
    let e := if bits value.toNat 4 5 < 6 ∨ 16 < bits value.toNat 4 5 then 1 else if (u.func fn).chosen = 0 then 2
      else if u.partOn && ringBeyond r then 6 else if r.val < 64 ∧ (u.ring fn (64 + r)).st ≠ .running then 7 else 0
    let on := w.updRing fn r Ring.enabled
    u.hostUp = true → u.serves fn = true → exec (.ringEnable dt fn r value) s = .next (
      if value.getLsbD 0 = false ∨ (u.ring fn r).st ≠ .disabled then w
      else if e ≠ 0 then w.updRing fn r fun g => { g with err := e }
      else if 128 ≤ r.val ∧ r.val < 144 then on.drainEvts fn r 257 else on) := by
  intro u w e on hup hse
  refine congrArg Host.Outcome.next ((State.mw0_served hup hse _ _).trans ?_)
  refine ite_congr (propext ?_) (fun _ => rfl) fun h => ?_
  · simp only [Bool.or_eq_true, Bool.not_eq_true', bne_iff_ne, ne_eq]
    rfl
  · have he : w.enableErr fn r = e := State.enableErr_control u fn r _ (not_not.mp fun hd => h (.inr hd))
    exact ite_congr (by rw [he]) (fun _ => by rw [he]) fun _ => rfl

theorem exec_ringDisable : let u := s.pass dt
    let w := u.updRing fn r fun g => (g.shape value.toNat).control value.toNat
    u.hostUp = true → u.serves fn = true → exec (.ringDisable dt fn r value) s = .next (
      if value.getLsbD 0 = true ∨ (u.ring fn r).st = .disabled then w
      else if r.val < 64 then w.ringAbort fn r
      else if r.val < 128 ∧ (u.ring fn (r.val - 64)).st ≠ .disabled then w
      else w.updRing fn r fun g => { g with st := .disabled, unsignalled := none }) := by
  intro u w hup hse
  have hst : (w.ring fn r).st = (u.ring fn r).st := by simp [w]
  refine congrArg Host.Outcome.next ((State.mw0_served hup hse _ _).trans ?_)
  refine ite_congr (propext ?_) (fun _ => rfl) fun _ => ite_congr rfl (fun _ => rfl) fun hr => ite_congr ?_ (fun _ => rfl) fun _ => rfl
  · simp only [Bool.or_eq_true, beq_iff_eq]
    rw [hst]
    rfl
  · rw [show w.ring fn (r.val - 64) = u.ring fn (r.val - 64) from State.ring_updRing_ne _ _ (by omega)]

end Control

/-! ### Stopping a command ring (R410) -/

section Stop

variable {s : State} {fn n : Nat}

theorem State.ringAbort_idle (hr : (s.ring fn n).st ≠ .running) (hf : (s.ring fn n).st ≠ .fenced) : s.ringAbort fn n = s :=
  if_neg (by simp [hr, hf])

theorem State.ringAbort_active (h : (s.ring fn n).st = .running ∨ (s.ring fn n).st = .fenced) :
    let stop := (s.updRing fn n fun g => { g with st := .stopping, abortCount := 0 }).abortHead fn n
    s.ringAbort fn n = if (stop.ring fn n).running = none ∧ stop.chip.d2dDown = false then stop.flushDescs fn n else stop :=
  (if_pos (by simpa using h)).trans (if_congr (by simp) rfl rfl)

theorem State.abortHead_of_idle (h : s.runningOn fn n = none) : s.abortHead fn n = s := by
  unfold State.abortHead
  rw [h]

theorem exec_commandRingStopped {dt : Nat} {fn : Fin 2} {ring : Fin 64} : let u := s.pass dt
    let w := u.flushDescs fn ring
    exec (.commandRingStopped dt fn ring) s = .next (
      if (u.ring fn ring).st ≠ .stopping ∨ (u.ring fn ring).running ≠ none ∨ u.chip.d2dDown = true then u
      else if (w.ring fn (64 + ring)).held = [] then w.updRing fn ring fun g => { g with st := .disabled } else w) := by
  intro u w
  refine congrArg Host.Outcome.next ?_
  refine Eq.trans (ite_not _ _ _).symm (ite_congr (propext ?_) (fun _ => rfl) fun _ => if_congr List.isEmpty_iff rfl rfl)
  simp only [Bool.and_eq_true, beq_iff_eq, Option.isNone_iff_eq_none, Bool.not_eq_true', not_and_or, Bool.not_eq_false, ne_eq, or_assoc]
  rfl

end Stop

/-! ### Moderation and progress (R371, R378) -/

section Reports

variable {s : State} {dt : Nat} {fn : Fin 2}

theorem exec_interruptModerationExpiry_none {r : Fin 208} (h : (s.ring fn r).unsignalled = none) :
    exec (.interruptModerationExpiry dt fn r) s = .next (s.pass dt) := by
  simp only [exec, execInterruptModerationExpiry, State.ring_pass, h]
  rfl

theorem exec_interruptModerationExpiry_some {r : Fin 208} {t : Nat} (h : (s.ring fn r).unsignalled = some t) : let u := s.pass dt
    exec (.interruptModerationExpiry dt fn r) s = .next (if t + (u.ring fn r).modUs * 800 ≤ u.cyc then
      (u.updRing fn r fun g => { g with unsignalled := none }).sendVector fn (u.ring fn r).vector else u) := by
  intro u
  change execInterruptModerationExpiry dt fn r s = _
  unfold execInterruptModerationExpiry
  dsimp only
  rw [show ((s.pass dt).ring fn r).unsignalled = some t from h]
  exact (apply_ite Host.Outcome.next ..).symm

theorem exec_progressReport_none {ring : Fin 64} (h : (s.ring fn ring).running = none) :
    exec (.progressReport dt fn ring) s = .next (s.pass dt) := by
  simp only [exec, execProgressReport, State.ring_pass, h]
  rfl

theorem exec_progressReport_some {ring : Fin 64} {run : Running} (h : (s.ring fn ring).running = some run) : let u := s.pass dt
    exec (.progressReport dt fn ring) s = .next (if u.reports run.wait = true then
      u.updRing fn ring fun g => { g with progSeq := run.seq, progStatus := 0x0D, progTick := (g.progTick + 1) % 256 } else u) := by
  simp only [exec, execProgressReport, State.ring_pass, h]
  exact (apply_ite Host.Outcome.next ..).symm

/-- The waits that report progress (R378). -/
theorem State.reports_iff (s : State) (w : Wait) :
    s.reports w = true ↔ (w = .modeDone ∧ (s.modes.partWait = true ∨ s.modes.pageDrain = true)) ∨
      (∃ p, w = .gateTurn p) ∨ (∃ p, w = .gateStart p ∧ ∃ c, (s.gate p).pending = some c ∧ c.raising = true) ∨ w = .capacity ∨
      ∃ claim order since stalled, w = .commit claim order (some since) stalled := by
  cases w with
  | modeDone => simp [State.reports]
  | gateStart p => simp [State.reports, Option.any_eq_true]
  | commit claim order since stalled => cases since <;> simp [State.reports]
  | _ => simp [State.reports]

end Reports

/-- Settles O45: a lemma for each row; flushing is read off the definition. -/
theorem ringControlStartsAndStopsRings : Obligations.RingControlStartsAndStopsRings := by
  refine ⟨?_, ?_, ?_, ?_, ?_, ?_, ?_, ?_, ?_, State.reports_iff⟩
  · exact fun s _ _ _ _ => ⟨exec_ringCtrl_down (s := s), exec_ringCtrl_unserved (s := s)⟩
  · exact fun _ _ _ _ _ => exec_ringEnable
  · exact fun g v => ⟨rfl, rfl, rfl, g.shape_control_st v, fun h => Ring.shape_control_of_disabled h v,
      fun h => Ring.shape_control_of_enabled h v, rfl, rfl, rfl, rfl, rfl, rfl, rfl, rfl, rfl⟩
  · exact fun _ _ _ _ _ => exec_ringDisable
  · exact fun _ _ _ => ⟨State.ringAbort_idle, State.ringAbort_active, State.abortHead_of_idle⟩
  · exact fun _ _ _ => rfl
  · exact fun _ _ _ _ => exec_commandRingStopped
  · exact fun s _ _ _ => ⟨exec_interruptModerationExpiry_none (s := s), fun _ => exec_interruptModerationExpiry_some (s := s)⟩
  · exact fun s _ _ _ => ⟨exec_progressReport_none (s := s), fun _ => exec_progressReport_some (s := s)⟩

end Sys2Proof.Machine
end

section
/-! PROOF. O47: aborts, function resets and the burning of the KEK. -/

namespace Sys2Proof.Machine

/-- A state outside the canonical form of tables: PF0's ring map lists event ring 0 twice, first with a held record and then with
none. A reading finds the first entry; the reset of the function copies the entries in order, so the second one prevails. -/
def ringListedTwice : State := { host := { fns := [(0, { rings := [(128, { heldEvts := [{}] }), (128, {})] })] } }

theorem ringListedTwice_disabled (n : Nat) : (ringListedTwice.ring 0 n).st = .disabled := by
  by_cases h : 128 = n <;> simp [ringListedTwice, State.ring, State.func, NMap.get, NMap.find?, h]

theorem ringListedTwice_abortRings : ringListedTwice.abortRings 0 0 = ringListedTwice := by
  have hidle (n : Nat) : ringListedTwice.ringAbort 0 n = ringListedTwice :=
    State.ringAbort_idle (by simp [ringListedTwice_disabled n]) (by simp [ringListedTwice_disabled n])
  exact List.foldl_fixed' hidle _

/-- The reset takes the held record away. -/
theorem ringListedTwice_resetFunc : ((ringListedTwice.resetFunc 0).ring 0 128).heldEvts = [] := by
  unfold State.resetFunc
  rw [ringListedTwice_abortRings]
  rfl

/-- Refutes O47: its clause on the reset of a function says of every state that the held records stay where they are read, and
that fails where the ring map lists a ring twice. -/
theorem not_abortsResetsAndFuseBurnEndWhatTheyName : ¬ Obligations.AbortsResetsAndFuseBurnEndWhatTheyName := by
  intro ⟨_, _, _, _, _, _, _, _, _, hreset, _⟩
  obtain ⟨t, hexec, _, _, _, hrings⟩ := hreset ringListedTwice 0 0
  have hpass : ringListedTwice.pass 0 = ringListedTwice := rfl
  have ht : ringListedTwice.resetFunc 0 = t := by
    injection hexec
  obtain ⟨_, hheld⟩ := hrings 128
  have hkept := (congrArg (fun u => (u.ring 0 128).heldEvts) ht).trans hheld
  rw [hpass, Fin.val_zero, ringListedTwice_abortRings, ringListedTwice_resetFunc] at hkept
  cases hkept

end Sys2Proof.Machine
end

section
/-! PROOF. O37: reading, writing and flushing counters, samples and the flow cache. -/

namespace Sys2Proof.Machine

/-! ### Counter commands (R419 to R421) -/

theorem counterReadBody_eq (s : State) (c : Cmd) (x : Nat) : let st := s.ctrCheck c.part x .read
    let u := s.ctrSync x
    counterReadBody s c x = if st ≠ stOk then .fail s st else .okResp u 0 (u.ctrValues c.part x) := rfl

theorem counterReadClearBody_eq (s : State) (c : Cmd) (x : Nat) : let st := s.ctrCheck c.part x .clear
    let u := s.ctrSync x
    let v := if ceSet x = 0x41 then u.flowClear (ceInst x)
      else (List.range (ceNum x)).foldl (fun s i => s.ctrSet (ceSet x) (ceInst x) (ceItem x + i) 0) u
    counterReadClearBody s c x = if st ≠ stOk then .fail s st else .okResp v 0 (u.ctrValues c.part x) := rfl

theorem counterWriteBody_eq (s : State) (c : Cmd) (x : Nat) : let st := s.ctrCheck c.part x .write
    counterWriteBody s c x = if ctr32 (ceSet x) (ceInst x) = true ∧ 0xFFFFFFFF < bits x 64 64 then .fail s stBadArg
      else if st ≠ stOk then .fail s st else .ok ((s.ctrSync x).ctrSet (ceSet x) (ceInst x) (ceItem x) (bits x 64 64)) := rfl

theorem counterSetCfgBody_eq (s : State) (c : Cmd) (x : Nat) : let u := s.settleSet (bits x 0 8) c.part
    counterSetCfgBody s c x = if bits x 9 55 ≠ 0 ∨ ctrModeSet (bits x 0 8) = false then .fail s stBadArg
      else .ok { u with tele := { u.tele with saturate := u.tele.saturate.put false (bits x 0 8 * 2 + c.part) (bit x 8) } } :=
  if_congr (by rw [Bool.not_eq_true']) rfl rfl

theorem State.settleSet_eq (s : State) (set part : Nat) : s.settleSet set part = s.tele.ctrs.foldl (fun v e =>
    let inst := e.1 / 256 % 0x10000000
    if e.1 / (0x10000000 * 256) = set ∧ v.ctrPart set inst = part ∧ unbacked set inst (e.1 % 256) = false
      then v.flushCtr set inst (e.1 % 256) else v) s := by
  simp only [State.settleSet, Bool.not_eq_true']

theorem perfCfgBody_eq (s : State) (c : Cmd) (x : Nat) : let tile := bit x 0
    let unit := bits x 8 4
    let ctr := bits x 12 3
    let period := bits x 32 48
    let u := if tile = true then s else s.syncSlots unit
    perfCfgBody s c x = if perfCfgOk x = false then .fail s stBadArg
      else if s.partOn = true ∧ (if tile = true then s.halfPart 8 unit else s.halfPart 4 ctr) ≠ c.part then .fail s stProtected
      else .ok (u.updPerf (perfKey tile unit ctr) fun _ =>
        { value := if bit x 25 = true then 2 ^ 48 - period else 0, event := bits x 16 8, enable := bit x 24
          sampleEn := bit x 25, period := if bit x 25 = true then period else 0, loadedAt := u.tmcNow }) := by
  simp only [perfCfgBody, State.perfPart, Bool.not_eq_true', Bool.and_eq_true, bne_iff_ne]

theorem perfCfgOk_iff (x : Nat) : perfCfgOk x = true ↔ bits x 1 7 = 0 ∧ bit x 15 = false ∧ bits x 26 6 = 0 ∧ bits x 80 48 = 0 ∧
    (bit x 0 = true → bits x 12 3 < 4 ∧ (bits x 16 8 = 0 ∨ 0x40 ≤ bits x 16 8 ∧ bits x 16 8 ≤ 0x46) ∧ bit x 25 = false) ∧
    (bit x 0 = false → bits x 8 4 < 8 ∧ bits x 16 8 ≤ 0x0C) ∧
    (bit x 25 = true → 4096 ≤ bits x 32 48 ∧ bits x 32 48 ≤ 2 ^ 47) := by
  unfold perfCfgOk tileEventCode sliceEvent
  cases bit x 0 <;> cases bit x 25 <;> simp [and_assoc]

/-! ### Backing words (R418, R422) -/

theorem unbacked_iff (set inst item : Nat) : unbacked set inst item = true ↔
    ctr32 set inst = true ∨ set = 0x31 ∨ set = 0x40 ∨ set = 0x41 ∨ set = 0x30 ∧ 5 ≤ item := by
  simp only [unbacked, Bool.or_eq_true, beq_iff_eq, Bool.and_eq_true, decide_eq_true_eq, or_assoc]

theorem State.readCopy_cases (s : State) (u0 u1 ix : Nat) : s.readCopy u0 u1 ix = 0 ∨ s.readCopy u0 u1 ix = 1 := by
  unfold State.readCopy
  split
  · exact .inr rfl
  · split
    · exact .inl rfl
    · exact Nat.mod_two_eq_zero_or_one ix

/-- How a copy of a structure reads: a poisoned one is uncorrectable. -/
def State.copyOutcome (s : State) (structure_ ix out : Nat) : Nat := if s.recPoisoned structure_ ix then 2 else out

theorem State.copyOutcome_eq_two {s : State} {structure_ ix out : Nat} (h : s.copyOutcome structure_ ix out = 2) :
    out = 2 ∨ s.recPoisoned structure_ ix = true := by
  unfold State.copyOutcome at h
  split at h
  · exact .inr ‹_›
  · exact .inl h

theorem of_ite_snd {p : Prop} [Decidable p] {x : State × Bool} {t : State} (h : (if p then x else (t, false)).2 = true) :
    p ∧ x.2 = true := by
  split at h
  · exact ⟨‹p›, h⟩
  · cases h

/-- A read of a structure that is held twice fails only where both copies are uncorrectable (R305). -/
theorem State.readTwo_lost {s : State} {part structure_ ix u0 u1 o0 o1 : Nat}
    (h : (s.readTwo part structure_ ix u0 u1 o0 o1).2 = true) :
    s.copyOutcome structure_ (2 * ix) o0 = 2 ∧ s.copyOutcome structure_ (2 * ix + 1) o1 = 2 := by
  unfold State.readTwo at h
  dsimp only at h
  rcases s.readCopy_cases u0 u1 ix with ha | ha <;> rw [ha] at h
  · obtain ⟨hfirst, hsecond⟩ := of_ite_snd h
    exact ⟨hfirst, beq_iff_eq.mp hsecond⟩
  · obtain ⟨hfirst, hsecond⟩ := of_ite_snd h
    exact ⟨beq_iff_eq.mp hsecond, hfirst⟩

theorem State.readStat_cases (s : State) (set inst item o0 o1 : Nat) : let k := ctrKey set inst item
    let p := s.ctrPart set inst
    let r := s.readTwo p structStat k (statUnit set k 0) (statUnit set k 1) o0 o1
    let c := r.1.ctr set inst item
    (r.2 = true → (o0 = 2 ∨ s.recPoisoned structStat (2 * k) = true) ∧ (o1 = 2 ∨ s.recPoisoned structStat (2 * k + 1) = true)) ∧
    (r.2 = false → s.readStat set inst item o0 o1 = (r.1, false)) ∧
    (r.2 = true → s.readStat set inst item o0 o1 = ((((r.1.setCtr set inst item { c with backing := c.acc, acc := 0, lost := true }
      ).statWritten k).raise p evCounterLost set (inst % 2 ^ 32 + item * 2 ^ 32)), true)) := by
  intro k p r c
  refine ⟨fun h => ?_, fun h => if_neg (by rw [h]; exact Bool.false_ne_true), fun h => if_pos h⟩
  obtain ⟨h0, h1⟩ := State.readTwo_lost h
  exact ⟨State.copyOutcome_eq_two h0, State.copyOutcome_eq_two h1⟩

theorem State.flushCtr_cases (s : State) (set inst item : Nat) : let c := s.ctr set inst item
    let full := s.satMode set (s.ctrPart set inst) = true ∧ 0xFFFFFFFFFFFFFFFF < c.backing + c.acc
    (¬ full → s.flushCtr set inst item = (s.setCtr set inst item
      { c with backing := (c.backing + c.acc) % 2 ^ 64, acc := 0 }).statWritten (ctrKey set inst item)) ∧
    (full → let v := (s.setCtr set inst item { c with backing := 0xFFFFFFFFFFFFFFFF, acc := 0, spent := true }).statWritten (ctrKey set inst item)
      s.flushCtr set inst item = if c.spent = true then v else v.raiseSaturated set inst item) := by
  intro c full
  have hfull : (s.satMode set (s.ctrPart set inst) && decide (max64 < c.backing + c.acc)) = true ↔ full := by
    simp only [Bool.and_eq_true, decide_eq_true_eq]
    rfl
  have hflush : c.flush (s.satMode set (s.ctrPart set inst)) =
      if full then ({ c with backing := max64, acc := 0, spent := true }, !c.spent)
      else ({ c with backing := (c.backing + c.acc) % 2 ^ 64, acc := 0 }, false) := if_congr hfull rfl rfl
  unfold State.flushCtr
  constructor
  · intro h
    rw [show s.ctr set inst item = c from rfl, hflush, if_neg h]
    rfl
  · intro h v
    rw [show s.ctr set inst item = c from rfl, hflush, if_pos h]
    cases c.spent <;> rfl

/-! ### Timed rows (R418, R426, R428) -/

section Rows

variable (s : State) (dt : Nat)

theorem exec_accumulatorFlush {set inst item n : Nat} (out0 out1 : Fin 3) {e : Entity} (hk : ctrKind set inst = some (e, n))
    (hi : item < n) (hc : inst % 2 ^ 24 < e.count) (hb : unbacked set inst item = false) :
    exec (.accumulatorFlush dt set inst item (out0, out1)) s = .next (let r := (s.pass dt).readStat set inst item out0 out1
      if r.2 = true then r.1 else r.1.flushCtr set inst item) := by
  refine if_neg ?_
  rw [hk]
  simpa [hi, hb] using hc

theorem exec_perfSample (slice ctr : Fin 8) (skid : Fin 17) (cat : Fin 4) (pp : Option (BitVec 256)) : let u := s.pass dt
    let k := perfKey false slice ctr
    let v := u.updPerf k fun p => { p with due := p.due - 1 }
    let w : State := { v with tele := { v.tele with sampleAt := v.tele.sampleAt.ins slice v.cyc } }
    let part := w.perfPart false slice ctr
    let rec_ := w.evtOf ⟨0x30, (u.perf k).event, false⟩ (slice.val * 8 + ctr.val)
      ((pp.map (·.toNat)).getD 0 + cat.val * 2 ^ 256 + b2n pp.isSome * 2 ^ 258 + skid.val * 2 ^ 259) true
    let sent := w.sendEvt part { rec_ with kind := 2 }
    exec (.perfSample dt slice ctr skid cat pp) s = .next (
      if (u.perf k).due = 0 then u
      else if (v.tele.sampleAt.find? slice).any (fun t => decide (v.cyc < t + cycUs)) = true then v.bump ⟨0x32, 0, 0⟩ slice
      else if sent.2 = true then sent.1.raiseSaturated 0x16 (evtRingIx (w.routeOf part 0x30).1 (w.routeOf part 0x30).2) 0
      else sent.1) := by
  intro u k v w part rec_ sent
  refine Eq.trans ?_ (apply_ite Host.Outcome.next _ _ _).symm
  refine ite_congr rfl (fun _ => rfl) fun _ => ?_
  refine Eq.trans ?_ (apply_ite Host.Outcome.next _ _ _).symm
  refine if_congr ?_ rfl rfl
  generalize v.tele.sampleAt.find? slice = at_
  cases at_ <;> rfl

theorem exec_flowCacheWriteback (index : Fin 268435456) (evict : Bool) : let u := s.pass dt
    exec (.flowCacheWriteback dt index evict) s = .next (match u.tele.flowCache.find? index with
      | none => u
      | some (t, _) => if t + cycSec ≤ u.cyc ∨ evict = true ∧ 262144 ≤ u.tele.flowCache.length then u.flowWrite index else u) := by
  intro u
  change execFlowCacheWriteback dt index evict s = _
  unfold execFlowCacheWriteback
  dsimp only
  cases u.tele.flowCache.find? index with
  | none => rfl
  | some e =>
    refine Eq.trans (if_congr ?_ rfl rfl) (apply_ite Host.Outcome.next _ _ _).symm
    simp only [State.flowCacheFull, decide_eq_true_eq]
    rfl

end Rows

/-- Settles O37: a lemma for each command and row. -/
theorem counterAndSampleCommands : Obligations.CounterAndSampleCommands := by
  refine ⟨fun a => ?_, fun a => ?_, fun a => ?_, fun _ _ => rfl, fun _ _ _ => rfl, fun a => ?_, State.settleSet_eq, by decide, by decide,
    fun a => ?_, perfCfgOk_iff, fun s dt _ _ _ out0 out1 _ _ hk hi hc hb => exec_accumulatorFlush s dt out0 out1 hk hi hc hb, unbacked_iff,
    State.readStat_cases, State.flushCtr_cases, exec_perfSample, exec_flowCacheWriteback⟩
  · exact congrArg Host.Outcome.next (a.run_of (counterReadBody_eq _ (a.s.cmdOf a.i a.d) _))
  · exact congrArg Host.Outcome.next (a.run_of (counterReadClearBody_eq _ (a.s.cmdOf a.i a.d) _))
  · exact congrArg Host.Outcome.next (a.run_of (counterWriteBody_eq _ (a.s.cmdOf a.i a.d) _))
  · exact congrArg Host.Outcome.next (a.run_of (counterSetCfgBody_eq _ (a.s.cmdOf a.i a.d) _))
  · exact congrArg Host.Outcome.next (a.run_of (perfCfgBody_eq _ (a.s.cmdOf a.i a.d) _))

end Sys2Proof.Machine
end

section
/-! PROOF. O49: reset pins, clocks, temperatures and the sideband. -/

namespace Sys2Proof.Machine

variable {s : State} {dt : Nat}

/-! ### Reset pins (R433 to R436, R446) -/

theorem exec_porstNRelease (h : s.chip.porst = false) : let u := s.pass dt
    exec (.porstNRelease dt) s = .next (({ u.cleared with
      chip := { u.cleared.chip with porst := true, resets := u.chip.resets }
      sec := { u.cleared.sec with nonce := u.sec.nonce } }).startUp) :=
  if_neg (by simp [State.pass, h])

theorem exec_sysrstNAssert (hr : s.chip.sysrst = true) (hp : s.chip.porst = true) (ht : s.chip.thermal.st ≠ 2) : let u := s.pass dt
    exec (.sysrstNAssert dt) s = .next ((({ u with chip := { u.chip with sysrst := false } }).allStop).orReg 0x03400008 2) :=
  if_neg (by simp [State.pass, hr, hp, ht])

theorem exec_sysrstNRelease (hr : s.chip.sysrst = false) (hp : s.chip.porst = true) (ht : s.chip.thermal.st ≠ 2) :
    let u := s.pass dt
    ∃ t, t = ({ u with chip := { u.chip with sysrst := true } }).sysCleared ∧ exec (.sysrstNRelease dt) s = .next
      (({ t with chip := { t.chip with resets := u.chip.resets }, sec := { t.sec with nonce := u.sec.nonce } }).startUp) :=
  ⟨_, rfl, if_neg (by simp [State.pass, hr, hp, ht])⟩

/-- In SHUTDOWN and while PORST_N is low the pin alone moves. -/
theorem exec_sysrstN_inert {b : Bool} (h : s.chip.thermal.st = 2 ∨ s.chip.porst = false) : let u := s.pass dt
    exec (if b then .sysrstNRelease dt else .sysrstNAssert dt) s = .next { u with chip := { u.chip with sysrst := b } } := by
  cases b
  · exact if_pos (by rcases h with h | h <;> simp [State.pass, h])
  · exact if_pos (by rcases h with h | h <;> simp [State.pass, h])

/-! ### Clocks (R457) -/

theorem exec_clockCheck {sys pcie ln fb : Bool} : let u := s.pass dt
    u.chip.clkAt + 10 * cycUs ≤ u.cyc → u.chip.porst = true →
    ∃ t, t = { u with chip := { u.chip with clkAt := u.cyc, sysOk := sys, pcieOk := sys && pcie, lnOk := sys && ln, fbOk := sys && fb } } ∧
      exec (.clockCheck dt sys pcie ln fb) s = .next (t.orReg 0x00100004 (lostBits u.chip.clkOk t.chip.clkOk)) := by
  intro u hdue hp
  refine ⟨_, rfl, if_neg ?_⟩
  simp only [not_or, not_lt, Bool.not_eq_true', Bool.not_eq_false]
  exact ⟨hdue, hp⟩

/-! ### Temperatures (R443 to R445) -/

/-- The state after the sensors are read and the temperatures set. -/
def State.sensed (u : State) (f t : Vector (Option Int) 16) : State :=
  ((f.toList ++ t.toList).zipIdx.foldl (fun s (r, k) => s.readSensor k r) (u.setThermal fun x => { x with readAt := u.cyc })).setThermal
    fun x => { x with tempF := highest (x.valid 0 f.toList) x.tempF, tempT := highest (x.valid 1 t.toList) x.tempT }

/-- What follows from the temperatures; `any` says that a reading counts, `blind` that a die has no sensor left. -/
def State.judged (w : State) (any blind : Bool) : Host.Outcome State Fault Refusal :=
  let j := max w.chip.thermal.tempF w.chip.thermal.tempT
  let s := w.setThermal fun x => { x with stuck := x.stuck || blind }
  let s := if any then s.warnTemp j else s
  let s := if s.chip.thermal.st = 0 ∧ ((any && decide (100 ≤ j)) || blind) then s.throttle j else s
  let s := if any && decide (95 ≤ j) then s.setThermal fun x => { x with hotAt := s.cyc } else s
  if any && decide (115 ≤ j) then ans ((s.raise 0 evThermShutdown 0 (temp8 j)).shutdown) else ans s

theorem exec_thermalReading {f t : Vector (Option Int) 16} : let u := s.pass dt
    u.chip.thermal.st ≠ 2 → u.chip.porst = true → u.chip.thermal.readAt + 100 * cycUs ≤ u.cyc →
    let x := (u.sensed f t).chip.thermal
    exec (.thermalReading dt f t) s =
      (u.sensed f t).judged (!(x.valid 0 f.toList ++ x.valid 1 t.toList).isEmpty) (x.blind 0 || x.blind 1) := by
  intro u hst hp hdue x
  refine if_neg ?_
  simp only [not_or, not_lt, Bool.not_eq_true', Bool.not_eq_false]
  exact ⟨hst, hp, hdue⟩

theorem State.setThermal_id {w : State} {f : Thermal → Thermal} (h : f w.chip.thermal = w.chip.thermal) : w.setThermal f = w := by
  unfold State.setThermal
  rw [h]

/-- Below every threshold a reading rearms the warning. -/
theorem State.judged_cool {w : State} {j : Int} (hj : max w.chip.thermal.tempF w.chip.thermal.tempT = j) (h95 : j < 95)
    (hwarn : j < w.warnC - 5) : w.judged true false = .next (w.setThermal fun x => { x with warned := false }) := by
  have hstuck : (w.setThermal fun x => { x with stuck := x.stuck }) = w := State.setThermal_id rfl
  have hw : w.warnTemp j = w.setThermal fun x => { x with warned := false } :=
    (if_neg (by omega)).trans (if_pos hwarn)
  have h95' : ¬ 95 ≤ j := by omega
  have h100 : ¬ 100 ≤ j := by omega
  have h115 : ¬ 115 ≤ j := by omega
  simp only [State.judged, hstuck, hj, if_true, hw, h95', h100, h115, decide_false, Bool.and_false, Bool.or_false, Bool.false_eq_true,
    and_false, if_false]
  rfl

/-- Without a sensor left NORMAL goes to THROTTLE for good. -/
theorem State.judged_blind {w : State} (hst : w.chip.thermal.st = 0) : w.judged false true =
    .next ((w.setThermal fun x => { x with stuck := true }).throttle (max w.chip.thermal.tempF w.chip.thermal.tempT)) := by
  have hst' : (w.setThermal fun x => { x with stuck := true }).chip.thermal.st = 0 := hst
  simp only [State.judged, Bool.or_true, Bool.false_eq_true, if_false, Bool.false_and, hst', and_self, if_true]
  rfl

theorem State.readSensor_excluded {w : State} {k : Nat} (h : w.chip.thermal.excluded.get false k = true) (r : Option Int) :
    w.readSensor k r = w := if_pos h

theorem State.foldl_readSensor_excluded {w : State} {l : List (Option Int)} (h : ∀ k < l.length, w.chip.thermal.excluded.get false k = true) :
    l.zipIdx.foldl (fun s (r, k) => s.readSensor k r) w = w :=
  List.foldlRecOn (motive := (· = w)) _ _ rfl fun v hv e he => by
    rw [hv]
    exact State.readSensor_excluded (h _ (List.snd_lt_of_mem_zipIdx he)) _

theorem Thermal.valid_excluded {x : Thermal} {die : Nat} {l : List (Option Int)}
    (h : ∀ i < l.length, x.excluded.get false (16 * die + i) = true) : x.valid die l = [] :=
  List.filterMap_eq_nil_iff.mpr fun _ he => if_pos (h _ (List.snd_lt_of_mem_zipIdx he))

section Blind

variable {u : State} (hex : ∀ k < 32, u.chip.thermal.excluded.get false k = true)
include hex

theorem valid_of_allExcluded {die : Nat} (hd : die < 2) (f : Vector (Option Int) 16) : u.chip.thermal.valid die f.toList = [] :=
  Thermal.valid_excluded fun i hi => hex _ (by rw [Vector.length_toList] at hi; omega)

theorem blind_of_allExcluded : (u.chip.thermal.blind 0 || u.chip.thermal.blind 1) = true :=
  (Bool.or_eq_true _ _).mpr (.inl (List.all_eq_true.mpr fun i hi => hex _ (by rw [List.mem_range] at hi; omega)))

/-- Excluded sensors leave the temperatures as they are. -/
theorem sensed_of_allExcluded (f t : Vector (Option Int) 16) : u.sensed f t = u.setThermal fun x => { x with readAt := u.cyc } := by
  let v := u.setThermal fun x => { x with readAt := u.cyc }
  have hread : (f.toList ++ t.toList).zipIdx.foldl (fun s (r, k) => s.readSensor k r) v = v :=
    State.foldl_readSensor_excluded fun k hk => hex k (by simpa using hk)
  unfold State.sensed
  rw [hread]
  refine State.setThermal_id ?_
  have hf : v.chip.thermal.valid 0 f.toList = [] := valid_of_allExcluded hex (by decide) f
  have ht : v.chip.thermal.valid 1 t.toList = [] := valid_of_allExcluded hex (by decide) t
  rw [hf, ht]
  rfl

end Blind

theorem exec_thermalReading_blind {f t : Vector (Option Int) 16} : let u := s.pass dt
    u.chip.thermal.st = 0 → u.chip.porst = true → u.chip.thermal.readAt + 100 * cycUs ≤ u.cyc →
    (∀ k < 32, u.chip.thermal.excluded.get false k = true) →
    exec (.thermalReading dt f t) s = .next
      ((u.setThermal fun x => { x with readAt := u.cyc, stuck := true }).throttle (max u.chip.thermal.tempF u.chip.thermal.tempT)) := by
  intro u hst hp hdue hex
  let v := u.setThermal fun x => { x with readAt := u.cyc }
  have hst2 : u.chip.thermal.st ≠ 2 := by omega
  have hexv : ∀ k < 32, v.chip.thermal.excluded.get false k = true := hex
  refine (exec_thermalReading hst2 hp hdue).trans ?_
  rw [sensed_of_allExcluded hex, valid_of_allExcluded hexv (by decide), valid_of_allExcluded hexv (by decide), blind_of_allExcluded hexv]
  exact State.judged_blind hst

theorem State.judged_hot {w : State} (blind : Bool) (h : 115 ≤ max w.chip.thermal.tempF w.chip.thermal.tempT) :
    ∃ t, w.judged true blind = .next t ∧ t.chip.thermal.st = 2 ∧ t.host.linkUp = false :=
  ⟨_, if_pos (by simpa using h), rfl, rfl⟩

theorem exec_thermalReading_seen {f t : Vector (Option Int) 16} : let u := s.pass dt
    let v := (f.toList ++ t.toList).zipIdx.foldl (fun s (r, k) => s.readSensor k r) (u.setThermal fun x => { x with readAt := u.cyc })
    let w := v.setThermal fun x =>
      { x with tempF := highest (x.valid 0 f.toList) x.tempF, tempT := highest (x.valid 1 t.toList) x.tempT }
    let j := max w.chip.thermal.tempF w.chip.thermal.tempT
    u.chip.thermal.st ≠ 2 → u.chip.porst = true → u.chip.thermal.readAt + 100 * cycUs ≤ u.cyc →
    w.chip.thermal.valid 0 f.toList ≠ [] → w.chip.thermal.blind 0 = false → w.chip.thermal.blind 1 = false →
    (j < 95 → j < w.warnC - 5 → exec (.thermalReading dt f t) s = .next (w.setThermal fun x => { x with warned := false })) ∧
    (115 ≤ j → ∃ t', exec (.thermalReading dt f t) s = .next t' ∧ t'.chip.thermal.st = 2 ∧ t'.host.linkUp = false) := by
  intro u v w j hst hp hdue hseen h0 h1
  have hrow : exec (.thermalReading dt f t) s = w.judged true false := by
    refine (exec_thermalReading hst hp hdue).trans ?_
    change w.judged (!(w.chip.thermal.valid 0 f.toList ++ w.chip.thermal.valid 1 t.toList).isEmpty)
      (w.chip.thermal.blind 0 || w.chip.thermal.blind 1) = _
    rw [h0, h1, List.isEmpty_eq_false_iff.mpr (List.append_ne_nil_of_left_ne_nil hseen _)]
    rfl
  rw [hrow]
  exact ⟨State.judged_cool rfl, State.judged_hot false⟩

theorem exec_throttleRelease : let u := s.pass dt
    u.chip.thermal.st = 1 → u.chip.thermal.stuck = false → u.chip.thermal.hotAt + 10 * cycMs ≤ u.cyc →
    exec (.throttleRelease dt) s = .next ((u.syncIngress.setThermal fun x => { x with st := 0 }).raiseSt 0 evThermThrottle 0
      (temp8 (max u.chip.thermal.tempF u.chip.thermal.tempT)) false) := by
  intro u hst hstuck hdue
  exact if_pos ⟨hst, (Bool.not_eq_true' _).mpr hstuck, hdue⟩

/-! ### Sideband (R434, R458, R459) -/

theorem exec_sidebandReady (h : s.chip.porst = true) : let u := s.pass dt
    exec (.sidebandReady dt) s = .next { u with chip := { u.chip with sbReady := true } } :=
  if_pos h

theorem sideband_answers (h : s.chip.sbReady = true) : ¬ (!(s.pass dt).chip.sbReady) = true := by
  simp [State.pass, h]

theorem sideband_silent (h : s.chip.sbReady = false) : (!(s.pass dt).chip.sbReady) = true := by
  simp [State.pass, h]

/-- Status of a register write (R459). -/
def sbStatusOf (a : Nat) : Nat := if badAddr a then stBadArg else if sbWritable a then stOk else stProtected

theorem sbStatusOf_eq_ok {a : Nat} : sbStatusOf a = stOk ↔ badAddr a = false ∧ sbWritable a = true := by
  unfold sbStatusOf
  cases badAddr a <;> cases sbWritable a <;> simp [stBadArg, stOk, stProtected]

theorem exec_smbRegisterWrite {addr v : Word32} (h : s.chip.sbReady = true) : let u := s.pass dt
    ∃ t st, exec (.smbRegisterWrite dt addr v) s = .next { t with chip := { t.chip with sbStatus := some st } } ∧
      st = (if badAddr addr.toNat then stBadArg else if sbWritable addr.toNat then stOk else stProtected) ∧
      t = if badAddr addr.toNat = false ∧ sbWritable addr.toNat = true then u.sbWrite addr.toNat v else u := by
  intro u
  exact ⟨_, sbStatusOf addr.toNat, if_neg (sideband_answers h), rfl, if_congr sbStatusOf_eq_ok rfl rfl⟩

theorem exec_smbSetReadAddress {addr : Word32} (h : s.chip.sbReady = true) : let u := s.pass dt
    exec (.smbSetReadAddress dt addr) s = .next { u with chip := { u.chip with sbAddr := some addr } } :=
  if_neg (sideband_answers h)

theorem exec_smbReadResult (h : s.chip.sbReady = true) : let u := s.pass dt
    exec (.smbReadResult dt) s = .next { u with
      freeCtr := u.freeCtr + 1
      chip := { u.chip with sbOut := (u.chip.sbStatus.getD u.sbResult.1, u.sbResult.2), sbStatus := none } } :=
  if_neg (sideband_answers h)

/-- Settles O49: a lemma for each pin, check, reading and access. -/
theorem resetsClocksThermalAndSidebandActAsStated : Obligations.ResetsClocksThermalAndSidebandActAsStated := by
  refine ⟨fun _ _ => ⟨_, rfl, rfl, rfl, rfl, rfl, rfl, rfl, rfl⟩, fun s _ => exec_porstNRelease (s := s),
    fun s _ => exec_sysrstNAssert (s := s), fun s _ => exec_sysrstNRelease (s := s), fun s _ _ => exec_sysrstN_inert (s := s),
    fun _ _ _ _ _ _ => exec_clockCheck, fun _ _ _ _ => exec_thermalReading_seen, fun _ _ _ _ => exec_thermalReading_blind,
    fun _ _ => exec_throttleRelease, fun s _ => exec_sidebandReady (s := s), fun s _ _ _ => exec_smbRegisterWrite (s := s),
    fun s _ _ => exec_smbSetReadAddress (s := s), fun s _ => exec_smbReadResult (s := s), fun s _ _ _ h => ?_⟩
  exact ⟨if_pos (sideband_silent (s := s) h), if_pos (sideband_silent (s := s) h), if_pos (sideband_silent (s := s) h)⟩

end Sys2Proof.Machine
end
